-- ==== Sys2Proof/Word.lean ====
section
/-! DEFINITION. The word types of the SLF-4608 (R4) and their plainest arithmetic. -/

namespace Sys2Proof

/-- A word is 96 bits (R4). -/
abbrev Word := BitVec 96

/-- A half-word is 48 bits (R4): an instruction or a scalar register value (R8). -/
abbrev Half := BitVec 48

/-- A byte of byte-addressed space (R5). -/
abbrev Byte := BitVec 8

/-- A control-space register is 64 bits wide (R29). -/
abbrev Reg64 := BitVec 64

/-- A scratchpad word as stored: data in bits [95:0], check bits c0–c7 in bits [103:96] (R140). -/
abbrev Stored := BitVec 104

/-- A frame line as stored: 64 data bytes in bits [511:0], 8 check bytes in bits [575:512] (R224). -/
abbrev FrameLine := BitVec 576

/-- A gallery line as stored: eight units of 64 data and 8 check bits, unit u in bits [72u+71:72u] (R156). -/
abbrev GalLine := BitVec 576

end Sys2Proof
end

