-- ==== Sys2Proof/Syntax.lean ====
section
/-! DEFINITION. The commands of spec/opcode_table.json, and the data that a command carries from outside: a command packet's header, a decoded image, frames. -/

namespace Sys2Proof

/-- What identifies a command packet (Tables 13.1 and 13.2): its queue, TAG, FLAGS ([0] FENCE, [1] QUIET), TPART and the count of its
first slot. -/
structure CmdHdr where
  queue : Nat
  tag : Nat
  flags : Nat
  tpart : Nat
  seq : Nat
deriving DecidableEq, Repr

/-! A decoded image (IMAGE_LOAD, Table 13.4). The image's own format is outside the manual; these are the tables that R69, R97, R99,
R148, R179, R181, R195 and R206 say it carries. -/

/-- What an image holds for one local tile. -/
structure TileImage where
  ltile : Nat
  /-- entry address and code region (R67, R69) -/
  entry : Nat
  codeBase : Nat
  codeLimit : Nat
  /-- handler table, its enable and the budget (R97, R99) -/
  htabBase : Nat
  hen : Nat
  hbudget : Nat
  /-- scratchpad words: address and data -/
  words : List (Nat × Nat)
  /-- the exchange window that replaces alcove 0 (R148) -/
  window : Option (Nat × Nat)
  /-- alcoves 1 to 15: number and descriptor -/
  alcoves : List (Nat × Nat)
  /-- OPEN_IN and OPEN_OUT descriptors (R195) -/
  ins : List Nat
  outs : List Nat
  /-- HALL.QCFG(t).LIMIT (R206) -/
  qlimit : Nat
deriving DecidableEq, Repr

/-- A multicast group entry of one hall (R179): group, ROOTHALL, ROOT, forward mask, delivery mask, destination count. -/
structure GroupImage where
  group : Nat
  rootHall : Nat
  root : Bool
  fwd : Nat
  deliver : Nat
  dests : Nat
deriving DecidableEq, Repr

/-- Router tables of one local hall (R179, R181): reductions as (RID, BUF, LEN, N). -/
structure HallImage where
  lhall : Nat
  groups : List GroupImage
  reds : List (Nat × Nat × Nat × Nat)
deriving DecidableEq, Repr

/-- An image: the hall count it is compiled for, and its tables. (DESIGN CHOICE, unsafe: log 6) -/
structure Image where
  halls : Nat
  tiles : List TileImage
  routers : List HallImage
deriving DecidableEq, Repr

/-! Frames from the wire. -/

/-- What the MAC sees of a received frame beside its contents (R313, R315): whether its FCS (and a RoCEv2 packet's ICRC) is good, its bytes, its 802.1Q tags as VID
and PCP, its DSCP, the service classes whose receive buffers are full, and whether its ECN field says CE. (DESIGN CHOICE, unsafe: log 195) -/
structure EthHead where
  fcs : Bool
  size : Nat
  tags : List (Nat × Nat)
  dscp : Nat
  full : List Nat
  ce : Bool
deriving DecidableEq, Repr

/-- A frame that reaches the sub-port of index `sub` (2p + s). -/
structure EthIn where
  sub : Nat
  eth : EthHead
deriving DecidableEq, Repr

/-- A frame that reaches fabric sub-port `sub` (index 2p + s) as a Stairway Transport packet (R326, Table 12.5): what the MAC sees of it; whether
its destination address is the sub-port's own, and the stop's receive buffer has room; its source address and UDP port; the
header's fields; the payload as carried (PLEN bytes, byte 0 lowest), the GCM tag and the integrity check. (DESIGN CHOICE, unsafe: log 96) -/
structure SwtFrame where
  sub : Nat
  eth : EthHead
  own : Bool
  room : Bool
  srcIp : Nat
  udp : Nat
  ver : Nat
  typ : Nat
  cls : Nat
  enc : Bool
  keyid : Nat
  retx : Bool
  plen : Nat
  dctx : Nat
  sctx : Nat
  seq : Nat
  aux : Nat
  addr : Nat
  pmask : Nat
  payload : Nat
  tag : Nat
  crc : Nat
deriving DecidableEq, Repr

/-- A RoCEv2 request packet at host port `port` (R318–R321): what the MAC sees of it; whether it uses a feature that
Table 12.3 lacks; the queue pair, PSN, whether it is the first and the last packet of its message; the address, key and length of the message; the
immediate value; the payload bytes. (DESIGN CHOICE, unsafe: log 98) -/
structure RocePkt where
  port : Nat
  eth : EthHead
  absent : Bool
  qpn : Nat
  psn : Nat
  first : Bool
  last : Bool
  va : Nat
  rkey : Nat
  len : Nat
  imm : Nat
  data : List Nat
deriving DecidableEq, Repr

/-- The commands: one constructor per row of spec/opcode_table.json, in its order. An operand is what the row's stimulus carries: a tile n, a
context c, a hall h, a partition p, a command's packet header h with its parameters, a frame, or a value read from a pin or a sensor. -/
inductive Instr where
  /-- ILLEGAL (R73) -/
  | illegal (n : Nat) (c : Nat)
  /-- ALU (R74) -/
  | alu (n : Nat) (c : Nat)
  /-- ALUI (R74) -/
  | alui (n : Nat) (c : Nat)
  /-- LI (R73) -/
  | li (n : Nat) (c : Nat)
  /-- CMP (R73) -/
  | cmp (n : Nat) (c : Nat)
  /-- CMPI (R73) -/
  | cmpi (n : Nat) (c : Nat)
  /-- PLOG (R73) -/
  | plog (n : Nat) (c : Nat)
  /-- MULDIV (R74) -/
  | muldiv (n : Nat) (c : Nat)
  /-- LDH (R75) -/
  | ldh (n : Nat) (c : Nat)
  /-- STH (R75) -/
  | sth (n : Nat) (c : Nat)
  /-- LDE (R75) -/
  | lde (n : Nat) (c : Nat)
  /-- STE (R75) -/
  | ste (n : Nat) (c : Nat)
  /-- MFS (R77) -/
  | mfs (n : Nat) (c : Nat)
  /-- MTS (R78) -/
  | mts (n : Nat) (c : Nat)
  /-- SETVL (R77) -/
  | setvl (n : Nat) (c : Nat)
  /-- BR (R76) -/
  | br (n : Nat) (c : Nat)
  /-- CALL (R76) -/
  | call (n : Nat) (c : Nat)
  /-- JR (R76) -/
  | jr (n : Nat) (c : Nat)
  /-- LOOP (R76) -/
  | loop (n : Nat) (c : Nat)
  /-- CALLR (R76) -/
  | callr (n : Nat) (c : Nat)
  /-- MX (R103) -/
  | mx (n : Nat) (c : Nat)
  /-- VX (R113) -/
  | vx (n : Nat) (c : Nat)
  /-- ST (R132) -/
  | st (n : Nat) (c : Nat)
  /-- XC (R176) -/
  | xc (n : Nat) (c : Nat)
  /-- SEND (R199) -/
  | send (n : Nat) (c : Nat)
  /-- OPEN_OUT (R196) -/
  | openOut (n : Nat) (c : Nat)
  /-- OPEN_IN (R197) -/
  | openIn (n : Nat) (c : Nat)
  /-- CLOSE_OUT (R198) -/
  | closeOut (n : Nat) (c : Nat)
  /-- CLOSE_IN (R198) -/
  | closeIn (n : Nat) (c : Nat)
  /-- ALC_OPEN (R148) -/
  | alcOpen (n : Nat) (c : Nat)
  /-- ALC_CLOSE (R149) -/
  | alcClose (n : Nat) (c : Nat)
  /-- NOP (R71) -/
  | nop (n : Nat) (c : Nat)
  /-- LAND (R91) -/
  | land (n : Nat) (c : Nat)
  /-- LAND_OPEN (R91) -/
  | landOpen (n : Nat) (c : Nat)
  /-- WAIT_LAND (R91) -/
  | waitLand (n : Nat) (c : Nat)
  /-- FENCE (R90) -/
  | fence (n : Nat) (c : Nat)
  /-- HALT (R92) -/
  | halt (n : Nat) (c : Nat)
  /-- HRET (R99) -/
  | hret (n : Nat) (c : Nat)
  /-- SEG_ON (R93) -/
  | segOn (n : Nat) (c : Nat)
  /-- SEG_OFF (R93) -/
  | segOff (n : Nat) (c : Nat)
  /-- DISPATCH_AFTER_STALL (R80) -/
  | dispatchAfterStall (n : Nat) (c : Nat)
  /-- FETCH_LINE_FILL (R70) -/
  | fetchLineFill (n : Nat) (k : Nat)
  /-- TILE_ARRIVAL (R91) -/
  | tileArrival (n : Nat)
  /-- FENCE_DONE (R90) -/
  | fenceDone (n : Nat) (c : Nat)
  /-- SEGMENT_CLEAR_DONE (R139) -/
  | segmentClearDone (n : Nat) (k : Nat)
  /-- SEGMENT_POWER_DOWN (R93) -/
  | segmentPowerDown (n : Nat)
  /-- ALCOVE_CLOSE_RETIRE (R149) -/
  | alcoveCloseRetire (n : Nat) (c : Nat)
  /-- CLOSE_OUT_RETIRE (R198) -/
  | closeOutRetire (n : Nat)
  /-- CLOSE_IN_RETIRE (R198) -/
  | closeInRetire (n : Nat)
  /-- HANDLER_ENTRY (R98) -/
  | handlerEntry (n : Nat)
  /-- MX_START (R83) -/
  | mxStart (n : Nat)
  /-- MX_KSTEP (R51) -/
  | mxKstep (n : Nat)
  /-- MX_DRAIN_END (R112) -/
  | mxDrainEnd (n : Nat)
  /-- VX_START (R116) -/
  | vxStart (n : Nat) (c : Nat)
  /-- VX_DONE (R118) -/
  | vxDone (n : Nat) (c : Nat)
  /-- ST_START (R88) -/
  | stStart (n : Nat) (id : Nat)
  /-- ST_WORD_GROUP_ARRIVAL (R133) -/
  | stWordGroupArrival (n : Nat) (id : Nat)
  /-- ST_WRITE_ACK (R87) -/
  | stWriteAck (n : Nat)
  /-- XC_START (R177) -/
  | xcStart (n : Nat)
  /-- XC_ENTRY_SEND (R178) -/
  | xcEntrySend (n : Nat)
  /-- EXCHANGE_DELIVERY (R180) -/
  | exchangeDelivery (idx : Nat)
  /-- XC_ACK (R183) -/
  | xcAck (idx : Nat)
  /-- MULTICAST_ROOT (R179) -/
  | multicastRoot (idx : Nat)
  /-- REDUCTION_CONTRIBUTION (R181) -/
  | reductionContribution (idx : Nat)
  /-- MESH_PACKET (R23) -/
  | meshPacket (idx : Nat)
  /-- MESSAGE_SEND (R200) -/
  | messageSend (n : Nat) (c : Nat) (cls : Nat)
  /-- MESSAGE_ARRIVAL (R205) -/
  | messageArrival (idx : Nat)
  /-- WRAP_MARKER (R201) -/
  | wrapMarker (idx : Nat)
  /-- DOORBELL (R207) -/
  | doorbell (idx : Nat)
  /-- MESSAGE_LAST_WORD (R207) -/
  | messageLastWord (n : Nat) (k : Nat)
  /-- MESSAGE_ACK (R199) -/
  | messageAck (idx : Nat)
  /-- CREDIT_RETURN (R200) -/
  | creditReturn (idx : Nat)
  /-- OPENING_GRANT (R197) -/
  | openingGrant (idx : Nat)
  /-- HELD_DELIVERY_RESUME (R206) -/
  | heldDeliveryResume (idx : Nat)
  /-- SPILL (R211) -/
  | spill (n : Nat) (k : Nat)
  /-- SPILL_COPY_DONE (R211) -/
  | spillCopyDone (n : Nat)
  /-- SPILL_READBACK (R211) -/
  | spillReadback (n : Nat)
  /-- CORRECTION_WRITE_BACK (R141) -/
  | correctionWriteBack (n : Nat) (a : Nat)
  /-- SCRUB_READ (R142) -/
  | scrubRead (n : Nat)
  /-- SCRUB_FORCED (R142) -/
  | scrubForced (n : Nat)
  /-- GALLERY_SCRUB_READ (R158) -/
  | galleryScrubRead (h : Nat) (k : Nat)
  /-- GALLERY_SCRUB_FORCED (R158) -/
  | galleryScrubForced (h : Nat) (k : Nat)
  /-- HALL_CLEAR_DONE (R154) -/
  | hallClearDone (h : Nat) (words : Nat) (lines : Nat) (cells : Nat)
  /-- CREATION_AFTER_RELEASE (R27) -/
  | creationAfterRelease (p : Nat)
  /-- LANDING_COMPLETE (R174) -/
  | landingComplete (p : Nat)
  /-- LANDING_TIMEOUT (R193) -/
  | landingTimeout (p : Nat) (l : Nat)
  /-- SYNC_PULSE (R188) -/
  | syncPulse (pin : Nat)
  /-- SYNC_GLITCH (R190) -/
  | syncGlitch (pin : Nat)
  /-- STUCK_SYNC (R191) -/
  | stuckSync (pin : Nat)
  /-- STUCK_SYNC_CLEAR (R191) -/
  | stuckSyncClear (pin : Nat)
  /-- LINE_READ_REQUEST (R231) -/
  | lineReadRequest (n : Nat) (id : Nat) (a : Nat)
  /-- LINE_WRITE_REQUEST (R231) -/
  | lineWriteRequest (n : Nat)
  /-- FRAME_LINE_READ (R226) -/
  | frameLineRead (f : Nat) (l : Nat)
  /-- FILL_LINE_ARRIVAL (R230) -/
  | fillLineArrival (h : Nat) (k : Nat) (l : Nat)
  /-- WRITE_BACK_DONE (R232) -/
  | writeBackDone (h : Nat) (k : Nat)
  /-- PAGE_MAP_CUT (R222) -/
  | pageMapCut
  /-- PREFETCH_BLOCK_PLACED (R237) -/
  | prefetchBlockPlaced (p : Nat) (j : Nat) (num : Nat)
  /-- COPY_DONE (R240) -/
  | copyDone (e : Nat)
  /-- REPAIR_TIMEOUT (R242) -/
  | repairTimeout (e : Nat) (l : Nat)
  /-- REPAIR_PAGE_COPY_DONE (R242) -/
  | repairPageCopyDone (e : Nat)
  /-- PATROL_SCRUB (R227) -/
  | patrolScrub (m : Nat)
  /-- MR4_READOUT (R223) -/
  | mr4Readout (m : Nat) (codes : Nat) (temp : Nat)
  /-- REFRESH (R223) -/
  | refresh (m : Nat) (die : Nat) (rfm : Bool)
  /-- CONTRIBUTION_WRITE (R249) -/
  | contributionWrite (n : Nat)
  /-- HELD_LINE_ACCEPT (R249) -/
  | heldLineAccept (p : Nat) (j : Nat)
  /-- BUCKET_START (R250) -/
  | bucketStart (p : Nat) (b : Nat)
  /-- BUCKET_PUBLISH (R253) -/
  | bucketPublish (p : Nat)
  /-- NOTICE_DELIVERY (R255) -/
  | noticeDelivery (idx : Nat)
  /-- COLLECTIVE_SLOW (R258) -/
  | collectiveSlow (p : Nat) (b : Nat)
  /-- PERMUTE_START (R273) -/
  | permuteStart (p : Nat)
  /-- REPLAY_NOTICE (R298) -/
  | replayNotice (p : Nat) (k : Nat)
  /-- DONE_WRITE (R298) -/
  | doneWrite (n : Nat)
  /-- LINK_LOST (R302) -/
  | linkLost (p : Nat)
  /-- SNAPSHOT_PAGE_SENT (R304) -/
  | snapshotPageSent (p : Nat)
  /-- RISK_INDEX_UPDATE (R306) -/
  | riskIndexUpdate (fec : List (Nat × Nat)) (mem : List (Nat × Nat))
  /-- RESTORE_SHADOW_DONE (R309) -/
  | restoreShadowDone (p : Nat) (step : Nat) (epoch : Nat) (pages : List (Nat × List Nat))
  /-- SWT_WRITE (R327) -/
  | swtWrite (f : SwtFrame)
  /-- SWT_READ (R327) -/
  | swtRead (f : SwtFrame)
  /-- READ_RESP (R327) -/
  | readResp (f : SwtFrame)
  /-- SWT_MSG (R327) -/
  | swtMsg (f : SwtFrame)
  /-- DACK (R327) -/
  | dack (f : SwtFrame)
  /-- CREDIT (R327) -/
  | credit (f : SwtFrame)
  /-- LAND_PACKET (R187) -/
  | landPacket (f : SwtFrame)
  /-- COLL (R257) -/
  | coll (f : SwtFrame)
  /-- REPAIR (R299) -/
  | repair (f : SwtFrame)
  /-- REPAIR_RESP (R242) -/
  | repairResp (f : SwtFrame)
  /-- KEEPALIVE (R334) -/
  | keepalive (f : SwtFrame)
  /-- PART_END (R334) -/
  | partEnd (f : SwtFrame)
  /-- SP_ACK (R298) -/
  | spAck (f : SwtFrame)
  /-- SP_RECORD (R297) -/
  | spRecord (f : SwtFrame)
  /-- SP_PAGE (R300) -/
  | spPage (f : SwtFrame)
  /-- SP_DIGEST (R301) -/
  | spDigest (f : SwtFrame)
  /-- ACK (R329) -/
  | ack (f : SwtFrame)
  /-- ACK_TIMER (R329) -/
  | ackTimer (ctx : Nat) (cls : Nat)
  /-- RETRANSMIT_TIMEOUT (R329) -/
  | retransmitTimeout (ctx : Nat)
  /-- CREDIT_PACKET_TIMER (R202) -/
  | creditPacketTimer (ctx : Nat)
  /-- CONTEXT_DOWN_TIMER (R334) -/
  | contextDownTimer (ctx : Nat)
  /-- KEEPALIVE_TIMER (R334) -/
  | keepaliveTimer (ctx : Nat)
  /-- ROCE_SEND (R321) -/
  | roceSend (k : RocePkt)
  /-- SEND_WITH_IMMEDIATE (R321) -/
  | sendWithImmediate (k : RocePkt)
  /-- RDMA_WRITE (R320) -/
  | rdmaWrite (k : RocePkt)
  /-- RDMA_WRITE_WITH_IMMEDIATE (R321) -/
  | rdmaWriteWithImmediate (k : RocePkt)
  /-- RDMA_READ (R322) -/
  | rdmaRead (k : RocePkt)
  /-- ROCE_ACK (R318) -/
  | roceAck (n : Nat) (psn : Nat) (e : EthHead)
  /-- ROCE_NAK (R323) -/
  | roceNak (n : Nat) (psn : Nat) (code : Nat) (rnr : Option Nat) (e : EthHead)
  /-- READ_RESPONSE (R318) -/
  | readResponse (n : Nat) (psn : Nat) (data : List Nat) (e : EthHead)
  /-- LOCAL_ACK_TIMEOUT (R318) -/
  | localAckTimeout (n : Nat)
  /-- CNP (R324) -/
  | cnp (n : Nat) (e : EthHead)
  /-- CNP_RATE_TIMER (R324) -/
  | cnpRateTimer (n : Nat)
  /-- PTP_EVENT_MESSAGE (R316) -/
  | ptpEventMessage (x : EthIn) (kind : Nat) (domain : Nat) (seq : Nat) (t : Nat)
  /-- NEIGHBOUR_DISCOVERY (R317) -/
  | neighbourDiscovery (x : EthIn) (v6 : Bool) (own : Bool) (asker : Nat)
  /-- PFC_FRAME (R315) -/
  | pfcFrame (x : Nat) (enable : Nat) (times : List Nat)
  /-- DROPPED_FRAME (R317) -/
  | droppedFrame (x : EthIn) (pause : Bool) (unc : Nat)
  /-- LINK_UP (R314) -/
  | linkUp (x : Nat)
  /-- LINK_DOWN (R314) -/
  | linkDown (x : Nat) (lfault : Nat) (rfault : Nat)
  /-- TAKE_PACKET (R340) -/
  | takePacket
  /-- TAIL_DOORBELL (R339) -/
  | tailDoorbell (q : Nat) (v : Nat)
  /-- CHEAD_DOORBELL (R339) -/
  | cheadDoorbell (q : Nat) (v : Nat)
  /-- EHEAD_DOORBELL (R339) -/
  | eheadDoorbell (q : Nat) (r : Nat) (v : Nat)
  /-- OUTPUT_LINE_COPY (R344) -/
  | outputLineCopy (p : Nat)
  /-- NOP_COMMAND (R342) -/
  | nopCommand (h : CmdHdr)
  /-- DEV_QUERY (R342) -/
  | devQuery (h : CmdHdr) (hbuf : Nat) (off : Nat)
  /-- QUEUE_CREATE (R336) -/
  | queueCreate (h : CmdHdr) (queue : Nat) (logslots : Nat) (cring : Nat)
  /-- QUEUE_DESTROY (R342) -/
  | queueDestroy (h : CmdHdr) (queue : Nat)
  /-- QP_CREATE (R319) -/
  | qpCreate (h : CmdHdr) (kind : Nat) (queue : Nat) (port : Nat) (gidx : Nat) (retry : Nat) (rnr : Nat) (mtu : Nat) (rqpn : Nat) (spsn : Nat) (rpsn : Nat) (rgid : Nat)
  /-- QP_DESTROY (R342) -/
  | qpDestroy (h : CmdHdr) (qpn : Nat)
  /-- EVRING_SET (R346) -/
  | evringSet (h : CmdHdr) (hbuf : Nat) (logrec : Nat)
  /-- EVENT_MASK (R346) -/
  | eventMask (h : CmdHdr) (mask : Nat)
  /-- WARM_RESET (R375) -/
  | warmReset (h : CmdHdr)
  /-- PART_CREATE (R27) -/
  | partCreate (h : CmdHdr) (adopt : Nat) (quota : Nat) (mask : Nat)
  /-- PART_RELEASE (R154) -/
  | partRelease (h : CmdHdr)
  /-- PART_KILL (R155) -/
  | partKill (h : CmdHdr) (capture : Nat) (cbase : Nat)
  /-- PART_QUERY (R342) -/
  | partQuery (h : CmdHdr)
  /-- SHARE_OFFER (R342) -/
  | shareOffer (h : CmdHdr) (share : Nat) (other : Nat)
  /-- SHARE_END (R342) -/
  | shareEnd (h : CmdHdr) (share : Nat)
  /-- PEERGROUP_SET (R342) -/
  | peergroupSet (h : CmdHdr) (group : Nat) (ctxs : List Nat)
  /-- LANDGROUP_SET (R186) -/
  | landgroupSet (h : CmdHdr) (mode : Nat) (flags : Nat) (rank : Nat) (size : Nat) (ctxs : List Nat)
  /-- IMAGE_LOAD (R342) -/
  | imageLoad (h : CmdHdr) (src : Nat) (len : Nat) (img : Option Image)
  /-- LAUNCH (R67) -/
  | launch (h : CmdHdr)
  /-- OUTPUT_SET (R344) -/
  | outputSet (h : CmdHdr) (hbuf : Nat) (obase : Nat) (olen : Nat)
  /-- PAGE_MAP (R221) -/
  | pageMap (h : CmdHdr) (page : Nat) (n : Nat) (rs : Nat)
  /-- PAGE_FREE (R222) -/
  | pageFree (h : CmdHdr) (page : Nat) (n : Nat) (all : Nat)
  /-- PAGE_ATTR (R222) -/
  | pageAttr (h : CmdHdr) (page : Nat) (n : Nat) (rs : Nat)
  /-- REGION_REG (R320) -/
  | regionReg (h : CmdHdr) (kind : Nat) (access : Nat) (tile : Nat) (base : Nat) (len : Nat)
  /-- REGION_DEREG (R342) -/
  | regionDereg (h : CmdHdr) (rkey : Nat)
  /-- HOSTBUF_REG (R323) -/
  | hostbufReg (h : CmdHdr) (qpn : Nat) (rkey : Nat) (raddr : Nat) (len : Nat)
  /-- HOSTBUF_DEREG (R342) -/
  | hostbufDereg (h : CmdHdr) (hbuf : Nat)
  /-- PREFETCH_SET (R236) -/
  | prefetchSet (h : CmdHdr) (nent : Nat) (period : Nat) (ahead : Nat) (sbase : Nat)
  /-- COPYPOOL_SET (R240) -/
  | copypoolSet (h : CmdHdr) (frames : Nat)
  /-- PEER_ADD (R325) -/
  | peerAdd (h : CmdHdr) (ctx : Nat) (rport : Nat) (rctx : Nat) (pmax : Nat) (enc : Nat) (spray : Nat) (raddr : Nat)
  /-- PEER_REMOVE (R334) -/
  | peerRemove (h : CmdHdr) (ctx : Nat)
  /-- PEER_KEY_WRITE (R332) -/
  | peerKeyWrite (h : CmdHdr) (ctx : Nat) (slot : Nat) (dir : Nat) (salt : Nat) (key : Nat)
  /-- PEER_KEY_SEND (R332) -/
  | peerKeySend (h : CmdHdr) (ctx : Nat) (slot : Nat) (dir : Nat) (salt : Nat) (key : Nat)
  /-- PEER_KEY_RETIRE (R332) -/
  | peerKeyRetire (h : CmdHdr) (ctx : Nat) (slot : Nat) (dir : Nat) (salt : Nat) (key : Nat)
  /-- COLL_GROUP (R246) -/
  | collGroup (h : CmdHdr) (rank : Nat) (size : Nat) (node : Nat) (prev : Nat) (next : Nat) (ctxs : List Nat)
  /-- PLAN_SET (R245) -/
  | planSet (h : CmdHdr) (nbuck : Nat) (btab : Nat) (cbase : Nat) (climit : Nat) (rbase : Nat) (rhalf : Nat)
  /-- SHARD_REG (R267) -/
  | shardReg (h : CmdHdr) (shard : Nat) (group : Nat) (fmt : Nat) (epoch : Nat) (step : Nat) (elems : Nat) (slot0 : Nat) (slot1 : Nat)
  /-- SHARD_DEREG (R342) -/
  | shardDereg (h : CmdHdr) (shard : Nat)
  /-- TENSOR_REG (R293) -/
  | tensorReg (h : CmdHdr) (entries : List Nat)
  /-- TENSOR_SET (R342) -/
  | tensorSet (h : CmdHdr) (index : Nat) (force : Nat) (rate : Nat)
  /-- LINK_OUT (R295) -/
  | linkOut (h : CmdHdr) (ctx : Nat)
  /-- LINK_IN (R295) -/
  | linkIn (h : CmdHdr) (link : Nat) (lsteps : Nat) (ntile : Nat) (shpage : Nat) (shn : Nat) (naddr : Nat) (lbase : Nat) (done : Nat)
  /-- LINK_REMOVE (R302) -/
  | linkRemove (h : CmdHdr) (link : Nat)
  /-- SNAPBUF_SET (R303) -/
  | snapbufSet (h : CmdHdr) (hbufA : Nat) (hbufB : Nat)
  /-- SNAPSHOT_NOW (R307) -/
  | snapshotNow (h : CmdHdr)
  /-- RESTORE_SHADOW (R309) -/
  | restoreShadow (h : CmdHdr) (first : Nat) (count : Nat) (ctx : Nat)
  /-- RESTORE_SNAP (R310) -/
  | restoreSnap (h : CmdHdr) (buf : Nat)
  /-- TELEM_READ (R344) -/
  | telemRead (h : CmdHdr) (kind : Nat) (id : Nat) (hbuf : Nat) (off : Nat)
  /-- EVLOG_READ (R356) -/
  | evlogRead (h : CmdHdr) (start : Nat) (count : Nat) (hbuf : Nat) (off : Nat)
  /-- SENSOR_READ (R353) -/
  | sensorRead (h : CmdHdr) (hbuf : Nat) (off : Nat)
  /-- MCTP_PASS (R342) -/
  | mctpPass (h : CmdHdr) (hbuf : Nat) (off : Nat) (msg : List Nat)
  /-- FW_UPDATE (R360) -/
  | fwUpdate (h : CmdHdr) (hbuf : Nat) (len : Nat)
  /-- BOOT (R358) -/
  | boot (reached : Bool) (v1 : Nat) (v2 : Nat) (fails : List Nat)
  /-- BOOT_WATCHDOG (R360) -/
  | bootWatchdog
  /-- HOLDUP_MEASURE (R351) -/
  | holdupMeasure (reached : Bool) (v1 : Nat) (v2 : Nat) (op : Nat)
  /-- FLASH_SEQUENCE_END (R350) -/
  | flashSequenceEnd
  /-- LOG_RETRY (R352) -/
  | logRetry
  /-- SENSOR_POLL (R353) -/
  | sensorPoll (num : Nat) (v : Int)
  /-- PCAP_TICK (R363) -/
  | pcapTick
  /-- THROTTLE_REPORT_TIMER (R380) -/
  | throttleReportTimer
  /-- SET_ENDPOINT_ID (R354) -/
  | setEndpointId (op : Nat) (eid : Nat)
  /-- GET_ENDPOINT_ID (R354) -/
  | getEndpointId
  /-- GET_ENDPOINT_UUID (R354) -/
  | getEndpointUuid
  /-- GET_MCTP_VERSION_SUPPORT (R354) -/
  | getMctpVersionSupport (ty : Nat)
  /-- GET_MESSAGE_TYPE_SUPPORT (R354) -/
  | getMessageTypeSupport
  /-- GET_VENDOR_DEFINED_MESSAGE_SUPPORT (R354) -/
  | getVendorDefinedMessageSupport (sel : Nat)
  /-- GET_TID (R354) -/
  | getTid
  /-- SET_TID (R354) -/
  | setTid (tid : Nat)
  /-- GET_PLDM_VERSION (R354) -/
  | getPldmVersion (ty : Nat)
  /-- GET_PLDM_TYPES (R354) -/
  | getPldmTypes
  /-- GET_PLDM_COMMANDS (R354) -/
  | getPldmCommands (ty : Nat) (ver : Nat)
  /-- GET_PDR_REPOSITORY_INFO (R354) -/
  | getPdrRepositoryInfo
  /-- GET_PDR (R354) -/
  | getPdr (handle : Nat) (xfer : Nat) (flag : Nat) (count : Nat) (change : Nat)
  /-- GET_SENSOR_READING (R354) -/
  | getSensorReading (id : Nat) (rearm : Nat)
  /-- SET_EVENT_RECEIVER (R354) -/
  | setEventReceiver (mode : Nat) (proto : Nat) (eid : Nat)
  /-- QUERY_DEVICE_IDENTIFIERS (R354) -/
  | queryDeviceIdentifiers
  /-- GET_FIRMWARE_PARAMETERS (R354) -/
  | getFirmwareParameters
  /-- REQUEST_UPDATE (R360) -/
  | requestUpdate (maxXfer : Nat) (comps : Nat) (outstanding : Nat)
  /-- PASS_COMPONENT_TABLE (R354) -/
  | passComponentTable (flag : Nat) (cls : Nat) (comp : Nat)
  /-- UPDATE_COMPONENT (R354) -/
  | updateComponent (cls : Nat) (comp : Nat) (idx : Nat) (stamp : Nat) (size : Nat)
  /-- REQUEST_FIRMWARE_DATA (R354) -/
  | requestFirmwareData (cc : Nat) (data : List Nat)
  /-- ACTIVATE_FIRMWARE (R360) -/
  | activateFirmware (selfContained : Nat)
  /-- GET_STATUS (R354) -/
  | getStatus
  /-- CANCEL_UPDATE_COMPONENT (R360) -/
  | cancelUpdateComponent
  /-- CANCEL_UPDATE (R360) -/
  | cancelUpdate
  /-- GET_VERSION (R362) -/
  | getVersion
  /-- GET_CAPABILITIES (R362) -/
  | getCapabilities (flags : Nat) (xfer : Nat) (msg : Nat)
  /-- NEGOTIATE_ALGORITHMS (R362) -/
  | negotiateAlgorithms (spec : Nat) (asym : Nat) (hash : Nat)
  /-- GET_DIGESTS (R362) -/
  | getDigests
  /-- GET_CERTIFICATE (R361) -/
  | getCertificate (slot : Nat) (off : Nat) (len : Nat)
  /-- CHALLENGE (R362) -/
  | challenge (slot : Nat) (meas : Nat) (nonce : Nat)
  /-- GET_MEASUREMENTS (R359) -/
  | getMeasurements (signed : Bool) (op : Nat) (nonce : Nat) (slot : Nat)
  /-- REG_READ (R355) -/
  | regRead (a : Nat)
  /-- REG_WRITE (R355) -/
  | regWrite (a : Nat) (v : Nat)
  /-- HALL_CLK_WRITE (R19) -/
  | hallClkWrite (h : Nat) (v : Nat)
  /-- CLOCK_CHANGE_DONE (R19) -/
  | clockChangeDone (h : Nat)
  /-- TSTAT_CLEAR (R55) -/
  | tstatClear (n : Nat) (bits : Nat)
  /-- SR_SEED_WRITE (R44) -/
  | srSeedWrite (n : Nat) (seed : Nat)
  /-- DBG_STOP (R101) -/
  | dbgStop (n : Nat)
  /-- DBG_GO (R101) -/
  | dbgGo (n : Nat)
  /-- DBG_STEP (R101) -/
  | dbgStep (n : Nat)
  /-- LAND_CTRL_WRITE (R193) -/
  | landCtrlWrite (p : Nat) (v : Nat)
  /-- PORT_MODE_WRITE (R335) -/
  | portModeWrite (p : Nat) (mode : Nat)
  /-- PTP_DISC_WRITE (R316) -/
  | ptpDiscWrite (p : Nat) (on : Bool)
  /-- AQP_CREATE (R355) -/
  | aqpCreate
  /-- FAULT_CLEAR (R365) -/
  | faultClear (failed : List Nat)
  /-- REGISTER_WRITE (R10) -/
  | registerWrite (a : Nat) (v : Nat)
  /-- READ_CLEAR (R10) -/
  | readClear (a : Nat)
  /-- MOD_PWREN_ASSERT (R371) -/
  | modPwrenAssert
  /-- MOD_PWREN_DEASSERT (R372) -/
  | modPwrenDeassert
  /-- INPUT_POWER_LOSS (R372) -/
  | inputPowerLoss
  /-- END_OF_RESET (R371) -/
  | endOfReset (addr : Nat)
  /-- MOD_RESET_N_LOW (R374) -/
  | modResetNLow
  /-- RESET_GLITCH (R379) -/
  | resetGlitch
  /-- THROTTLE_ASSERT (R380) -/
  | throttleAssert
  /-- THROTTLE_RELEASE (R380) -/
  | throttleRelease
  /-- THROTTLE_GLITCH (R379) -/
  | throttleGlitch
  /-- PPS_EDGE (R378) -/
  | ppsEdge
  /-- PPS_GLITCH (R378) -/
  | ppsGlitch
  /-- PPS_LOST (R378) -/
  | ppsLost
  /-- REFCLK_LOSS (R377) -/
  | refclkLoss
  /-- REFCLK_RESTORED (R377) -/
  | refclkRestored
  /-- SMBUS_STUCK (R379) -/
  | smbusStuck
  /-- THERM_TRIP (R384) -/
  | thermTrip (num : Nat) (reached : Bool) (v1 : Nat) (v2 : Nat)
  /-- HARDWARE_TRIP (R384) -/
  | hardwareTrip (num : Nat)
  /-- BYPASS (R386) -/
  | bypass
  /-- IDCODE (R386) -/
  | idcode
  /-- SAMPLE_PRELOAD (R386) -/
  | samplePreload (load : Nat)
  /-- EXTEST (R386) -/
  | extest
  /-- EXTEST_PULSE (R386) -/
  | extestPulse
  /-- EXTEST_TRAIN (R386) -/
  | extestTrain
  /-- CLAMP (R386) -/
  | clamp
  /-- HIGHZ (R386) -/
  | highz
  /-- HALL_FIELD_FAILURE (R28) -/
  | hallFieldFailure (h : Nat)
  /-- INPUT_POWER_APPLIED (R371) -/
  | inputPowerApplied
  /-- POWER_UP_AFTER_POWER_DOWN (R373) -/
  | powerUpAfterPowerDown
  /-- PFC_PAUSE_EXPIRY (R315) -/
  | pfcPauseExpiry (x : Nat) (k : Nat)
  /-- RNR_RETRY_TIMER (R318) -/
  | rnrRetryTimer (n : Nat)
  /-- ENTDAA (R354) -/
  | entdaa (addr : Nat)
  /-- SETDASA (R354) -/
  | setdasa (addr : Nat)
deriving DecidableEq, Repr

end Sys2Proof
end

