-- ==== Sys2Proof/Machine/FrameCode.lean ====
section
/-! DEFINITION. Inline error correction of the stacks (spec 08_global_memory.md, R224–R228): RS(72,64) over GF(2⁸), the poison
marker, and the interleave hash. -/

namespace Sys2Proof.Machine

/-! The field (R225): x⁸ + x⁴ + x³ + x² + 1, α = 2. -/

/-- a · b, by shifting b; `k` bits of b are left. -/
def gfMulAux : Nat → Nat → Nat → Nat → Nat
  | 0, _, _, acc => acc
  | k + 1, a, b, acc => gfMulAux k (if a < 128 then 2 * a else (2 * a) ^^^ 0x11D) (b / 2) (if b % 2 = 1 then acc ^^^ a else acc)
def gfMul (a b : Nat) : Nat := gfMulAux 8 a b 0
def gfPow (a : Nat) : Nat → Nat
  | 0 => 1
  | k + 1 => gfMul a (gfPow a k)
/-- The inverse of a non-zero element. -/
def gfInv (a : Nat) : Nat := gfPow a 254
/-- A polynomial, constant term first, at x. -/
def gfEval (l : List Nat) (x : Nat) : Nat := l.foldr (fun c a => c ^^^ gfMul x a) 0
/-- Sum of two polynomials. -/
def gfAdd : List Nat → List Nat → List Nat
  | [], l => l
  | l, [] => l
  | a :: l, b :: m => (a ^^^ b) :: gfAdd l m
def gfScale (c : Nat) (l : List Nat) : List Nat := l.map (gfMul c)
/-- Product of two polynomials. -/
def gfPolyMul : List Nat → List Nat → List Nat
  | [], _ => []
  | a :: l, m => gfAdd (gfScale a m) (0 :: gfPolyMul l m)

/-! The code word (R225): bytes 0–63 are data, 64–71 check; byte i is the coefficient of x^(71 − i). -/

/-- g(x) = (x + α⁰)…(x + α⁷), constant term first. -/
def rsGen : List Nat := (List.range 8).foldl (fun g i => gfPolyMul g [gfPow 2 i, 1]) [1]

/-- One data byte through the remainder register `r`, whose first entry is the coefficient of x⁷. -/
def rsStep (r : List Nat) (b : Nat) : List Nat :=
  let f := b ^^^ r.headD 0
  gfAdd (r.drop 1 ++ [0]) (gfScale f ((rsGen.take 8).reverse))
/-- The 8 check bytes of 64 data bytes: check byte k is the coefficient of x^(7 − k). -/
def rsCheck (data : List Nat) : List Nat := data.foldl rsStep (List.replicate 8 0)

/-- The syndromes S_0 to S_7 of a received word of 72 bytes. -/
def rsSyndromes (w : List Nat) : List Nat := (List.range 8).map (fun i => w.foldl (fun a b => gfMul a (gfPow 2 i) ^^^ b) 0)

/-- The state of the search for the error locator: C, B, L, m, b. -/
structure RsSearch where
  c : List Nat
  b : List Nat
  len : Nat
  m : Nat
  d : Nat
deriving DecidableEq, Repr

def rsSearchStep (syn : List Nat) (q : RsSearch) (n : Nat) : RsSearch :=
  let d := (List.range (q.len + 1)).foldl (fun a i => a ^^^ gfMul (q.c[i]?.getD 0) (if i ≤ n then syn[n - i]?.getD 0 else 0)) 0
  if d = 0 then { q with m := q.m + 1 }
  else
    let c := gfAdd q.c (List.replicate q.m 0 ++ gfScale (gfMul d (gfInv q.d)) q.b)
    if 2 * q.len ≤ n then ⟨c, q.c, n + 1 - q.len, 1, d⟩ else ⟨c, q.b, q.len, q.m + 1, q.d⟩

/-- The error locator of a syndrome list, with its length. -/
def rsLocator (syn : List Nat) : List Nat × Nat :=
  let q := (List.range 8).foldl (rsSearchStep syn) ⟨[1], [1], 0, 1, 1⟩
  (q.c, q.len)

/-- The value to add at exponent e of the word, from the locator and the syndromes. -/
def rsMagnitude (syn loc : List Nat) (e : Nat) : Nat :=
  let x := gfPow 2 e
  let xi := gfInv x
  let omega := (gfPolyMul syn loc).take 8
  let deriv := (loc.zipIdx.drop 1).map (fun p => if p.2 % 2 = 1 then p.1 else 0)
  gfMul x (gfMul (gfEval omega xi) (gfInv (gfEval deriv xi)))

/-- The code word within 4 bytes of a received word, if there is one (R226, step 3). -/
def rsCorrect (w : List Nat) : Option (List Nat) :=
  let syn := rsSyndromes w
  let loc := rsLocator syn
  let w' := w.zipIdx.map (fun p =>
    let e := 71 - p.2
    if gfEval loc.1 (gfInv (gfPow 2 e)) = 0 then p.1 ^^^ rsMagnitude syn loc.1 e else p.1)
  let changed := ((w.zip w').filter (fun p => p.1 != p.2)).length
  if loc.2 ≤ 4 ∧ changed ≤ 4 ∧ (rsSyndromes w').all (· == 0) then some w' else none

/-! A stored frame line: data in bits [511:0], check bytes in bits [575:512], each byte 0 lowest. -/

/-- The 72 bytes of a stored line. -/
def frameBytes (v : FrameLine) : List Nat := (List.range 72).map (fun i => v.toNat / 2 ^ (8 * i) % 256)
/-- A stored line from 72 bytes. -/
def frameOfBytes (l : List Nat) : FrameLine := BitVec.ofNat 576 (l.foldr (fun b a => b + 256 * a) 0)
/-- A line with fresh check bytes; poisoned data stores the marker (R226). -/
def frameStore (data : Nat) (poison : Bool) : FrameLine :=
  if poison then BitVec.ofNat 576 (0xFFFFFFFFFFFFFFFF * 2 ^ 512)
  else
    let d := (List.range 64).map (fun i => data / 2 ^ (8 * i) % 256)
    frameOfBytes (d ++ rsCheck d)

/-- What a controller finds in a stored line (R226). -/
inductive FrameRead where
  | poison
  | clean (data : Nat)
  /-- corrected, with the bytes changed -/
  | corrected (data changed : Nat)
  | fresh
deriving DecidableEq, Repr

/-- Classify a stored line, in the order of R226. The zero line is a code word. -/
def frameClassify (v : FrameLine) : FrameRead :=
  if v = 0 then .clean 0
  else
    let w := frameBytes v
    let data := v.toNat % 2 ^ 512
    if data = 0 ∧ ((w.drop 64).filter (· != 255)).length ≤ 4 then .poison
    else if (rsSyndromes w).all (· == 0) then .clean data
    else match rsCorrect w with
      | some w' => .corrected ((frameOfBytes w').toNat % 2 ^ 512) ((w.zip w').filter (fun p => p.1 != p.2)).length
      | none => .fresh

/-! The interleave hash (R228). -/

/-- Data line l of frame f: stack, channel in the stack, channel byte of the line and of its check bytes. -/
def place (f l : Nat) : Nat × Nat × Nat × Nat :=
  let b := l / 1024 % 128
  let q := l / 256 % 4
  let r := l % 256
  let z := (b % 4) ^^^ (f % 4)
  let cq := if q = 0 then z ^^^ 2 else q ^^^ z
  let h := ((f % 256) ^^^ (f / 256 % 256) ^^^ (f / 65536 % 8 * 32) ^^^ (2 * b)) % 256
  let x := r ^^^ h
  let j0 := (List.range (b % 4)).foldl (fun j beta =>
    let zb := beta ^^^ (f % 4)
    if cq = zb ^^^ 2 then j + 2 else if cq ≠ zb then j + 1 else j) 0
  let j := if q = 2 then j0 + 1 else j0
  let g := 16 * f + b / 8 % 16
  let p := 4 * (b / 4 % 2) + j
  (x / 8, cq * 8 + x % 8, 576 * g + 64 * p, 576 * g + 512 + 8 * p)

end Sys2Proof.Machine
end

