-- ==== Sys2Proof/Config.lean ====
section
/-! DEFINITION. What the spec leaves free or fixes per module: constants and functions with no body. Nothing can
evaluate them, so a claim holds for every value of them. Each is named in a log entry under notes/assumptions. -/

namespace Sys2Proof.Config

/-- DEV.IDENT.STEPPING, "per silicon" (Table 1.8). -/
opaque stepping : Nat
/-- DEV.SERIAL, "per module" (Table 1.8). -/
opaque serial : Nat
/-- LINK.MAC.ADDR of a sub-port, "per module" (Table 12.9). -/
opaque macAddr : Nat → Nat → Nat
/-- The IP addresses of a sub-port (R312): port, sub-port and index (host ports by GID index; fabric ports 0 IPv4, 1 IPv6), and the UDP source port a host queue pair
sends from; no rule gives them. (DESIGN CHOICE, safe: log 196) -/
opaque ipAddr : Nat → Nat → Nat → Nat
opaque roceSport : Nat → Nat
/-- The level of PPS_IN and the measured REFCLK offset in units of 0.01 ppm at a time, which no row of the table tells (Table 15.8). (DESIGN CHOICE, safe: log 198) -/
opaque ppsLevel : Nat → Bool
opaque refclkPpm : Nat → Nat
/-- Counts that follow from timing alone, by register offset, unit and time: grants made by aging, cycles a unit crossbar grants, cycles that an exchange waits for
credits, pause frames sent (Tables 5.7, 6.10 and 12.9). (DESIGN CHOICE, safe: log 157) -/
opaque timingCount : Nat → Nat → Nat → Nat
/-- A fresh undefined value: the step applies it to the counter State.fresh. (DESIGN CHOICE, safe: log 7) -/
opaque undef : Nat → Nat
/-- The internal value, as (negative, numerator, exponent), of a function whose result R123 bounds but does not fix: by VX operation
code, result format and operand code as exact dyadic (negative, magnitude, exponent). (DESIGN CHOICE, safe: log 23) -/
opaque funcValue : Nat → Nat → Bool → Nat → Int → Bool × Nat × Int

/-- Bank H at a handler's entry: an undefined accumulator code, by counter and element (R107). (DESIGN CHOICE, safe: log 24) -/
opaque bankH : Nat → Nat → Nat

/-- AES-256-GCM encryption (R332): ciphertext and tag, by key, initialisation vector, additional data, payload length and payload. (DESIGN CHOICE, safe: log 91) -/
opaque gcmSeal : Nat → Nat → List Nat → Nat → Nat → Nat × Nat
/-- AES-256-GCM decryption (R332): the payload, none where authentication fails. -/
opaque gcmOpen : Nat → Nat → List Nat → Nat → Nat → Nat → Option Nat

/-- SHA-512 of bytes, as the number whose little-endian bytes are the digest (R357, R359, R362). (DESIGN CHOICE, safe: log 136) -/
opaque sha512 : List Nat → Nat
/-- ROOT_HASH of the security fuses (R357), as `sha512` gives a digest. (DESIGN CHOICE, unsafe: log 162) -/
opaque rootHash : Nat
/-- The key of a certificate that verifies under a root key (R357). -/
opaque certKey : List Nat → List Nat → Option (List Nat)
/-- RSASSA-PKCS1-v1_5 verification with SHA-512: key, message, signature (R357). -/
opaque rsaVerify : List Nat → List Nat → List Nat → Bool
/-- The device's signature over bytes with its identity key (R361, R362). -/
opaque rsaSign : List Nat → List Nat
/-- Certificate slot 0's chain (R361), as SPDM returns it: a chain has a first byte. -/
opaque certFirst : Nat
opaque certRest : List Nat
def certChain : List Nat := certFirst :: certRest
/-- The mask ROM, as measurement block 1 digests it (R359). -/
opaque maskRom : List Nat
/-- The bytes of the persistent-store configuration record, which no rule lays out, as block 9 digests it (R359). -/
opaque storeBytes : Nat → Nat → Nat → List (Nat × BitVec 64) → List Nat
/-- The image that slot A holds at reset: no rule gives its bytes. -/
opaque factoryImage : List Nat
/-- The endpoint UUID (R354), and the version of each supported standard that the endpoint reports, by MCTP message type or PLDM type (a PLDM version
with its checksum). -/
opaque uuid : Nat
opaque mctpVersion : Nat → Nat
opaque pldmVersion : Nat → Nat
/-- A byte of a PLDM or SPDM response that no rule gives, by its response and its place in it. -/
opaque openByte : Nat → Nat → Nat

end Sys2Proof.Config
end

