-- ==== Sys2Proof/Machine/Formats.lean ====
section
/-! DEFINITION. Number formats and rounding (spec 02_number_formats.md, R32–R53, R388): exact dyadic values,
decoding, the rounding function of R43 and its IEEE counterpart (R33), conversions, and quantising (R50). -/

namespace Sys2Proof.Machine

/-- Flag kinds as a bit mask: TILE.TSTAT in bits 0–4, TILE.IEEE_FLAGS in bits 5–9, TILE.VSTAT in bits 10–11 (Table 2.9). -/
def flINV : Nat := 1
def flNAN_IN : Nat := 2
def flOVF : Nat := 4
def flSAT : Nat := 8
def flCRUSH : Nat := 16
def flIV : Nat := 32
def flDZ : Nat := 64
def flOF : Nat := 128
def flUF : Nat := 256
def flIX : Nat := 512
def flEMPTY : Nat := 1024
def flRANGE : Nat := 2048

/-- Parameters of a floating-point format (Table 2.2): exponent and mantissa widths, bias, and whether it keeps
the IEEE layout's infinities, NaNs and −0 (R38). -/
structure Fp where
  eb : Nat
  mb : Nat
  bias : Nat
  ieee : Bool
deriving DecidableEq, Repr

/-- The floating-point parameters of a format code (Tables 2.1 and 2.2), `none` for an integer format or SCALE8. -/
def fpOf : Nat → Option Fp
  | 0 => some ⟨8, 23, 127, true⟩
  | 1 => some ⟨11, 52, 1023, true⟩
  | 2 => some ⟨8, 7, 127, true⟩
  | 3 => some ⟨5, 10, 15, true⟩
  | 4 => some ⟨4, 3, 7, false⟩
  | 5 => some ⟨5, 2, 15, true⟩
  | 6 => some ⟨3, 2, 3, false⟩
  | 7 => some ⟨2, 3, 1, false⟩
  | 8 => some ⟨2, 1, 1, false⟩
  | _ => none

def fmtFP32 : Nat := 0
def fmtFP64 : Nat := 1
def fmtBF16 : Nat := 2
def fmtF8E5 : Nat := 5
def fmtINT32 : Nat := 13
def fmtSCALE8 : Nat := 14

/-- Tensor FP32 (Table 2.2). -/
def fp32 : Fp := ⟨8, 23, 127, true⟩
def fp64 : Fp := ⟨11, 52, 1023, true⟩

/-- Element width in bits (Table 2.6). -/
def fmtBits (f : Nat) : Nat :=
  if f = 1 then 64 else if f = 0 || f = 13 then 32 else if f = 2 || f = 3 then 16
  else if f = 6 || f = 7 then 6 else if f = 8 || f = 11 || f = 12 then 4 else 8

/-- Elements per word (Table 2.6); FP64 holds 3 per word pair and is handled by `elemBits`. -/
def fmtPerWord (f : Nat) : Nat := 96 / fmtBits f

def isFloatFmt (f : Nat) : Bool := (fpOf f).isSome
def isIntFmt (f : Nat) : Bool := decide (9 ≤ f ∧ f ≤ 13)
/-- The formats that can carry block scales (R48). -/
def isBlockFmt (f : Nat) : Bool := decide (4 ≤ f ∧ f ≤ 8)
/-- An integer format's lowest and highest values (R40). -/
def intRange (f : Nat) : Int × Int :=
  if f = 9 then (-128, 127) else if f = 10 then (0, 255) else if f = 11 then (-8, 7) else if f = 12 then (0, 15)
  else (-2147483648, 2147483647)

/-- A decoded value: a NaN, a signed infinity, or the exact number (−1)^neg · m · 2^e; m = 0 is a signed zero. -/
inductive Val where
  | nan
  | inf (neg : Bool)
  | fin (neg : Bool) (m : Nat) (e : Int)
deriving DecidableEq, Repr

def Val.zero : Val := .fin false 0 0
def Val.one : Val := .fin false 1 0
def Val.isNan : Val → Bool
  | .nan => true
  | _ => false
def Val.isInf : Val → Bool
  | .inf _ => true
  | _ => false
def Val.isZero : Val → Bool
  | .fin _ 0 _ => true
  | _ => false
def Val.isFinite : Val → Bool
  | .fin _ _ _ => true
  | _ => false
/-- The sign bit of a value; a NaN counts as positive. -/
def Val.sign : Val → Bool
  | .nan => false
  | .inf n => n
  | .fin n _ _ => n
def Val.abs : Val → Val
  | .nan => .nan
  | .inf _ => .inf false
  | .fin _ m e => .fin false m e
def Val.neg : Val → Val
  | .nan => .nan
  | .inf n => .inf (!n)
  | .fin n m e => .fin (!n) m e
def Val.withSign (v : Val) (s : Bool) : Val :=
  match v with
  | .nan => .nan
  | .inf _ => .inf s
  | .fin _ m e => .fin s m e

/-- Multiply a value by 2^k. -/
def Val.scale (v : Val) (k : Int) : Val :=
  match v with
  | .fin n m e => .fin n m (e + k)
  | x => x

def Val.ofInt (x : Int) : Val := .fin (decide (x < 0)) x.natAbs 0

/-- floor(log2) of a non-zero magnitude m · 2^e. -/
def magLog (m : Nat) (e : Int) : Int := (Nat.log2 m : Int) + e

/-- m · 2^e rounded down to a multiple of 2^g, in units of 2^g. -/
def floorTo (m : Nat) (e g : Int) : Nat := if g ≤ e then m * 2 ^ (e - g).toNat else m / 2 ^ (g - e).toNat

/-- −1, 0 or 1 as |a| is below, equal to or above |b|, for m · 2^e magnitudes. -/
def magCmp (m : Nat) (e : Int) (m' : Nat) (e' : Int) : Ordering :=
  let g := min e e'
  compare (m * 2 ^ (e - g).toNat) (m' * 2 ^ (e' - g).toNat)

/-- The signed integer n·2^g units of a finite value at a common exponent g not above its own. -/
def signedAt (neg : Bool) (m : Nat) (e g : Int) : Int :=
  let x : Int := (m * 2 ^ (e - g).toNat : Nat)
  if neg then -x else x

/-- Exact sum of two finite values; an exact zero sum of opposite signs takes sign `zs`. -/
def addFin (zs : Bool) (n1 : Bool) (m1 : Nat) (e1 : Int) (n2 : Bool) (m2 : Nat) (e2 : Int) : Val :=
  let g := min e1 e2
  let x := signedAt n1 m1 e1 g + signedAt n2 m2 e2 g
  if x = 0 then .fin (if n1 = n2 then n1 else zs) 0 0 else .fin (decide (x < 0)) x.natAbs g

/-- Exact sum, with whether it is the invalid ∞ − ∞. -/
def Val.add (zs : Bool) (a b : Val) : Val × Bool :=
  match a, b with
  | .nan, _ => (.nan, false)
  | _, .nan => (.nan, false)
  | .inf x, .inf y => if x = y then (.inf x, false) else (.nan, true)
  | .inf x, _ => (.inf x, false)
  | _, .inf y => (.inf y, false)
  | .fin n1 m1 e1, .fin n2 m2 e2 => (addFin zs n1 m1 e1 n2 m2 e2, false)

/-- Exact product, with whether it is the invalid 0 · ∞. -/
def Val.mul (a b : Val) : Val × Bool :=
  match a, b with
  | .nan, _ => (.nan, false)
  | _, .nan => (.nan, false)
  | .inf x, .inf y => (.inf (x != y), false)
  | .inf x, .fin y m _ => if m = 0 then (.nan, true) else (.inf (x != y), false)
  | .fin y m _, .inf x => if m = 0 then (.nan, true) else (.inf (x != y), false)
  | .fin x m e, .fin y m' e' => (.fin (x != y) (m * m') (e + e'), false)

/-- Quotient of non-zero finite magnitudes with 160 fraction bits and a sticky last bit: exact for every rounding here,
which looks at no more than 76 bits and at whether anything is left. -/
def divMag (m : Nat) (e : Int) (m' : Nat) (e' : Int) : Nat × Int :=
  let sh := 160 + Nat.log2 m'
  let n := m * 2 ^ sh
  (n / m' * 2 + (if n % m' = 0 then 0 else 1), e - e' - (sh : Int) - 1)

/-- The quotient's kind of exception: 0 none, 1 invalid (0/0, ∞/∞), 2 division of a non-zero finite value by zero, 3 of an infinity. -/
def Val.div (a b : Val) : Val × Nat :=
  match a, b with
  | .nan, _ => (.nan, 0)
  | _, .nan => (.nan, 0)
  | .inf _, .inf _ => (.nan, 1)
  | .inf x, .fin y m _ => (.inf (x != y), if m = 0 then 3 else 0)
  | .fin x _ _, .inf y => (.fin (x != y) 0 0, 0)
  | .fin x m e, .fin y m' e' =>
    if m' = 0 then (if m = 0 then (.nan, 1) else (.inf (x != y), 2))
    else if m = 0 then (.fin (x != y) 0 0, 0)
    else let q := divMag m e m' e'; (.fin (x != y) q.1 q.2, 0)

/-- Integer square root by Newton steps with fuel. -/
def isqrtGo : Nat → Nat → Nat → Nat
  | 0, _, x => x
  | fuel + 1, n, x => let y := (x + n / x) / 2; if y < x then isqrtGo fuel n y else x
def isqrt (n : Nat) : Nat := if n = 0 then 0 else isqrtGo (Nat.log2 n + 2) n (2 ^ (Nat.log2 n / 2 + 1))

/-- Square root with over 160 bits and a sticky last bit, and whether it is invalid (a negative non-zero operand). -/
def Val.sqrt (a : Val) : Val × Bool :=
  match a with
  | .nan => (.nan, false)
  | .inf n => if n then (.nan, true) else (.inf false, false)
  | .fin n m e =>
    if m = 0 then (.fin n 0 0, false) else if n then (.nan, true)
    else
      let odd : Nat := if e % 2 = 0 then 0 else 1
      let m' := m * 2 ^ (odd + 320)
      let r := isqrt m'
      (.fin false (r * 2 + (if r * r = m' then 0 else 1)) ((e - (odd : Int) - 320) / 2 - 1), false)

/-- Order of two non-NaN values: −0 = +0. -/
def Val.cmp (a b : Val) : Ordering :=
  match a, b with
  | .inf x, .inf y => if x = y then .eq else if x then .lt else .gt
  | .inf x, _ => if x then .lt else .gt
  | _, .inf y => if y then .gt else .lt
  | .fin n1 m1 e1, .fin n2 m2 e2 => let g := min e1 e2; compare (signedAt n1 m1 e1 g) (signedAt n2 m2 e2 g)
  | _, _ => .eq

/-! Codes. -/

/-- Largest finite exponent field (R36). -/
def Fp.maxE (F : Fp) : Nat := if F.ieee then 2 ^ F.eb - 2 else 2 ^ F.eb - 1
def Fp.signBit (F : Fp) : Nat := 2 ^ (F.eb + F.mb)
/-- The canonical NaN (Table 2.2). -/
def Fp.nanCode (F : Fp) : Nat := if F.ieee then (2 ^ F.eb - 1) * 2 ^ F.mb + 2 ^ (F.mb - 1) else F.signBit
def Fp.infCode (F : Fp) (neg : Bool) : Nat := (if neg then F.signBit else 0) + (2 ^ F.eb - 1) * 2 ^ F.mb
/-- The largest finite value's code, with a sign. -/
def Fp.maxCode (F : Fp) (neg : Bool) : Nat := (if neg then F.signBit else 0) + F.maxE * 2 ^ F.mb + (2 ^ F.mb - 1)
/-- A signed zero; +0 where the format has no −0 (R38). -/
def Fp.zeroCode (F : Fp) (neg : Bool) : Nat := if neg && F.ieee then F.signBit else 0
/-- The largest finite value as m · 2^e. -/
def Fp.maxMag (F : Fp) : Nat × Int := (2 ^ (F.mb + 1) - 1, (F.maxE : Int) - F.bias - F.mb)
/-- The exponent of the smallest normal (Table 2.2). -/
def Fp.emin (F : Fp) : Int := 1 - (F.bias : Int)

/-- Decode a code. With `sub` an exponent-zero code keeps its exact value (IEEE domain, MX load); without, it
reads as a zero of its sign, +0 where the format has no −0 (R37). -/
def Fp.decode (F : Fp) (sub : Bool) (code : Nat) : Val :=
  let neg := code / F.signBit % 2 = 1
  let E := code / 2 ^ F.mb % 2 ^ F.eb
  let M := code % 2 ^ F.mb
  if F.ieee && E == 2 ^ F.eb - 1 then (if M = 0 then .inf neg else .nan)
  else if !F.ieee && code == F.signBit then .nan
  else if E = 0 then (if sub && M != 0 then .fin neg M (F.emin - F.mb) else .fin (neg && F.ieee) 0 0)
  else .fin neg (2 ^ F.mb + M) ((E : Int) - F.bias - F.mb)

/-- A code that is a NaN of an IEEE layout with the top mantissa bit clear signals; the single NaN of the formats
without infinities never does (R388, CLASS). -/
def Fp.isSignalling (F : Fp) (code : Nat) : Bool :=
  F.ieee && (code / 2 ^ F.mb % 2 ^ F.eb == 2 ^ F.eb - 1) && (code % 2 ^ F.mb != 0) && (code / 2 ^ (F.mb - 1) % 2 == 0)

/-- Two's complement or unsigned decoding of an integer format (R40). -/
def intDecode (f code : Nat) : Int :=
  let b := fmtBits f
  let c := code % 2 ^ b
  if f = 10 || f = 12 then (c : Int) else if c < 2 ^ (b - 1) then (c : Int) else (c : Int) - 2 ^ b
def intEncode (f : Nat) (x : Int) : Nat := (x % 2 ^ fmtBits f).toNat

/-- SCALE8 (R40): 2^(s − 127), 0xFF is NaN. -/
def scale8Decode (s : Nat) : Val := if s % 256 = 255 then .nan else .fin false 1 ((s % 256 : Nat) - 127 : Int)

/-- Decode a code of any format. -/
def decodeFmt (f : Nat) (sub : Bool) (code : Nat) : Val :=
  match fpOf f with
  | some F => F.decode sub code
  | none => if f = 14 then scale8Decode code else .ofInt (intDecode f code)

/-! Rounding. -/

/-- The rounding decision of R43 for a discarded fraction d/u with d = rem / 2^sh of a unit: whether the magnitude
goes up. Modes: 0 RNE, 1 RZ, 2 RU, 3 RD, 4 SR, 5 RNA (Table 2.7); `r23` are the random bits r[63:41]. -/
def roundUp (mode : Nat) (neg : Bool) (lo rem sh r23 : Nat) : Bool :=
  if rem = 0 then false
  else if mode = 0 then decide (2 ^ sh < 2 * rem) || (decide (2 * rem = 2 ^ sh) && lo % 2 == 1)
  else if mode = 5 then decide (2 ^ sh ≤ 2 * rem)
  else if mode = 2 then !neg
  else if mode = 3 then neg
  else if mode = 4 then decide (2 ^ 23 ≤ rem * 2 ^ 23 / 2 ^ sh + r23)
  else false

/-- m · 2^e rounded to a multiple of 2^ue, as a count of 2^ue, and whether it was inexact. -/
def roundAt (mode : Nat) (neg : Bool) (m : Nat) (e ue : Int) (r23 : Nat) : Nat × Bool :=
  if ue ≤ e then (m * 2 ^ (e - ue).toNat, false)
  else
    let sh := (ue - e).toNat
    let lo := m / 2 ^ sh
    let rem := m % 2 ^ sh
    (if roundUp mode neg lo rem sh r23 then lo + 1 else lo, rem != 0)

/-- The code of a representable non-zero magnitude n · 2^ue with n ≤ 2^(mb+1), exponent field by its own exponent;
with n below 2^mb at the lowest exponent it is a subnormal code. -/
def Fp.pack (F : Fp) (neg : Bool) (n : Nat) (ue : Int) : Nat :=
  let s := if neg then F.signBit else 0
  let (n, ue) := if 2 ^ (F.mb + 1) ≤ n then (n / 2, ue + 1) else (n, ue)
  if n < 2 ^ F.mb then s + n
  else s + (ue + F.mb + F.bias).toNat * 2 ^ F.mb + (n - 2 ^ F.mb)

/-- An overflowing result (R46): the delivered code and its flags. -/
def Fp.overflow (F : Fp) (mode : Nat) (ovfNan neg : Bool) : Nat × Nat :=
  if F.ieee then
    if mode = 1 || (mode = 2 && neg) || (mode = 3 && !neg) then (F.maxCode neg, flOVF + flSAT) else (F.infCode neg, flOVF)
  else if ovfNan then (F.nanCode, flOVF)
  else (F.maxCode neg, flOVF + flSAT)

/-- `round_to` of R43 with R46 and the flush of R37: a finite exact value to a code and its flags. -/
def Fp.roundT (F : Fp) (mode : Nat) (ovfNan : Bool) (r23 : Nat) (neg : Bool) (m : Nat) (e : Int) : Nat × Nat :=
  if m = 0 then (F.zeroCode neg, 0)
  else
    let ue := magLog m e - F.mb
    let n := (roundAt mode neg m e ue r23).1
    if magCmp n ue F.maxMag.1 F.maxMag.2 = .gt then F.overflow mode ovfNan neg
    else if magCmp n ue 1 F.emin = .lt then (F.zeroCode neg, 0)
    else (F.pack neg n ue, 0)

/-- IEEE rounding with kept subnormals and tininess after rounding (R33): code and flags OF, UF, IX. -/
def Fp.roundI (F : Fp) (mode : Nat) (neg : Bool) (m : Nat) (e : Int) : Nat × Nat :=
  if m = 0 then (F.zeroCode neg, 0)
  else
    let un := magLog m e - F.mb
    let ue := max un (F.emin - F.mb)
    let (n, inexact) := roundAt mode neg m e ue 0
    let tiny := magCmp (roundAt mode neg m e un 0).1 un 1 F.emin = .lt
    if magCmp n ue F.maxMag.1 F.maxMag.2 = .gt then
      (if mode = 1 || (mode = 2 && neg) || (mode = 3 && !neg) then F.maxCode neg else F.infCode neg, flOF + flIX)
    else (if n = 0 then F.zeroCode neg else F.pack neg n ue, (if inexact then flIX else 0) + (if inexact && tiny then flUF else 0))

/-- The integer nearest m · 2^e in a rounding mode, of unbounded range (R47). -/
def roundInt (mode : Nat) (r23 : Nat) (neg : Bool) (m : Nat) (e : Int) : Int × Bool :=
  let (n, inexact) := roundAt mode neg m e 0 r23
  (if neg then -(n : Int) else n, inexact)

/-! Stochastic rounding bits (R44). -/

def mix64 (z : BitVec 64) : BitVec 64 :=
  let z := (z ^^^ (z >>> 30)) * 0xBF58476D1CE4E5B9#64
  let z := (z ^^^ (z >>> 27)) * 0x94D049BB133111EB#64
  z ^^^ (z >>> 31)

/-- `srbits` of R44. -/
def srbits (seed : BitVec 64) (ctx lt q e : Nat) : BitVec 64 :=
  let x := seed ^^^ (BitVec.ofNat 64 (ctx % 2) <<< 63) ^^^ (BitVec.ofNat 64 lt <<< 48) ^^^
    (BitVec.ofNat 64 (q % 2 ^ 28) <<< 20) ^^^ BitVec.ofNat 64 (e % 2 ^ 20)
  mix64 (mix64 x ^^^ 0x9E3779B97F4A7C15#64)

/-- What an instruction's conversions round with: mode, overflow policy (R45) and the SR arguments of R44. -/
structure RoundCtx where
  mode : Nat
  ovfNan : Bool
  seed : BitVec 64
  ctx : Nat
  lt : Nat
  q : Nat
deriving DecidableEq, Repr

/-- r[63:41] for output element `e`; needed only by SR. -/
def RoundCtx.r23 (rc : RoundCtx) (e : Nat) : Nat :=
  if rc.mode = 4 then (srbits rc.seed rc.ctx rc.lt rc.q e).toNat / 2 ^ 41 else 0

/-- The largest integer of a format, or the smallest. -/
def intEnd (f : Nat) (neg : Bool) : Int := if neg then (intRange f).1 else (intRange f).2

/-- Tensor-domain conversion of an exact value to a format (R43, R46, R47): the code and the flags it raises
beside the NAN_IN of reading a NaN operand. `e` is the output element's index. -/
def convT (rc : RoundCtx) (f e : Nat) (v : Val) : Nat × Nat :=
  match fpOf f with
  | some F =>
    match v with
    | .nan => (F.nanCode, 0)
    | .inf n => if F.ieee then (F.infCode n, 0) else F.overflow rc.mode rc.ovfNan n
    | .fin n m x => F.roundT rc.mode rc.ovfNan (rc.r23 e) n m x
  | none =>
    if f = 14 then
      match v with
      | .nan => (255, flINV)
      | .inf _ => (255, flINV)
      | .fin n m x =>
        if m = 0 then (0, 0) else if n then (255, flINV)
        else ((max 0 (min 254 (127 + magLog m x))).toNat, 0)
    else
      match v with
      | .nan => (0, flINV)
      | .inf n => (intEncode f (intEnd f n), flOVF + flSAT)
      | .fin n m x =>
        let k := (roundInt rc.mode (rc.r23 e) n m x).1
        if k < (intRange f).1 then (intEncode f (intRange f).1, flOVF + flSAT)
        else if (intRange f).2 < k then (intEncode f (intRange f).2, flOVF + flSAT)
        else (intEncode f k, 0)

/-- IEEE-domain delivery of an exact value in FP32, FP64 or INT32 (R33, R47). A NaN is the canonical quiet NaN. -/
def convI (mode f : Nat) (v : Val) : Nat × Nat :=
  match fpOf f with
  | some F =>
    match v with
    | .nan => (F.nanCode, 0)
    | .inf n => (F.infCode n, 0)
    | .fin n m x => F.roundI mode n m x
  | none =>
    match v with
    | .nan => (0, flIV)
    | .inf n => (intEncode f (intEnd f n), flIV)
    | .fin n m x =>
      let (k, inexact) := roundInt mode 0 n m x
      if k < (intRange f).1 then (intEncode f (intRange f).1, flIV)
      else if (intRange f).2 < k then (intEncode f (intRange f).2, flIV)
      else (intEncode f k, if inexact then flIX else 0)

/-! Quantising (R50). -/

/-- The smallest k with m · 2^e ≤ MAXF · 2^k. -/
def quantK (F : Fp) (m : Nat) (e : Int) : Int :=
  let k := magLog m e - magLog F.maxMag.1 F.maxMag.2
  if magCmp m e F.maxMag.1 (F.maxMag.2 + k) = .gt then k + 1 else k

/-- The largest finite magnitude of a list, `none` where no element is finite. -/
def amaxOf : List Val → Option (Nat × Int)
  | [] => none
  | .fin _ m e :: rest =>
    match amaxOf rest with
    | none => some (m, e)
    | some (m', e') => if m' = 0 then some (m, e) else if m = 0 then some (m', e')
                       else if magCmp m e m' e' = .lt then some (m', e') else some (m, e)
  | _ :: rest => amaxOf rest

/-- The scale byte R50 gives a block. -/
def quantScale (F : Fp) (xs : List Val) : Nat :=
  match amaxOf xs with
  | none => 0x7F
  | some (m, e) => if m = 0 then 0 else (max 0 (min 0xFE (127 + quantK F m e))).toNat

/-- One element of R50's second loop: its code, its flags and whether it was crushed. `nanFlag` is the flag a NaN
element sets: NAN_IN, or none for an accumulator read by drain (R53). -/
def quantElem (F : Fp) (rc : RoundCtx) (s : Nat) (nanFlag e : Nat) (x : Val) : Nat × Nat × Nat :=
  match x with
  | .nan => (F.nanCode, nanFlag, 0)
  | .inf n => if F.ieee then (F.infCode n, 0, 0) else let r := F.overflow rc.mode rc.ovfNan n; (r.1, r.2, 0)
  | .fin n m ex =>
    let r := F.roundT rc.mode rc.ovfNan (rc.r23 e) n m (ex + 127 - s)
    if m != 0 && r.1 % F.signBit == 0 && r.1 != F.nanCode then (r.1, r.2 ||| flCRUSH, 1) else (r.1, r.2, 0)

/-- Quantise a block whose element 0 has output index e0 (R50): the scale byte, then per element the code, the flags
and the number crushed (0 or 1). -/
def quantise (F : Fp) (rc : RoundCtx) (nanFlag e0 : Nat) (xs : List Val) : Nat × List (Nat × Nat × Nat) :=
  let s := quantScale F xs
  (s, xs.zipIdx.map (fun p => quantElem F rc s nanFlag (e0 + p.2) p.1))

/-- A block element's value (R49): scale 0xFF makes it NaN. -/
def scaleVal (v : Val) (s : Nat) : Val := if s = 255 then .nan else v.scale ((s : Int) - 127)

/-! Matrix accumulation (R51, R52). -/

/-- `kstep` of R51 over the exact terms: `acc`, then the products; `anyNan` says some operand, scale or the
accumulator was NaN. The result is a tensor-FP32 code and its flags. -/
def kstepFloat (acc : Val) (prods : List (Val × Bool)) (anyNan : Bool) : Nat × Nat :=
  let ts := acc :: prods.map (·.1)
  if ts.any Val.isNan || (ts.any (· == .inf false) && ts.any (· == .inf true)) then
    (fp32.nanCode, if anyNan then 0 else flINV)
  else if ts.any (· == .inf false) then (fp32.infCode false, 0)
  else if ts.any (· == .inf true) then (fp32.infCode true, 0)
  else if ts.all Val.isZero then (0, 0)
  else
    let logs := ts.filterMap (fun t => match t with | .fin _ m e => if m = 0 then none else some (magLog m e) | _ => none)
    let emax := logs.foldl max (logs.headD 0)
    let sum : Int := ts.foldl (fun a t => match t with
      | .fin n m e => let x : Int := (floorTo m e (emax - 27) : Nat); a + (if n then -x else x)
      | _ => a) 0
    fp32.roundT 0 false 0 (decide (sum < 0)) sum.natAbs (emax - 27)

/-- The integer K-step of R52: wrapping INT32 sums in order, OVF on each addition that wraps. -/
def kstepInt (acc : Int) (prods : List Int) : Int × Nat :=
  prods.foldl (fun (a, fl) p =>
    let x := a + p
    if x < -2147483648 || 2147483647 < x then (intDecode 13 (intEncode 13 x), fl ||| flOVF) else (x, fl)) (acc, 0)

/-- The routers' and the collective engine's binary32 addition (R22, R34): nearest even, subnormals kept, canonical NaN. -/
def routerAdd32 (a b : Nat) : Nat :=
  let r := Val.add false (fp32.decode true a) (fp32.decode true b)
  (convI 0 0 r.1).1

end Sys2Proof.Machine
end

