-- ==== Sys2Proof/Machine/Functions.lean ====
section
/-! DEFINITION. The functions whose results the spec bounds and does not fix (spec 04_compute_engines.md, R123, Table 4.8): a function's value to over
a hundred bits beyond every format, computed in integers scaled by a power of two, and the free internal value held within the bound of its exact
result. -/

namespace Sys2Proof.Machine

/-! Series on integers at scale 2^−P. -/

/-- The sum of a series from its term n on, up to the first term that is zero; `next n t` is the term after t. -/
def serSum (next : Nat → Int → Int) : Nat → Nat → Int → Int → Int
  | 0, _, _, acc => acc
  | k + 1, n, t, acc => if t = 0 then acc else serSum next k (n + 1) (next n t) (acc + t)
/-- Σ s^n y^(2n+1) / (2n+1) for y = t · 2^−P, with s = 1 (artanh) or −1 (arctan). -/
def oddSum (P : Nat) (s : Int) : Nat → Nat → Int → Int → Int → Int
  | 0, _, _, _, acc => acc
  | k + 1, n, y2, t, acc => if t = 0 then acc else oddSum P s k (n + 1) y2 (s * (t * y2 / 2 ^ P)) (acc + t / (2 * n + 1 : Nat))
def atanhAt (P : Nat) (t : Int) : Int := oddSum P 1 (P + 8) 0 (t * t / 2 ^ P) t 0
def atanAt (P : Nat) (t : Int) : Int := oddSum P (-1) (P + 8) 0 (t * t / 2 ^ P) t 0
def ln2At (P : Nat) : Int := 2 * atanhAt P (2 ^ P / 3)
def piAt (P : Nat) : Int := 16 * atanAt P (2 ^ P / 5) - 4 * atanAt P (2 ^ P / 239)

/-- The scale of every value but the argument of SIN and COS, which is reduced at `trigScale`. -/
def fnScale : Nat := 640
def trigScale : Nat := 2600

/-- A magnitude with a sign: (negative, m, e) is ± m · 2^e. -/
abbrev Mag := Bool × Nat × Int
def ofScaled (x e : Int) : Mag := (decide (x < 0), x.natAbs, e)
/-- Values beyond every format's range, and below it. -/
def hugeMag : Mag := (false, 1, 20000)
def tinyMag : Mag := (false, 1, -20000)
/-- m · 2^e less a difference that no format shows. -/
def justBelow (m : Nat) (e : Int) : Mag := (false, m * 2 ^ 700 - 1, e - 700)

/-- e^x for x at scale fnScale. -/
def expAt (x : Int) : Nat × Int :=
  let k := x / ln2At fnScale
  let r := x - k * ln2At fnScale
  ((serSum (fun n t => t * r / 2 ^ fnScale / (n + 1 : Nat)) 2000 0 (2 ^ fnScale) 0).natAbs, k - fnScale)
/-- e^−x at scale fnScale for x ≥ 0, at least one unit. -/
def expNeg (x : Int) : Int := let r := expAt (-x); max 1 (floorTo r.1 r.2 (-fnScale) : Nat)
/-- sin x and cos x for x at scale fnScale in [0, π/2). -/
def sinAt (x : Int) : Int := serSum (fun n t => -(t * x / 2 ^ fnScale * x / 2 ^ fnScale) / ((2 * n + 2) * (2 * n + 3) : Nat)) 2000 0 x 0
def cosAt (x : Int) : Int := serSum (fun n t => -(t * x / 2 ^ fnScale * x / 2 ^ fnScale) / ((2 * n + 1) * (2 * n + 2) : Nat)) 2000 0 (2 ^ fnScale) 0
/-- √(x · 2^−P) at scale P. -/
def sqrtAt (x : Nat) : Nat := isqrt (x * 2 ^ fnScale)
/-- erf y for y ≥ 0 at scale fnScale. -/
def erfAt (y : Int) : Int :=
  let s := serSum (fun n t => -(t * y / 2 ^ fnScale * y / 2 ^ fnScale) * (2 * n + 1 : Nat) / ((n + 1) * (2 * n + 3) : Nat)) 4000 0 y 0
  2 * s * 2 ^ fnScale / (sqrtAt (piAt fnScale).natAbs : Nat)
/-- 1 ÷ (1 + e^−x) for x ≥ 0 at scale fnScale. -/
def sigAt (x : Int) : Int := 2 ^ (2 * fnScale) / (2 ^ fnScale + expNeg x)
/-- ln(m · 2^e) at scale fnScale. -/
def lnAt (m : Nat) (e : Int) : Int :=
  let l := Nat.log2 m
  let l := if 3 * 2 ^ l ≤ 2 * m then l + 1 else l
  let d : Int := (m : Int) - 2 ^ l
  2 * atanhAt fnScale (d * 2 ^ fnScale / (m + 2 ^ l : Nat)) + ((l : Int) + e) * ln2At fnScale

/-- sin (`co` false) or cos of m · 2^e, with the argument reduced by quarter turns. -/
def trigAt (co : Bool) (neg : Bool) (m : Nat) (e : Int) : Mag :=
  let x : Nat := floorTo m e (-trigScale)
  let h := (piAt trigScale).natAbs / 2
  let q := (x / h + (if co then 1 else 0)) % 4
  let r : Int := (x % h / 2 ^ (trigScale - fnScale) : Nat)
  let v := if q % 2 = 0 then sinAt r else cosAt r
  let v := if 2 ≤ q then -v else v
  ofScaled (if neg && !co then -v else v) (-fnScale)

/-- The value of an operation of Table 4.8 at a finite non-zero operand, to a relative error below 2^−150. (DEDUCED, unsafe: log 160) -/
def fnApprox (opc : Nat) (neg : Bool) (m : Nat) (e : Int) : Mag :=
  let lg := magLog m e
  let x : Int := (floorTo m e (-fnScale) : Nat)
  let signed := fun (v : Int) => ofScaled (if neg then -v else v) (-fnScale)
  match opc with
  | 0x08 =>
    let odd : Nat := if e % 2 = 0 then 0 else 1
    (false, isqrt (2 ^ (2 * fnScale) / (m * 2 ^ odd)), -(e - (odd : Int)) / 2 - fnScale)
  | 0x13 | 0x14 =>
    if 13 ≤ lg then (if neg then tinyMag else hugeMag)
    else
      let y := if opc = 0x13 then x else x * ln2At fnScale / 2 ^ fnScale
      let r := expAt (if neg then -y else y)
      (false, r.1, r.2)
  | 0x15 => ofScaled (lnAt m e) (-fnScale)
  | 0x16 => ofScaled (lnAt m e * 2 ^ fnScale / ln2At fnScale) (-fnScale)
  | 0x17 =>
    if lg < -200 then (neg, m, e)
    else if 13 ≤ lg then (neg, (justBelow 1 0).2)
    else let q := expNeg (2 * x); signed ((2 ^ fnScale - q) * 2 ^ fnScale / (2 ^ fnScale + q))
  | 0x18 =>
    if 13 ≤ lg then (if neg then tinyMag else justBelow 1 0)
    else if neg then let r := expAt (-x); (false, r.1 * (sigAt x).natAbs, r.2 - fnScale)
    else ofScaled (sigAt x) (-fnScale)
  | 0x19 =>
    if lg < -200 then (neg, m * 2 ^ (2 * fnScale + 1) / sqrtAt (piAt fnScale).natAbs, e - fnScale)
    else if 4 ≤ lg then (neg, (justBelow 1 0).2)
    else signed (erfAt x)
  | 0x1A =>
    if lg < -200 then (neg, m, e - 1)
    else if 4 ≤ lg then (if neg then (true, tinyMag.2) else justBelow m e)
    else
      let h := erfAt (x * 2 ^ fnScale / (isqrt (2 ^ (2 * fnScale + 1)) : Nat))
      let w := if neg then 2 ^ fnScale - h else 2 ^ fnScale + h
      (neg, m * w.natAbs, e - 1 - fnScale)
  | 0x1B =>
    if lg < -200 then (neg, m, e - 1)
    else if 13 ≤ lg then (if neg then (true, tinyMag.2) else justBelow m e)
    else if neg then let r := expAt (-x); (true, m * (r.1 * (sigAt x).natAbs), e + r.2 - fnScale)
    else (false, m * (sigAt x).natAbs, e - fnScale)
  | 0x1C => if lg < -200 then (neg, m, e) else trigAt false neg m e
  | _ => trigAt true neg m e

/-- The bound of Table 4.8, in ulps. -/
def fnUlps (opc : Nat) : Nat :=
  match opc with
  | 0x08 | 0x13 | 0x14 | 0x15 | 0x16 => 1
  | 0x1A | 0x1B => 3
  | _ => 2

/-- The range of the magnitude of a function's internal value, in units of 2^g: within its bound of the exact result, in ulps of FP64 or of FP32
(R123); under RNE between results that meet the bound; for a narrower format between the two of its values that bracket the exact result. It is not
zero. (DESIGN CHOICE, unsafe: log 161) -/
def fnRange (opc f mode : Nat) (m : Nat) (e g : Int) : Nat × Nat :=
  let G := if f = fmtFP64 then fp64 else fp32
  let u := 2 ^ (max (magLog m e - G.mb) (G.emin - G.mb) - g).toNat
  let a := m * 2 ^ (e - g).toNat
  let lo := a - fnUlps opc * u
  let hi := a + fnUlps opc * u
  let top := 2 ^ (max (magLog m e) G.emin + 1 - g).toNat
  let r := if mode = 0 then ((lo + u - 1) / u * u, let h := hi / u * u; if top ≤ h then hi / (2 * u) * (2 * u) else h) else (lo, hi)
  let r := if f = fmtFP64 ∨ f = fmtFP32 then r
    else match fpOf f with
      | some F => let w := 2 ^ (max (magLog m e - F.mb) (F.emin - F.mb) - g).toNat; (max r.1 (a / w * w), min r.2 ((a / w + 1) * w))
      | none => r
  (max 1 r.1, max 1 r.2)

/-- The internal value of a function whose result the spec bounds and does not fix (R123): a free value within the bound. -/
def funcFree (opc f mode : Nat) (neg : Bool) (m : Nat) (e : Int) : Val :=
  let a := fnApprox opc neg m e
  let v := Config.funcValue opc f neg m e
  let g := min (min a.2.2 v.2.2) (magLog a.2.1 a.2.2 - 60) - 2
  let g := min g (-1100)
  let r := fnRange opc f mode a.2.1 a.2.2 g
  let x := if v.1 = a.1 then v.2.1 * 2 ^ (v.2.2 - g).toNat else 0
  .fin a.1 (max r.1 (min x r.2)) g

end Sys2Proof.Machine
end

