-- ==== Sys2Proof/Machine/Sparse.lean ====
section
/-! DEFINITION. Sparse tables as plain lists in one canonical form: keys strictly rising, and no entry
equal to what an unlisted key reads as. Scratchpads, register files, frames and unit tables use them. -/

namespace Sys2Proof

/-- A table from natural-number keys to values, as a list of pairs. -/
abbrev Sparse (α : Type) := List (Nat × α)

/-- What key `k` reads as; `d` is what an unlisted key reads as. -/
def Sparse.get {α : Type} (d : α) : Sparse α → Nat → α
  | [], _ => d
  | (j, v) :: rest, k => if k = j then v else Sparse.get d rest k

/-- The table with key `k` removed. -/
def Sparse.erase {α : Type} : Sparse α → Nat → Sparse α
  | [], _ => []
  | (j, v) :: rest, k => if k = j then Sparse.erase rest k else (j, v) :: Sparse.erase rest k

/-- The table with `v` listed at key `k`, whatever `v` is. -/
def Sparse.insert {α : Type} : Sparse α → Nat → α → Sparse α
  | [], k, v => [(k, v)]
  | (j, w) :: rest, k, v =>
    if k = j then (k, v) :: rest else if k < j then (k, v) :: (j, w) :: rest else (j, w) :: Sparse.insert rest k v

/-- Write `v` at key `k`, keeping the canonical form: a value equal to the default is not listed. -/
def Sparse.put {α : Type} [DecidableEq α] (d : α) (m : Sparse α) (k : Nat) (v : α) : Sparse α :=
  if v = d then Sparse.erase m k else Sparse.insert m k v

/-- Apply `f` at key `k`. -/
def Sparse.upd {α : Type} [DecidableEq α] (d : α) (m : Sparse α) (k : Nat) (f : α → α) : Sparse α :=
  Sparse.put d m k (f (Sparse.get d m k))

/-- The keys rise strictly, and each lies above `lo` when it is given. -/
def Sparse.rising {α : Type} : Option Nat → Sparse α → Bool
  | _, [] => true
  | none, (j, _) :: rest => Sparse.rising (some j) rest
  | some i, (j, _) :: rest => decide (i < j) && Sparse.rising (some j) rest

/-- The canonical form: keys strictly rising, no entry equal to the default. -/
def Sparse.wf {α : Type} [DecidableEq α] (d : α) (m : Sparse α) : Bool :=
  Sparse.rising none m && m.all (fun e => decide (e.2 ≠ d))

/-- The listed entry at `k`, if any: for tables whose keys exist or not (partitions, queues, handles). -/
def Sparse.find? {α : Type} : Sparse α → Nat → Option α
  | [], _ => none
  | (j, v) :: rest, k => if k = j then some v else Sparse.find? rest k

/-- Whether key `k` is listed. -/
def Sparse.has {α : Type} (m : Sparse α) (k : Nat) : Bool := (Sparse.find? m k).isSome

/-- Apply `f` at key `k` if it is listed. -/
def Sparse.modify {α : Type} (m : Sparse α) (k : Nat) (f : α → α) : Sparse α :=
  m.map (fun e => if e.1 = k then (e.1, f e.2) else e)

/-- The table without the keys in [lo, hi). -/
def Sparse.dropRange {α : Type} (m : Sparse α) (lo hi : Nat) : Sparse α :=
  m.filter (fun e => decide (e.1 < lo) || decide (hi ≤ e.1))

/-- The lowest number from `k` upward that a list does not hold; `fuel` is the list's length. -/
def lowestFrom (l : List Nat) : Nat → Nat → Nat
  | 0, k => k
  | fuel + 1, k => if l.contains k then lowestFrom l fuel (k + 1) else k

/-- The lowest key from 0 below `n` that is not listed, if any. -/
def Sparse.lowestFree {α : Type} (m : Sparse α) (n : Nat) : Option Nat :=
  let k := lowestFrom (m.map (·.1)) m.length 0
  if k < n then some k else none

end Sys2Proof
end

