-- ==== Sys2Proof/Machine/Ecc.lean ====
section
/-! DEFINITION. The scratchpad's error code and poison marker (spec 05_scratchpad_alcoves_gallery.md, R140, R141,
R145, R156), which gallery lines and queue-pool cells share. -/

namespace Sys2Proof.Machine

/-- The columns H_0–H_95 of Table 5.1. -/
def eccCols : List Nat :=
  [0x07, 0x0B, 0x0D, 0x0E, 0x13, 0x15, 0x16, 0x19, 0x1A, 0x1C, 0x23, 0x25, 0x26, 0x29, 0x2A, 0x2C,
   0x31, 0x32, 0x34, 0x38, 0x43, 0x45, 0x46, 0x49, 0x4A, 0x4C, 0x51, 0x52, 0x54, 0x58, 0x61, 0x62] ++
  [0x64, 0x68, 0x70, 0x83, 0x85, 0x86, 0x89, 0x8A, 0x8C, 0x91, 0x92, 0x94, 0x98, 0xA1, 0xA2, 0xA4,
   0xA8, 0xB0, 0xC1, 0xC2, 0xC4, 0xC8, 0xD0, 0xE0, 0x1F, 0x2F, 0x37, 0x3B, 0x3D, 0x3E, 0x4F, 0x57] ++
  [0x5B, 0x5D, 0x5E, 0x67, 0x6B, 0x6D, 0x6E, 0x73, 0x75, 0x76, 0x79, 0x7A, 0x7C, 0x8F, 0x97, 0x9B,
   0x9D, 0x9E, 0xA7, 0xAB, 0xAD, 0xAE, 0xB3, 0xB5, 0xB6, 0xB9, 0xBA, 0xBC, 0xC7, 0xCB, 0xCD, 0xCE]

/-- The check bits of data bits from bit 0 upward against a list of columns (R140). -/
def eccFold : List Nat → Nat → Nat → Nat
  | [], _, acc => acc
  | h :: rest, d, acc => eccFold rest (d / 2) (if d % 2 = 1 then acc ^^^ h else acc)

/-- The 8 check bits of a data value (R140); 64-bit gallery units use the first 64 columns (R156). -/
def eccCheck (d : Nat) : Nat := eccFold eccCols d 0

/-- The data bit a syndrome names, if any. -/
def eccColIndex (syn : Nat) : Option Nat := (eccCols.zipIdx.find? (fun p => p.1 == syn)).map (·.2)

/-- What a read of a stored unit finds (R141). -/
inductive EccRead where
  | clean (d : Nat)
  | poison
  | corrected (d : Nat)
  | fresh
deriving DecidableEq, Repr

/-- Classify stored data and check bits (R141); `w` is the data width, 96 for a word and 64 for a gallery unit. -/
def eccClassify (w d chk : Nat) : EccRead :=
  let syn := chk ^^^ eccCheck d
  if syn = 0 then .clean d
  else if syn = 0xFF then .poison
  else if (List.range 8).any (fun k => syn == 2 ^ k) then .corrected d
  else
    match eccColIndex syn with
    | some i => if i < w then .corrected (d ^^^ 2 ^ i) else .fresh
    | none => .fresh

/-- The marker: zero data with check bits 0xFF (R145). -/
def poisonStored : Stored := 0xFF000000000000000000000000#104

/-- A clean word with fresh check bits. -/
def storeWord (d : Nat) : Stored := BitVec.ofNat 104 (d % 2 ^ 96 + eccCheck (d % 2 ^ 96) * 2 ^ 96)

/-- A word as a write stores it: data with fresh check bits, or the marker when poisoned (R145). -/
def storeVal (d : Nat) (poison : Bool) : Stored := if poison then poisonStored else storeWord d

/-- Classify a stored scratchpad word or queue-pool cell word. -/
def readStored (v : Stored) : EccRead := eccClassify 96 (v.toNat % 2 ^ 96) (v.toNat / 2 ^ 96)

/-- Unit u of a gallery line, classified (R156). -/
def galUnit (v : GalLine) (u : Nat) : EccRead :=
  eccClassify 64 (v.toNat / 2 ^ (72 * u) % 2 ^ 64) (v.toNat / 2 ^ (72 * u + 64) % 2 ^ 8)

/-- A gallery line from 64 bytes of data; a poisoned line has the marker in all 8 units (R156). -/
def galStore (d : Nat) (poison : Bool) : GalLine :=
  BitVec.ofNat 576 ((List.range 8).foldl (fun a u =>
    let x := if poison then 0 else d / 2 ^ (64 * u) % 2 ^ 64
    a + (x + (if poison then 0xFF else eccCheck x) * 2 ^ 64) * 2 ^ (72 * u)) 0)

end Sys2Proof.Machine
end

