-- ==== Sys2Proof/Machine/TileState.lean ====
section
/-! DEFINITION. The state of a tile and of a hall (spec 03–07): contexts, scoreboard, engine instructions,
accumulators, channels, gallery slots, queue pool and routers. Values that a control-space register shows and
nothing else holds are in the register file (Regs.lean). -/

namespace Sys2Proof.Machine

/-- Why a context does not issue (R71, R80, R85, R87, R90, R91, R93, R97, R149). -/
inductive Wait where
  /-- issuing -/
  | run
  /-- main: not launched; handler: disabled -/
  | off
  /-- handler context idle (R97) -/
  | idle
  /-- main context ended by HALT (R92) -/
  | ended
  /-- a scalar access or descriptor read held by a hazard (R85) -/
  | data
  /-- the engine instruction `word` at the pc waits to dispatch (R80): 0 a full queue, 1 scoreboard entries, 2 a held descriptor -/
  | dispatch (why word : Nat)
  /-- a fetch miss (R70): the line being filled -/
  | fill (line : Nat)
  /-- DRAIN (R91, R171): what follows is 0 LAND, 1 LAND.OPEN into register `sd`, 2 HALT; `before` is the first later instruction -/
  | drain (kind sd before : Nat)
  /-- HELD for a landing (R91) -/
  | held (landing : Nat)
  /-- FENCE (R90): engines, whether byte-space acknowledgements too, and the first later instruction -/
  | fence (mask : Nat) (acks : Bool) (before : Nat)
  /-- SEG on: waiting for the clears of these segments (R93) -/
  | segOn (mask : Nat)
  /-- SEG off: waiting until nothing names these segments (R93) -/
  | segOff (mask : Nat)
  /-- an ALC close, or an open that first closes, waiting for accepted accesses (R149); the descriptor to open after -/
  | alcClose (k : Nat) (reopen : Option Word)
deriving DecidableEq, Repr

/-- Per-context state of Table 3.1, with the moment its present wait began. -/
structure Ctx where
  pc : Nat
  vl : Nat
  srq : Nat
  preds : BitVec 8
  bank : Sparse Half
  wait : Wait
  since : Nat
deriving DecidableEq, Repr

/-- A scoreboard entry (R82); instructions are named by their dispatch numbers. -/
structure SbEntry where
  base : Nat
  limit : Nat
  writer : Option Nat
  readers : List Nat
deriving DecidableEq, Repr

/-- A region of an instruction: its range and whether it is written. -/
structure Region where
  base : Nat
  limit : Nat
  write : Bool
deriving DecidableEq, Repr

/-- Stages of a dispatched engine instruction. -/
inductive Stage where
  | queued | running | draining | sent
deriving DecidableEq, Repr

/-- A dispatched engine instruction that has not completed (R79, R80, R90). Engine: 0 matrix, 1 vector, 2 stream,
3 exchange, 4 message. (DEDUCED, unsafe: log 163) -/
structure EngInstr where
  id : Nat
  eng : Nat
  handler : Bool
  iaddr : Nat
  flight : Nat
  func : Nat
  desc : Nat
  vl : Nat
  srq : Nat
  cls : Nat
  stage : Stage
  /-- progress: K-steps done, next exchange entry, stream chunks done -/
  next : Nat
  /-- exchange: the receive side is complete (R180); stream: all of its writes have been issued -/
  recvDone : Bool
  /-- message: sequence number sent -/
  seq : Nat
  /-- moment of the present stage's start -/
  since : Nat
  /-- the seed and the overflow policy of its conversions, as they stood when it dispatched (R44, R45). -/
  seed : BitVec 64
  ovfNan : Bool
  /-- a stream descriptor's byte-space bounding ranges, as they stood when it started (R88) -/
  range : List (Nat × Nat)
deriving DecidableEq, Repr

/-- A word a drain is about to write: address, data, poison; with `byte`, only that byte of the word, which keeps its
others (R110, R145). -/
structure WordWrite where
  addr : Nat
  data : Nat
  poison : Bool
  byte : Option Nat
deriving DecidableEq, Repr

/-- A flag event's place (R55, Table 2.9). `pos` is the output row and lane of a vector event, which say when it arises (R116). -/
structure FlagEv where
  flags : Nat
  row : Nat
  col : Nat
  elem : Nat
  pos : Nat × Nat
deriving DecidableEq, Repr

/-- A drain between its last read and its last write (R112). -/
structure DrainJob where
  id : Nat
  words : List WordWrite
  events : List FlagEv
  crushed : Nat
  /-- cycles of it that ENG.MX_BUSY counts with K-steps or an earlier drain (R112, R135) -/
  overlap : Nat
deriving DecidableEq, Repr

/-- A line of byte space as data (64 bytes) and the poison of its eight 64-bit units, bit u for unit u. -/
structure LineVal where
  data : BitVec 512
  poison : Bool
deriving DecidableEq, Repr

/-- A line that a stream load asked for and was served. -/
structure LineResp where
  id : Nat
  addr : Nat
  line : LineVal
deriving DecidableEq, Repr

/-- A line write of a stream store: bytes where `mask` is set. `issued` once the stairwell has taken it, `acked` once acknowledged. -/
structure LineOut where
  id : Nat
  addr : Nat
  data : BitVec 512
  mask : BitVec 64
  poison : Bool
  issued : Bool
  /-- sent to a peer: its context and the WRITE's sequence number (R327) -/
  peer : Option (Nat × Nat)
  /-- held in the contribution area (R249) -/
  held : Bool
deriving DecidableEq, Repr

/-- An exchange entry awaiting acknowledgements (R183): how many it needs, none until the root router has said so, and how
many have come. -/
structure XcUnack where
  id : Nat
  entry : Nat
  need : Option Nat
  got : Nat
deriving DecidableEq, Repr

/-- A message header (Table 7.5). -/
structure MsgHdr where
  stile : Nat
  spart : Nat
  soutch : Nat
  inch : Nat
  off : Nat
  len : Nat
  sub : Nat
  cls : Nat
  wrap : Bool
  reply : Bool
  seq : Nat
  grant : Nat
  pair : Nat
  xdev : Bool
  peer : Nat
deriving DecidableEq, Repr

/-- Outbound channel state beyond CHO.CFG and CHO.STATE (R195–R204). -/
structure OutCh where
  pair : Nat
  rgrant : Nat
  outw : Nat
  seq : Nat
  /-- unacknowledged messages, oldest first: (sequence number, words, grant, instruction id) -/
  unacked : List (Nat × Nat × Nat × Nat)
  /-- unacknowledged WRAP markers: the sequence number of the message each precedes, and its pad -/
  pads : List (Nat × Nat)
  /-- the moment the head message began to wait for credits or reply space -/
  stall : Option Nat
  /-- the device tile at the other end, as it was found when the channel opened (R194); none for a peer context -/
  dest : Option Nat
deriving DecidableEq, Repr

/-- A message in a ring's order, accepted or refused (R202), until its words have returned and its handler has ended. -/
structure RingMsg where
  hdr : MsgHdr
  /-- the banister source its doorbell comes from -/
  src : Nat
  pad : Nat
  cell : Nat
  words : List (Nat × Bool)
  /-- the access accepted into an alcove that is still writing (R149) -/
  pid : Nat
  doorbell : Bool
  landed : Bool
  queued : Bool
  joined : Nat
  spilled : Bool
  /-- offered to the handler context -/
  offered : Bool
  /-- released for the return of its words (R202), and returned -/
  released : Bool
  returned : Bool
  /-- nothing of it remains but its words -/
  done : Bool
deriving DecidableEq, Repr

/-- A spill record in a channel's spill area (R211). -/
structure SpillRec where
  chan : Nat
  pid : Nat
  /-- whether it lies in the tile's default area -/
  dflt : Bool
  wg : Nat
  len : Nat
  copied : Bool
deriving DecidableEq, Repr

/-- Inbound channel state beyond CHI.CFG and CHI.STATE. -/
structure InCh where
  rspace : Nat
  padnext : Nat
  msgs : List RingMsg
  spbase : Nat
  spsize : Nat
  retbuf : Nat
  spmark : Nat
  /-- the packet of the item whose record is in RETBUF -/
  inRet : Option Nat
  /-- a CLOSE_IN has taken effect (R198) -/
  closing : Bool
  /-- doorbells that came before their message, and refused messages whose doorbell has yet to come: source and sequence number -/
  bells : List (Nat × Nat)
  dead : List (Nat × Nat)
deriving DecidableEq, Repr

/-- The message the handler context is running (R98). -/
structure Running where
  chan : Nat
  /-- the packet that brought the message -/
  pid : Nat
  hnum : Nat
  cls : Nat
deriving DecidableEq, Repr

/-- Accesses accepted into an alcove whose last word has not yet been written (R149): alcove number and packet id. -/
abbrev Accepted := List (Nat × Nat)

/-- A collective notice with NONFIN set (R261): its step, bucket, first-offender rank and element, and whether the value arose
in the engine. -/
structure NonFin where
  step : Nat
  bucket : Nat
  rank : Nat
  elem : Nat
  arisen : Bool
deriving DecidableEq, Repr

/-- A tile. -/
structure Tile where
  mem : Sparse Stored
  /-- correction write-backs scheduled and not yet performed (R141): address and corrected word -/
  wb : Sparse Stored
  scrubRow : Nat
  scrubStart : Nat
  sregs : Sparse Half
  main : Ctx
  hand : Ctx
  budget : Nat
  flight : Nat
  /-- the main context has issued its first instruction since launch (LAUNCH, Table 13.4) -/
  begun : Bool
  /-- landing fault stop (R172) -/
  stopped : Bool
  /-- debug stop (R101) -/
  dbgStop : Bool
  /-- contexts, as bits, whose next issue passes a breakpoint it stopped at; bit 2: DBG.CTRL.STEP lets one main-context instruction issue (R101) -/
  bpPass : Nat
  /-- fetch-buffer lines: the line's address div 32, its 32 half-words and the words held poisoned (R70) -/
  lines : Sparse (Nat × List Half × List Nat)
  /-- the handler table as copied at launch (R97) -/
  htab : Sparse Half
  running : Option Running
  sb : List SbEntry
  instrs : List EngInstr
  nextId : Nat
  /-- accumulator element bank × 1024 + 32 i + j (bank 2 is H): 1 + code + 2^32 × poisoned; unlisted is zero (bank H: see accExec) -/
  acc : Sparse Nat
  /-- bank kinds, 0 tensor FP32, 1 INT32, 2 undefined: keys 0–2 in issue order (R107), keys 3–5 as executed -/
  accKind : Sparse Nat
  /-- bank H since the latest handler entry: the counter of its undefined kind in issue order, and that of its undefined kind and elements
  (those not listed in `acc`) as executed (R107) -/
  accFree : Nat
  accExec : Nat
  /-- handler entries that bank H has not met yet, since an earlier handler's matrix instructions complete normally (R99, R107): the first dispatch number
  after each, and its counter -/
  hEntries : List (Nat × Nat)
  drains : List DrainJob
  chain : List Nat
  /-- lines served to stream loads -/
  lineResp : List LineResp
  lineOut : List LineOut
  /-- the moment the stream window filled, while it is full (R87, R135) -/
  winSince : Option Nat
  xcUnack : List XcUnack
  outCh : Sparse OutCh
  inCh : Sparse InCh
  accepted : Accepted
  /-- spill records (R211), and the next word group of each area: key 64 the default area, else the channel's own -/
  spills : List SpillRec
  spNext : Sparse Nat
  /-- pending anomaly kinds by flight (R57) -/
  pendA : List (Nat × Nat)
  /-- flights with a fault contribution (R143, R144, R168) -/
  pendF : List Nat
  /-- a verdict contribution since the previous arrival (R170) -/
  pendV : Option NonFin
  /-- flight of the latest SRAM_UE event (R143) -/
  ueFlight : Option Nat
  /-- dispatch items signalled to the handler context and not yet popped (R208) -/
  signals : Nat
deriving DecidableEq, Repr

/-- A multicast group table entry (R179). `fwd` bits 0–3 are the links to row−1, row+1, column−1, column+1; bit 4 the corridor. -/
structure GroupEntry where
  rootHall : Nat
  root : Bool
  fwd : Nat
  deliver : BitVec 64
  dests : Nat
deriving DecidableEq, Repr

/-- A reduction table entry (R181). -/
structure RedEntry where
  buf : Nat
  len : Nat
  n : Nat
deriving DecidableEq, Repr

/-- A contribution stored in the reduction buffer: contributor index, sending tile, its instruction, entry and flight. -/
structure RedContrib where
  cidx : Nat
  src : Nat
  instr : Nat
  entry : Nat
  flight : Nat
deriving DecidableEq, Repr

/-- A pending reduction. -/
structure RedPending where
  tile : Nat
  daddr : Nat
  rop : Nat
  got : List RedContrib
deriving DecidableEq, Repr

/-- Dispatch lists of a tile: queue-pool cell numbers, oldest first (R208). -/
structure Lists where
  c0 : List Nat
  c1 : List Nat
  /-- the controller has stopped offering items (R209) -/
  dead : Bool
deriving DecidableEq, Repr

end Sys2Proof.Machine
end

