-- ==== Sys2Proof/Machine/NetState.lean ====
section
/-! DEFINITION. Traffic in flight on the mesh and the banister, partitions with their landings, and what the module
sends outside (spec 01, 06, 07, 13). -/

namespace Sys2Proof.Machine

/-- What a mesh packet carries. Words come with their poison. `src` is the sending device tile, `instr` its instruction. -/
inductive Body where
  /-- one exchange-list entry for one tile (R178) -/
  | exch (src instr entry dst daddr : Nat) (words : List (Nat × Bool))
  /-- a multicast entry: on its way to the root hall, or replicating (`tree`) with the link it came by (R179) -/
  | mcast (src instr entry group daddr : Nat) (tree : Bool) (words : List (Nat × Bool))
  /-- a reduction contribution (R181) -/
  | red (src instr entry dst daddr rid cidx rop : Nat) (words : List (Nat × Bool))
  /-- a combined reduction, with the contributors' tiles, instructions, entries and flights (R181) -/
  | redOut (dst daddr : Nat) (words : List (Nat × Bool)) (from_ : List (Nat × Nat × Nat × Nat))
  /-- a message or WRAP marker (R199, R201); `src` is its sending device tile, or 20000 + the SWT sequence number of its packet -/
  | msg (dst : Nat) (hdr : MsgHdr) (src : Nat) (words : List (Nat × Bool))
  /-- a collective result or notice word (R255) -/
  | coll (dst part bucket addr : Nat) (nonfinite : Bool) (words : List (Nat × Bool))
deriving DecidableEq, Repr

/-- A mesh packet (one access or message; R22, R23). -/
structure Packet where
  id : Nat
  tag : Nat
  srcHall : Nat
  dstHall : Nat
  route : Nat
  here : Nat
  cls : Nat
  arrived : Bool
  /-- held at its destination's delivery port for want of a queue-pool cell, with the alcove that accepted it (R149, R206) -/
  held : Option Nat
  body : Body
deriving DecidableEq, Repr

/-- What a banister event carries to a tile (R24). -/
inductive BanMsg where
  /-- acknowledgement of an exchange entry: reason 0 positive, else R183's reason, with the local tile and the word address (R151); a late
  refusal of a combined reduction carries the flight of its contribution (R181) -/
  | exAck (instr entry reason dtile addr : Nat) (late : Option Nat)
  /-- the root router's destination count of an accepted multicast entry (R183) -/
  | exCount (instr entry count : Nat)
  /-- acknowledgement of a message, or of the WRAP marker before it (256 + `seq`): reason 0 positive, else Table 7.6, with the local tile and
  the word address (R151) -/
  | msgAck (ch seq reason dtile addr : Nat)
  /-- returned credits (R202) -/
  | credit (ch words : Nat)
  /-- an opening grant (R197) -/
  | opening (ch rsize : Nat)
  /-- a message doorbell (R207); `msrc` is the message's source, as its packet names it -/
  | bell (inch seq msrc : Nat)
deriving DecidableEq, Repr

/-- A banister event between tiles; sources 4608 and up are hall routers, hall controllers and port stops. -/
structure Ban where
  src : Nat
  dst : Nat
  msg : BanMsg
deriving DecidableEq, Repr

/-- An incomplete landing of a partition (R168, R187, R188, R192). -/
structure Landing where
  num : Nat
  /-- bits of LAND.VERDICT contributed so far by this member's tiles: 1 verdict, 2 anomaly, 4 fault -/
  bits : Nat
  /-- the lowest-ordered non-finite notice among the arrivals (R261) -/
  nf : Option NonFin
  /-- the moment of the first local arrival -/
  first : Option Nat
  /-- LANDING_TIMEOUT reported -/
  reported : Bool
  /-- mode 1: child ranks that have arrived, and the OR of their bits -/
  kids : List Nat
  kidBits : Nat
  /-- the arrival sent to the parent, or pulses sent on SYNC_OUT_UP and SYNC_OUT_DN -/
  sentUp : Bool
  sentDn : Bool
  /-- mode 1: the group's bits, once released -/
  release : Option Nat
  /-- mode 2: this member has completed it locally, with these bits -/
  localBits : Option Nat
deriving DecidableEq, Repr

/-- A command that has started and not completed, with its opcode, the objects it names (R340: kind, first, end) and its RESULT so far (spec 13). -/
structure RunCmd where
  hdr : CmdHdr
  op : Nat
  objs : List (Nat × Nat × Nat)
  result : List (Nat × Nat)
deriving DecidableEq, Repr

/-- A live or dormant partition. -/
structure Part where
  num : Nat
  halls : List Nat
  dormant : Bool
  quota : Nat
  loaded : Bool
  launched : Bool
  stopped : Bool
  ended : Bool
  landings : List Landing
  /-- mode 2: bits received from other members: (landing, peer context, bits) -/
  rankBits : List (Nat × Nat × Nat)
  /-- fault records of R169 waiting for the next completion -/
  fault : Bool
  /-- landing number of the latest LANDING_ANOMALY since the latest launch or setting of AEVENT (R173) -/
  lastAnomaly : Option Nat
  /-- flights for which EXCHANGE_LOST has been reported (R184) -/
  lost : List Nat
  /-- the landing group's peer contexts (LANDGROUP_SET): mode 1 the parent (8192 at rank 0), then the children; mode 2 every other member -/
  groupCtx : List Nat
  /-- the loaded image (IMAGE_LOAD), and the LAUNCH that waits for every tile's first instruction (Table 13.4) -/
  image : Option Image
  launching : Option RunCmd
  /-- a release or kill has been taken (R27, R154) -/
  ending : Bool
  /-- created by adoption (R308) -/
  adopted : Bool
  /-- a landing numbered 0 has completed since launch: the numbers have wrapped (R167, R192) -/
  lapped : Bool
deriving DecidableEq, Repr

/-- A cross-partition share (R148): agreed when both partitions have offered it. -/
structure Share where
  id : Nat
  parts : List Nat
  offers : List Nat
deriving DecidableEq, Repr

/-- A peer group of a partition (R148): its peer contexts. -/
structure PeerGroup where
  part : Nat
  id : Nat
  ctxs : List Nat
deriving DecidableEq, Repr

/-- A packet of a sequence space kept until it is acknowledged (R329). `sacks` counts later packets acknowledged by SACK. -/
structure SwtPkt where
  cls : Nat
  seq : Nat
  typ : Nat
  aux : Nat
  addr : Nat
  pmask : Nat
  plen : Nat
  payload : Nat
  keyid : Nat
  /-- the moment it was queued, whether it has been sent, and when and where it was sent last -/
  since : Nat
  sent : Bool
  sentAt : Nat
  link : Nat
  sacked : Bool
  sacks : Nat
deriving DecidableEq, Repr

/-- What a sent packet's answer will be matched to (R327). -/
inductive PeerPend where
  /-- a READ of `lines` lines from `addr` for stream instruction `id` of tile `n` -/
  | read (cls seq n id addr lines : Nat)
  /-- a line WRITE of stream instruction `id` of tile `n` -/
  | write (cls seq n id : Nat)
  /-- a message or WRAP marker of tile `n`'s outbound channel -/
  | msg (cls seq n ch mseq : Nat) (wrap : Bool)
  /-- a repair read of a line of a page (R242) -/
  | repair (cls seq page line : Nat)
  /-- a shadow leg, commit record, catch-up page or digest of a partition (R302) -/
  | shadow (cls seq part : Nat)
deriving DecidableEq, Repr

/-- A key slot (R325, R332): for each direction a key and its salt, none where it is not written or is retired. -/
structure KeySlot where
  tx : Option (Nat × Nat)
  rx : Option (Nat × Nat)
deriving DecidableEq, Repr

/-- A peer context (Table 12.4) with its sequence spaces (R328–R334). -/
structure PeerCtx where
  lpart : Nat
  raddr : Nat
  rport : Nat
  rctx : Nat
  spray : Nat
  pmax : Nat
  enc : Bool
  up : Bool
  keys : Sparse KeySlot
  keyid : Nat
  /-- next sequence number to send and next expected, by class -/
  txSeq : Sparse Nat
  rxNext : Sparse Nat
  /-- accepted beyond the next expected (classes 2 and 3): class, sequence -/
  rxGot : List (Nat × Nat)
  /-- arrivals not yet acknowledged: the moment of the first, by class -/
  ackDue : List (Nat × Nat)
  ackCtr : Nat
  /-- CE-marked packets received since the last ACK, by class -/
  ce : Sparse Nat
  unacked : List SwtPkt
  pend : List PeerPend
  /-- congestion windows of classes 2 and 3 (R333); the moment of the latest reduction (key class) and of the start of the present
  round trip without CE (key class + 4), each plus 1 -/
  cwnd : Sparse Nat
  cwndAt : Sparse Nat
  srtt : Nat
  /-- packets sent by spraying, for the round robin (R331) -/
  rr : Nat
  lastTx : Nat
  /-- the moment the link list became empty -/
  emptyAt : Option Nat
  /-- credit entries held at the port stop (R202): sending tile, channel, words, SET -/
  credits : List (Nat × Nat × Nat × Bool)
  /-- packets retransmitted, and packets dropped by each step of R333 from step 4 on, where DCTX names the context (TELEM_READ, R344) -/
  retx : Nat
  drops : Sparse Nat
deriving DecidableEq, Repr

/-- An event record (Table 13.6) before the ring gives it its PHASE and SEQ. DATA fields in Table 13.8's order: (value, bytes). -/
structure EventRec where
  code : Nat
  part : Option Nat
  time : Nat
  data : List (Nat × Nat)
deriving DecidableEq, Repr

/-- What a frame carries before its transport header (R312, R315, R326): source and destination addresses, UDP ports, DSCP, ECN field, and the 802.1Q tag as VID
and PCP where the port tags. -/
structure IpHead where
  src : Nat
  dst : Nat
  dport : Nat
  sport : Nat
  dscp : Nat
  ecn : Nat
  vlan : Option (Nat × Nat)
deriving DecidableEq, Repr

/-- What leaves the module, newest first. (DEDUCED, unsafe: log 8) -/
inductive Output where
  /-- an event record written to a ring, with its PHASE and SEQ (R346) -/
  | event (ring phase seq : Nat) (rec_ : EventRec)
  /-- a completion record written to a queue's ring (R341): queue, phase, sequence, TAG, opcode, status, result fields (value, bytes) -/
  | completion (queue phase seq tag opcode status head : Nat) (result : List (Nat × Nat))
  /-- an RDMA WRITE to a host buffer: buffer, offset, bytes -/
  | hostWrite (hbuf off : Nat) (bytes : List Nat)
  /-- bytes read from a host buffer are asked for -/
  | hostRead (hbuf off len : Nat)
  /-- a RoCEv2 packet that answers a request, or a CNP: queue pair, kind (0 ACK, 1 NAK sequence error, 2 NAK invalid request, 3 NAK remote access, 4 NAK
  remote operational, 5 RNR NAK, 6 READ response, 7 CNP), PSN, outer headers, payload -/
  | roce (qpn kind psn : Nat) (ip : IpHead) (payload : List Nat)
  /-- a requester operation on a queue pair: its first PSN, the outer headers of its packets, and what it writes or asks for -/
  | rdma (qpn psn : Nat) (ip : IpHead) (body : Output)
  /-- a Stairway Transport packet sent (R326): sub-port, outer headers, header bytes, payload bytes as sent (PLEN and little-endian value), the GCM tag
  when encrypted, and the integrity check -/
  | swt (link : Nat) (ip : IpHead) (header : List Nat) (plen payload : Nat) (tag : Option Nat) (crc : Nat)
  /-- a pulse on SYNC_OUT: 0 UP, 1 DN (R188) -/
  | sync (pin : Nat)
  /-- an MCTP message of the MSS on the sideband: message type, code (control command; PLDM type × 256 + command; SPDM code), completion code, fields -/
  | mctp (typ code cc : Nat) (fields : List Nat)
  /-- a register's value returned to a reader of control space: byte address, value -/
  | regRead (addr value : Nat)
  /-- an Ethernet frame of another kind: port, kind, fields -/
  | frame (port kind : Nat) (fields : List Nat)
  /-- bits shifted out on TDO: how many, and their value (R386) -/
  | tdo (bits value : Nat)
  /-- the pins driven from the test port: the instruction and the boundary register (R386) -/
  | drive (instr boundary : Nat)
deriving DecidableEq, Repr

end Sys2Proof.Machine
end

