-- ==== Sys2Proof/Machine/MemState.lean ====
section
/-! DEFINITION. The state of global memory, of the collective engine and of the protection unit (spec 08, 09, 11), and commands in
progress (spec 13). -/

namespace Sys2Proof.Machine

/-! Galleries and frames (spec 08). -/

/-- The states of Table 8.4; an EMPTY slot is not listed. -/
inductive SlotState where
  | filling | clean | modified | shared | moving | evicting
deriving DecidableEq, Repr

/-- A block slot of a gallery slice (R156, R230), keyed slice × 96 + slot. The valid lines are those listed. -/
structure Slot where
  block : Nat
  state : SlotState
  lines : Sparse GalLine
  /-- the modified mask -/
  dirty : Sparse Bool
  /-- lines not valid that reads wait for -/
  want : Sparse Bool
  /-- the order of the latest use and of the fill (R229, R232) -/
  used : Nat
  filled : Nat
  /-- prefetch protection: its target flight (R237) -/
  prot : Option Nat
deriving DecidableEq, Repr

/-- A line on its way from a frame into a slot. -/
structure FillLine where
  hall : Nat
  slot : Nat
  line : Nat
  val : LineVal
deriving DecidableEq, Repr

/-- A tile's line read that waits at the stairwell. -/
structure WaitRead where
  tile : Nat
  id : Nat
  addr : Nat
deriving DecidableEq, Repr

/-- A peer's READ accepted and not yet answered (R254, R327): its context, class and sequence number, and the lines it names. -/
structure PeerRead where
  ctx : Nat
  cls : Nat
  seq : Nat
  addr : Nat
  n : Nat
deriving DecidableEq, Repr

/-- A repair from a shadow (Table 8.8), between steps 1 and 4, or (`copying`) in step 5. -/
structure Repair where
  page : Nat
  line : Nat
  since : Nat
  copying : Bool
  /-- the line has been written back since (R235) -/
  stale : Bool
  /-- lost lines that step 5 has asked for -/
  tried : List Nat
deriving DecidableEq, Repr

/-- A copy before write that a held write asked for (Table 8.7): the halls whose writes wait, and since when. -/
structure CopyReq where
  page : Nat
  halls : List (Nat × Nat)
deriving DecidableEq, Repr

/-- A prefetch entry (Table 8.6). -/
structure PfEntry where
  flight : Nat
  block : Nat
  nblk : Nat
  op : Nat
  halls : Nat
deriving DecidableEq, Repr

/-- An active occurrence (R237): entry, occurrence index, target flight, blocks of the entry still to place. -/
structure PfOcc where
  entry : Nat
  iter : Nat
  target : Nat
  todo : List Nat
deriving DecidableEq, Repr

/-- A partition's prefetch schedule as registered. -/
structure Prefetch where
  entries : List PfEntry
  /-- next entry to activate and its occurrence index -/
  next : Nat
  iter : Nat
  active : List PfOcc
deriving DecidableEq, Repr

/-! Commands in progress (spec 13). -/

/-- A page-map change on its way through the cut (R222), and the command it completes. -/
structure Cut where
  pages : List (Nat × BitVec 64)
  cmd : Option RunCmd
deriving DecidableEq, Repr

/-- A partition's host-output region (R344): the buffer, the range, and lines written and acknowledged that wait to be copied, oldest first. -/
structure HostOut where
  hbuf : Nat
  obase : Nat
  olen : Nat
  queue : List Nat
deriving DecidableEq, Repr

/-! The collective engine (spec 09). -/

/-- A non-finite record (R259). -/
structure NfRec where
  arisen : Bool
  rank : Nat
  elem : Nat
deriving DecidableEq, Repr

/-- Data of one shard of a bucket from one sender at one stage of Table 9.4 (0 marks the owner's own result): chunks by byte offset, each
byte with its poison. -/
structure CollIn where
  step : Nat
  bucket : Nat
  stage : Nat
  shard : Nat
  srank : Nat
  nf : Option NfRec
  failed : Bool
  skip : Bool
  /-- version sent with the data: epoch and step -/
  ver : Nat × Nat
  got : List (Nat × List (Nat × Bool))
deriving DecidableEq, Repr

/-- A bucket of the current step that is posted and not published. -/
structure CollRun where
  bucket : Nat
  /-- the layout epoch it is tagged with (R250) -/
  epoch : Nat
  postedAt : Nat
  slow : Bool
  /-- its reduction has begun here -/
  started : Bool
  /-- what this device has sent on: stage, shard, sending rank -/
  did : List (Nat × Nat × Nat)
  /-- a PERMUTE's table: SRANK, DRANK, SOFF, DOFF, N (Table 9.5) -/
  moves : List (Nat × Nat × Nat × Nat × Nat)
  /-- the residual to write (R263), when the bucket has one -/
  xnew : Option (List (Nat × Bool))
  nf : Option NfRec
  /-- reason of Table 9.6, 0 none -/
  fail : Nat
  /-- results, X and notices are written -/
  final : Bool
  poisoned : Bool
  /-- notices not yet delivered -/
  notices : Nat
deriving DecidableEq, Repr

/-- A registered shard (R267). -/
structure Shard where
  slot0 : Nat
  slot1 : Nat
  elems : Nat
  fmt : Nat
  group : Nat
  cur : Nat
  ver0 : Nat × Nat
  ver1 : Nat × Nat
  held0 : Bool
  held1 : Bool
deriving DecidableEq, Repr

/-- Who waits for a contribution line that is held (R249). -/
inductive HeldBy where
  | tile (n id : Nat)
  | peer (ctx cls seq : Nat)
  | host
  /-- the collective engine, or a stairwell's spill record -/
  | unit
deriving DecidableEq, Repr

/-- A held contribution line. -/
structure HeldLine where
  addr : Nat
  data : BitVec 512
  mask : BitVec 64
  poison : Bool
  who : HeldBy
deriving DecidableEq, Repr

/-- The collective engine's state for a partition beside its registers. -/
structure Coll where
  /-- the engine's copy of the bucket descriptors (R245) -/
  plan : List Nat
  /-- bytes accepted of each bucket's slices in the current step (R250) -/
  bytes : Sparse Nat
  runs : List CollRun
  /-- inputs of buckets of this step and later, and this device's own -/
  ins : List CollIn
  shards : Sparse Shard
  /-- delivered versions of the current step's buckets (R268) -/
  vers : Sparse (Nat × Nat)
  /-- posted COMMIT buckets that have not taken effect (R269) -/
  commits : List Nat
  /-- shard groups that a PERMUTE has moved since their previous commit (R269) -/
  permuted : List Nat
  held : List HeldLine
  /-- held reads that COLL.HELD_R has counted, beside those of tiles and peers (R254): reader and line -/
  heldR : List (Nat × Nat)
deriving DecidableEq, Repr

/-! The protection unit (spec 11). -/

/-- A protected tensor (Table 11.1); `method` is 0 none, 1 snapshot, 2 shadow; `catching` while its catch-up is due or runs. -/
structure Tensor where
  page : Nat
  npages : Nat
  kind : Nat
  force : Nat
  rate : Nat
  shpage : Nat
  method : Nat
  catching : Bool
deriving DecidableEq, Repr

/-- An incoming link (R295) beside its registers. -/
structure InLink where
  /-- SP.IN.CFG.CTX holds the owner's context -/
  bound : Bool
  /-- the shadow area: first page and pages -/
  shpage : Nat
  shn : Nat
  /-- leg bytes present: step, bucket, bytes; records present: step and LEGS -/
  legs : List (Nat × Nat × Nat)
  recs : List (Nat × Nat)
  /-- a leg or record was discarded: nothing is replayed until a catch-up that ends with none discarded -/
  broken : Bool
  /-- the next replay is the first after a catch-up -/
  first : Bool
  /-- the step being replayed, or that of the catch-up being received -/
  step : Nat
  /-- what each shadow page mirrors: page of the area, owner's tensor, owner's page -/
  map : List (Nat × Nat × Nat)
  /-- the shadow has been built -/
  built : Bool
  /-- the step at which the latest catch-up stands, from which digest checks are counted, and the tensors whose digests at STEP are still to be sent (R301) -/
  base : Nat
  digTodo : List Nat
  /-- the steps of the latest 16 records that came, newest first -/
  seen : List Nat
  /-- bytes received of the last page of the catch-up under way -/
  tail : Nat
deriving DecidableEq, Repr

/-- What the protection unit does for a partition (R305). -/
inductive Job where
  /-- a snapshot: buffer, step, epoch, moment, tensor indices, pages in image order, pages sent with their status, digest of the parts sent,
  and phase: 0 pages, 1 the status table is sent, 2 the trailer is sent -/
  | snapshot (buf step epoch time : Nat) (tensors pages : List Nat) (sent : List (Nat × Bool)) (digest phase : Nat)
  /-- a catch-up of a tensor at a step: pages still to send -/
  | catchup (tensor step : Nat) (todo : List Nat)
  /-- the digest reads that are due -/
  | digest
deriving DecidableEq, Repr

/-- A restore in progress (R309, R310): its command, its source (0 shadow, 1 snapshot), its tensors, and, from a snapshot, the bytes to read and those read. -/
structure Restore where
  cmd : RunCmd
  source : Nat
  tensors : List Nat
  size : Nat
  bytes : List Nat
deriving DecidableEq, Repr

/-- The protection state of a partition beside its registers. -/
structure Prot where
  tensors : List Tensor
  bufs : Option (Nat × Nat)
  job : Option Job
  snapDue : Bool
  catchDue : List Nat
  /-- digest reads that are due: tensor and step; its pages are under HOLD -/
  digestDue : List (Nat × Nat)
  /-- the step of the latest catch-up, from which digest checks are counted (R301) -/
  base : Nat
  links : Sparse InLink
  restore : Option Restore
  /-- the moment of the latest snapshot landing -/
  lastSnap : Nat
  /-- own digests of tensors awaiting the buddy's: tensor, step, digest -/
  digests : List (Nat × Nat × Nat)
  /-- the buddy's digests that came before the own ones: tensor, step, digest -/
  theirs : List (Nat × Nat × Nat)
deriving DecidableEq, Repr

end Sys2Proof.Machine
end

