-- ==== Sys2Proof/Machine/ModuleState.lean ====
section
/-! DEFINITION. The state of the host attachment and the foyer (spec 12, 13), of the management subsystem (spec 14), and of the module's
power, pins and test port (spec 15). -/

namespace Sys2Proof.Machine

/-! Host attachment (spec 12, R318–R324; spec 13). -/

/-- What a requester operation was for (R323). -/
inductive OpWhy where
  | none
  /-- a completion ring of a queue, an event ring -/
  | ring (queue : Nat)
  | evring (ring : Nat)
  /-- a command that completes with it -/
  | cmd (c : RunCmd)
  | snapshot (part : Nat)
  | output (part : Nat)
  | restore (part : Nat)
  | update
deriving DecidableEq, Repr

/-- A requester operation not yet acknowledged: its first packet number, its packets, what is sent, what for, and whether it has been sent. -/
structure QpOp where
  psn : Nat
  n : Nat
  out : Output
  why : OpWhy
  sent : Bool
deriving DecidableEq, Repr

/-- A registered region (R320): kind 0 global range, 1 scratchpad, 2 control space, 3 command queue, whose queue `tile` names. -/
structure Region_ where
  part : Nat
  kind : Nat
  access : Nat
  tile : Nat
  base : Nat
  len : Nat
deriving DecidableEq, Repr

/-- A request message that a responder queue pair has begun: its region, the next byte offset in it, the bytes still to come, and bytes of a word that
is not yet whole. -/
structure QpCur where
  reg : Region_
  off : Nat
  left : Nat
  part : List Nat
deriving DecidableEq, Repr

/-- A queue pair (R319): kind 0 administrative, 1 command, 2 data; `port` 0–3; `ok` until the error state. -/
structure Qp where
  kind : Nat
  part : Nat
  queue : Nat
  port : Nat
  gidx : Nat
  retry : Nat
  rnr : Nat
  mtu : Nat
  rqpn : Nat
  rgid : Nat
  ok : Bool
  /-- next expected and next sent packet numbers -/
  epsn : Nat
  spsn : Nat
  cur : Option QpCur
  ops : List QpOp
  /-- retries used on the oldest operation, and RNR retries; the moment an RNR NAK's delay runs out -/
  tries : Nat
  rnrTries : Nat
  rnrAt : Option Nat
  /-- NAKs sent and received, by code; retries in all -/
  nakTx : Sparse Nat
  nakRx : Sparse Nat
  retried : Nat
  /-- sending rate in Mb/s, the latest reduction, the latest CNP received and sent (R324) -/
  rate : Nat
  lastcut : Option Nat
  cnpRx : Option Nat
  cnpTx : Option Nat
  /-- answers that a pause holds back (R315): service class, kind, PSN, payload -/
  answers : List (Nat × Nat × Nat × List Nat)
deriving DecidableEq, Repr

/-- A host buffer (R323). `part` 8 is the device. -/
structure HostBuf where
  part : Nat
  qpn : Nat
  rkey : Nat
  raddr : Nat
  len : Nat
deriving DecidableEq, Repr

/-- A command packet taken and not started (R340): its parameters as bytes, and the objects it names (kind, first, end). -/
structure Taken where
  hdr : CmdHdr
  op : Nat
  bytes : List Nat
  objs : List (Nat × Nat × Nat)
deriving DecidableEq, Repr

/-- A partition creation that waits for a release (R27). -/
structure Creation where
  cmd : RunCmd
  adopt : Nat
  quota : Nat
  halls : List Nat
deriving DecidableEq, Repr

/-- A release or kill in progress (R154, R155, R343): the halls still to clear, and what the MSS read at step 1 (R364). -/
structure Release where
  part : Nat
  cmd : RunCmd
  kill : Bool
  captured : Bool
  halls : List Nat
  all : List Nat
  xpart : Nat
  alcv : Nat
  failed : Bool
deriving DecidableEq, Repr

/-- Host attachment and foyer beside their registers. -/
structure Foyer where
  taken : List Taken
  running : List RunCmd
  /-- the queue whose packet was taken last -/
  turn : Nat
  /-- finished completions held for want of ring space (R341): command and status -/
  heldDone : List (RunCmd × Nat)
  hostbufs : Sparse HostBuf
  regions : Sparse Region_
  generations : Sparse Nat
  qps : Sparse Qp
  /-- completions written on each queue -/
  written : Sparse Nat
  releases : List Release
  creations : List Creation
  /-- queues that take no more packets, until their started commands complete (QUEUE_DESTROY) -/
  closing : List Nat
  /-- a warm reset has begun: no further packets -/
  stopped : Bool
deriving DecidableEq, Repr

/-! Management subsystem (spec 14). -/

/-- A log record (Table 14.5). -/
structure LogRec where
  seq : Nat
  boot : Nat
  time : Nat
  code : Nat
  part : Nat
  late : Bool
  data : List (Nat × Nat)
deriving DecidableEq, Repr

/-- What the persistent store holds (Table 14.1): CAP, ALERT_EN, CLK.PPS.EN, the ports' stored configuration by register address,
the retired frames and the hourly risk history. -/
structure Persist where
  cap : Nat
  alertEn : Nat
  ppsEn : Nat
  ports : Sparse (BitVec 64)
  retired : List Nat
  history : List (Nat × Nat × Nat)
deriving DecidableEq, Repr

/-- The update record (R358, R360): the active slot, a pending slot and its tries, and the slots marked invalid (bit 0 A, bit 1 B). -/
structure UpdateRec where
  active : Nat
  pending : Option Nat
  tries : Nat
  marked : Nat
deriving DecidableEq, Repr

/-- An image slot: the bytes programmed into it, and whether they pass R357 apart from the security version. -/
structure FwSlot where
  bytes : List Nat
  sound : Bool
deriving DecidableEq, Repr

/-- A checked sequence (Table 14.2). -/
inductive FlashOp where
  | logProgram (recs : List LogRec)
  | logErase
  | persist (p : Persist)
  | record (r : UpdateRec)
  /-- erase or program 64 KiB sector k of the slot under update -/
  | slotErase (k : Nat)
  | slotProgram (k : Nat)
  | fuse
deriving DecidableEq, Repr

/-- A firmware update in progress (R360): by command or by PLDM; bytes received of `total`; next sector and whether it is erased; phase
0 receiving, 1 marking the slot, 2 writing, 3 recording. -/
structure Update where
  slot : Nat
  cmd : Option RunCmd
  bytes : List Nat
  total : Nat
  sector : Nat
  erased : Bool
  phase : Nat
deriving DecidableEq, Repr

/-- The state of an SPDM connection (R362): 0 nothing, 1 version, 2 capabilities, 3 algorithms agreed; and the messages that its signatures cover: those
of the agreement, those that follow until a challenge, and those of measurements. (DESIGN CHOICE, unsafe: log 141) -/
structure Spdm where
  stage : Nat
  agreed : List Nat
  chal : List Nat
  meas : List Nat
deriving DecidableEq, Repr

structure Mss where
  /-- the event log in flash, oldest first, and the RAM buffer (R352, R356) -/
  log : List LogRec
  logBuf : List LogRec
  /-- records discarded since the latest LOG_GAP, and whether the buffer waits for a retry -/
  gap : Nat
  logWait : Bool
  /-- what is in flash, what is to be written, and whether that waits for a retry -/
  store : Persist
  want : Option Persist
  wantWait : Bool
  slotA : FwSlot
  slotB : FwSlot
  rec_ : UpdateRec
  /-- an update record to be written -/
  wantRec : Option UpdateRec
  /-- fuses: the security-version counter and the debug lock (R357) -/
  svn : Nat
  debugLock : Bool
  boots : Nat
  /-- the latest measurement, the latest HOLDUP record of one, the sequence that runs, and the mirrored copy it writes; a sequence whose second copy is
  still to be written -/
  lastMeas : Nat
  lastLog : Option Nat
  seq : Option FlashOp
  copy : Nat
  second : Option FlashOp
  update : Option Update
  /-- a fuse step is due -/
  fuseDue : Bool
  measures : List Nat
  booted : Nat
  /-- MCTP and PLDM state: endpoint ID, terminus ID, event receiver, dynamic address of the I3C target -/
  eid : Nat
  tid : Nat
  receiver : Option Nat
  dynAddr : Option Nat
  /-- PLDM update state (DSP0267): 0 idle, 1 learn components, 2 ready xfer, 3 download, 4 verify, 5 apply, 6 activate -/
  pldm : Nat
  /-- the agent's maximum transfer size -/
  maxXfer : Nat
  activate : Bool
  /-- SPDM connections: sideband and in band -/
  spdm : Spdm
  spdmBand : Spdm
  /-- threshold state of each sensor as last reported: 0 normal, 1 warning, 2 critical -/
  thresh : Sparse Nat
  /-- when each sensor was last read -/
  readAt : Sparse Nat
  /-- moments since which a sensor has stood above its trip limit -/
  tripSince : Sparse Nat
  /-- power-cap loop: milliseconds above the cap at CEIL 24; sums for the 1 s average -/
  overMs : Nat
  powers : List Nat
  /-- risk index inputs (R306): corrected SRAM and LPDDR errors since the latest update; SRAM, LPDDR and link counts of each of the latest 60
  seconds; those of the present hour and its seconds; moments of link drops and of uncorrectable events; seconds spent below the tier -/
  ceSram : Nat
  ceDram : Nat
  ceHist : List (Nat × Nat × Nat)
  ceHour : Nat × Nat × Nat
  ceSecs : Nat
  flaps : List Nat
  ues : List Nat
  below : Nat
deriving DecidableEq, Repr

/-! Power, clocks and pins (spec 15). -/

inductive Phase where
  /-- no 48 V input, or MOD_PWREN not yet qualified -/
  | off
  /-- the rails are coming up (Table 15.2, steps 3 and 4) -/
  | rising
  /-- held in reset -/
  | reset
  | booting
  | running
  | recovery
  /-- Table 15.3 runs -/
  | falling
deriving DecidableEq, Repr

structure Power where
  phase : Phase
  input : Bool
  pwren : Bool
  resetN : Bool
  refclk : Bool
  /-- why the present reset began (Table 15.4), and when it ended -/
  cause : Nat
  since : Nat
  /-- an assertion of MOD_PWREN waits for the end of power-down (R373); a thermal trip holds the module off (R384) -/
  again : Bool
  tripped : Bool
  /-- THROTTLE_N qualified low; acted on since when; the start of the assertion as reported (R380), the latest report, the latest release -/
  thrLow : Bool
  throttle : Option Nat
  thrStart : Nat
  thrReport : Option Nat
  thrRelease : Option Nat
  /-- PPS: the latest accepted edge, edges in a row under 100 ns, and the correction being slewed, in ns -/
  ppsEdge : Option Nat
  ppsGood : Nat
  slew : Int
  /-- counts since the latest correction by one count -/
  slewTick : Nat
  /-- the correction of the time base's rate, in parts per 10^9, and what it has gathered since the latest count by it (R316) -/
  rate : Int
  rateAcc : Int
  /-- SMBus interface resets -/
  smbReset : Nat
  /-- test port: the instruction in force, and the boundary register as preloaded -/
  tap : Nat
  boundary : Nat
deriving DecidableEq, Repr

/-- PFC and PTP state of the ports (R315, R316). -/
structure Ports where
  /-- the moment a pause of sub-port x, priority k ends, keyed 8x + k -/
  paused : Sparse Nat
  /-- time receiver: the latest Sync (sequence, time sent, time received), the request under way (sequence, time sent), the peer delay, and the latest
  offset -/
  ptpSync : Option (Nat × Nat × Nat)
  ptpReq : Option (Nat × Nat)
  ptpDelay : Int
  ptpOffset : Int
  /-- the moment the time base was steered last -/
  ptpAt : Option Nat
deriving DecidableEq, Repr

end Sys2Proof.Machine
end

