-- ==== Sys2Proof/Machine/Regs.lean ====
section
/-! DEFINITION. Control-space registers (R10, R29, R30): where a register stands, what fields it has, and
how hardware reads and writes a field. The registers themselves are in RegsTile.lean and RegsDev.lean. -/

namespace Sys2Proof.Machine

/-- The field types of Table 0.2 (R10). -/
inductive FieldType where
  | ro | rw | wo | w1c | w1s | rc
deriving DecidableEq, Repr

/-- One field of a register: bits [lo + width - 1 : lo], its type and its reset value. Bits in no field are reserved (R11). -/
structure FieldSpec where
  lo : Nat
  width : Nat
  ty : FieldType
  reset : Nat
deriving DecidableEq, Repr

/-- The blocks of control space (Tables 1.6 and 1.7). -/
inductive RUnit where
  | dev | owner | land | sync | cq | ev | memc | gmem | coll | port | sp | risk | mb | hall | tile
deriving DecidableEq, Repr

/-- The byte address of a block's base (Tables 1.6 and 1.7); `u` numbers the block among its kind:
hall h, device tile n (R14), port index p (R15), partition p, queue q, ring r or controller m. -/
def RUnit.base : RUnit → Nat → Nat
  | .dev, _ => 0
  | .cq, q => 0x10000 + 0x100 * q
  | .ev, r => 0x80000 + 0x100 * r
  | .owner, h => 0x100000 + 8 * h
  | .land, p => 0x101000 + 0x100 * p
  | .sync, _ => 0x102000
  | .memc, m => 0x800000 + 0x10000 * m
  | .gmem, _ => 0x808000
  | .coll, p => 0xA00000 + 0x1000 * p
  | .port, p => 0xB00000 + 0x10000 * p
  | .sp, p => 0xE00000 + 0x1000 * p
  | .risk, _ => 0xE08000
  | .mb, _ => 0xF00000
  | .hall, h => 0x1000000 + 0x200000 * h + 0x100000
  | .tile, n => 0x1000000 + 0x200000 * (n / 64) + 0x4000 * (n % 64)

/-- A register: `count` of them at offsets `off + stride * i` of each block. -/
structure Reg where
  unit : RUnit
  off : Nat
  stride : Nat
  count : Nat
  fields : List FieldSpec
deriving DecidableEq, Repr

/-- A named field of a register. -/
structure Fld where
  reg : Reg
  lo : Nat
  width : Nat
deriving DecidableEq, Repr

/-- The control-space address of register `i` of its kind in block `u`. -/
def Reg.addr (r : Reg) (u i : Nat) : Nat := r.unit.base u + r.off + r.stride * i

/-- A number for each kind of block, below 16. -/
def RUnit.tag : RUnit → Nat
  | .dev => 0 | .owner => 1 | .land => 2 | .sync => 3 | .cq => 4 | .ev => 5 | .memc => 6 | .gmem => 7 | .coll => 8 | .port => 9 | .sp => 10 | .risk => 11
  | .mb => 12 | .hall => 13 | .tile => 14

/-- The key under which the register file holds a register: its address and, in the low four bits, the kind of its block, so that registers of two kinds of block
never share one. -/
def Reg.key (r : Reg) (u i : Nat) : Nat := 16 * r.addr u i + r.unit.tag

/-- The value of a register after reset: each field at its table's reset value, reserved bits 0. -/
def Reg.reset (r : Reg) : BitVec 64 :=
  BitVec.ofNat 64 (r.fields.foldl (fun a f => a + (f.reset % 2 ^ f.width) * 2 ^ f.lo) 0)

/-- Bits [lo + width - 1 : lo] of a register value. -/
def bitsAt (v : BitVec 64) (lo width : Nat) : Nat := v.toNat / 2 ^ lo % 2 ^ width

/-- A register value with bits [lo + width - 1 : lo] replaced by the low bits of `x`. -/
def setBitsAt (v : BitVec 64) (lo width x : Nat) : BitVec 64 :=
  BitVec.ofNat 64 (v.toNat - bitsAt v lo width * 2 ^ lo + x % 2 ^ width * 2 ^ lo)

/-- The register file: what each register holds, by its key; an unlisted register holds its reset value. -/
abbrev RegFile := Sparse (BitVec 64)

/-- The value of register `i` of its kind in block `u`. -/
def RegFile.rd (m : RegFile) (r : Reg) (u : Nat) (i : Nat := 0) : BitVec 64 := Sparse.get r.reset m (r.key u i)

/-- The register set to `v`. -/
def RegFile.wr (m : RegFile) (r : Reg) (u i : Nat) (v : BitVec 64) : RegFile := Sparse.put r.reset m (r.key u i) v

/-- The value of a field. -/
def RegFile.get (m : RegFile) (f : Fld) (u : Nat) (i : Nat := 0) : Nat := bitsAt (m.rd f.reg u i) f.lo f.width

/-- A field set by hardware to the low bits of `x`; the register's other bits stay. -/
def RegFile.set (m : RegFile) (f : Fld) (u i : Nat) (x : Nat) : RegFile :=
  m.wr f.reg u i (setBitsAt (m.rd f.reg u i) f.lo f.width x)

/-- A counter raised by `n`; it saturates at its all-ones value (R12). -/
def RegFile.bump (m : RegFile) (f : Fld) (u i n : Nat) : RegFile :=
  m.set f u i (min (m.get f u i + n) (2 ^ f.width - 1))

/-- The software write of a register by its field types (R10, R11): RW takes the written bits, W1C clears the
bits written 1, W1S sets the bits written 1; RO, RC, WO and reserved bits stay. -/
def Reg.written (r : Reg) (old new : BitVec 64) : BitVec 64 :=
  r.fields.foldl (fun v f =>
    let w := bitsAt new f.lo f.width
    let o := bitsAt old f.lo f.width
    match f.ty with
    | .rw => setBitsAt v f.lo f.width w
    | .w1c => setBitsAt v f.lo f.width (o - (o &&& w))
    | .w1s => setBitsAt v f.lo f.width (o ||| w)
    | .ro | .wo | .rc => v) old

/-- What a software read returns: WO fields read as zero (R10). -/
def Reg.readValue (r : Reg) (v : BitVec 64) : BitVec 64 :=
  r.fields.foldl (fun a f => if f.ty = .wo then setBitsAt a f.lo f.width 0 else a) v

/-- What the register holds after a software read: RC fields are cleared (R10). -/
def Reg.afterRead (r : Reg) (v : BitVec 64) : BitVec 64 :=
  r.fields.foldl (fun a f => if f.ty = .rc then setBitsAt a f.lo f.width 0 else a) v

end Sys2Proof.Machine
end

