-- ==== Sys2Proof/Machine/RegsDev.lean ====
section
/-! DEFINITION. The registers of the device, partition, foyer, memory, collective, protection, port and management blocks, with the fields, types and reset values of the spec's register tables. -/

namespace Sys2Proof.Machine

namespace R

/-- DEV.IDENT (Table 1.8). -/
def DEV_IDENT : Reg := ⟨.dev, 0x0, 0, 1, [⟨48, 16, .ro, 0x7a3e⟩, ⟨32, 16, .ro, 0x4608⟩, ⟨24, 8, .ro, 0⟩]⟩
/-- DEV.SERIAL (Table 1.8). -/
def DEV_SERIAL : Reg := ⟨.dev, 0x8, 0, 1, [⟨0, 64, .ro, 0⟩]⟩
/-- DEV.STATUS (Table 1.8). -/
def DEV_STATUS : Reg := ⟨.dev, 0x10, 0, 1, [⟨0, 1, .ro, 0⟩, ⟨1, 1, .ro, 0⟩, ⟨2, 1, .ro, 0⟩, ⟨3, 4, .ro, 0⟩]⟩
/-- DEV.HALL_FAULT (Table 1.8). -/
def DEV_HALL_FAULT : Reg := ⟨.dev, 0x18, 0, 1, [⟨0, 64, .ro, 0⟩]⟩
/-- DEV.HALL_FAULT_HI (Table 1.8). -/
def DEV_HALL_FAULT_HI : Reg := ⟨.dev, 0x20, 0, 1, [⟨0, 8, .ro, 0⟩]⟩
/-- DEV.TIME (Table 1.8). -/
def DEV_TIME : Reg := ⟨.dev, 0x28, 0, 1, [⟨0, 64, .ro, 0⟩]⟩
/-- PART.OWNER(h) (Table 1.9). -/
def PART_OWNER : Reg := ⟨.owner, 0x0, 0, 1, [⟨0, 3, .ro, 0⟩, ⟨3, 1, .ro, 0⟩, ⟨4, 1, .ro, 0⟩]⟩
/-- LAND.NUM (Table 6.8). -/
def LAND_NUM : Reg := ⟨.land, 0x0, 0, 1, [⟨0, 32, .ro, 0⟩, ⟨32, 32, .ro, 0⟩]⟩
/-- LAND.VERDICT (Table 6.8). -/
def LAND_VERDICT : Reg := ⟨.land, 0x8, 0, 1, [⟨0, 1, .ro, 0⟩, ⟨1, 1, .ro, 0⟩, ⟨2, 1, .ro, 0⟩, ⟨3, 13, .ro, 0⟩, ⟨16, 32, .ro, 0⟩]⟩
/-- LAND.CTRL (Table 6.8). -/
def LAND_CTRL : Reg := ⟨.land, 0x10, 0, 1, [⟨0, 32, .rw, 0x2710⟩, ⟨32, 1, .rw, 0⟩, ⟨33, 2, .ro, 0⟩]⟩
/-- LAND.GROUP (Table 6.8). -/
def LAND_GROUP : Reg := ⟨.land, 0x18, 0, 1, [⟨0, 12, .ro, 0⟩, ⟨12, 13, .ro, 1⟩]⟩
/-- LAND.OPENCNT (Table 6.8). -/
def LAND_OPENCNT : Reg := ⟨.land, 0x20, 0, 1, [⟨0, 3, .ro, 0⟩]⟩
/-- LAND.LATE (Table 6.8). -/
def LAND_LATE : Reg := ⟨.land, 0x28, 0, 1, [⟨0, 13, .ro, 0⟩, ⟨13, 13, .ro, 0⟩, ⟨26, 1, .ro, 0⟩, ⟨27, 1, .w1c, 0⟩, ⟨32, 32, .ro, 0⟩]⟩
/-- LAND.TIMEOUTS (Table 6.8). -/
def LAND_TIMEOUTS : Reg := ⟨.land, 0x30, 0, 1, [⟨0, 32, .rc, 0⟩]⟩
/-- LAND.ANOMALIES (Table 6.8). -/
def LAND_ANOMALIES : Reg := ⟨.land, 0x38, 0, 1, [⟨0, 32, .rc, 0⟩]⟩
/-- SYNC.CFG (Table 6.9). -/
def SYNC_CFG : Reg := ⟨.sync, 0x0, 0, 1, [⟨0, 1, .ro, 0⟩, ⟨1, 3, .ro, 0⟩, ⟨4, 1, .ro, 0⟩, ⟨5, 1, .ro, 0⟩]⟩
/-- SYNC.COUNT (Table 6.9). -/
def SYNC_COUNT : Reg := ⟨.sync, 0x8, 0, 1, [⟨0, 32, .ro, 0⟩, ⟨32, 32, .ro, 0⟩]⟩
/-- SYNC.GLITCH (Table 6.9). -/
def SYNC_GLITCH : Reg := ⟨.sync, 0x10, 0, 1, [⟨0, 32, .rc, 0⟩]⟩
/-- SYNC.STATUS (Table 6.9). -/
def SYNC_STATUS : Reg := ⟨.sync, 0x18, 0, 1, [⟨0, 1, .ro, 0⟩, ⟨1, 1, .ro, 0⟩, ⟨2, 1, .w1c, 0⟩]⟩
/-- CQ.CFG (Table 13.10). -/
def CQ_CFG : Reg := ⟨.cq, 0x0, 0, 1, [⟨0, 1, .ro, 0⟩, ⟨1, 3, .ro, 0⟩, ⟨4, 1, .ro, 0⟩, ⟨8, 4, .ro, 0⟩, ⟨16, 12, .ro, 0⟩]⟩
/-- CQ.TAIL (Table 13.10). -/
def CQ_TAIL : Reg := ⟨.cq, 0x8, 0, 1, [⟨0, 30, .rw, 0⟩]⟩
/-- CQ.CHEAD (Table 13.10). -/
def CQ_CHEAD : Reg := ⟨.cq, 0x10, 0, 1, [⟨0, 30, .rw, 0⟩]⟩
/-- CQ.HEAD (Table 13.10). -/
def CQ_HEAD : Reg := ⟨.cq, 0x18, 0, 1, [⟨0, 30, .ro, 0⟩]⟩
/-- CQ.STATUS (Table 13.10). -/
def CQ_STATUS : Reg := ⟨.cq, 0x20, 0, 1, [⟨0, 1, .w1c, 0⟩, ⟨1, 1, .ro, 0⟩, ⟨2, 5, .ro, 0⟩, ⟨7, 1, .ro, 0⟩]⟩
/-- CQ.DONE (Table 13.10). -/
def CQ_DONE : Reg := ⟨.cq, 0x28, 0, 1, [⟨0, 48, .rc, 0⟩]⟩
/-- CQ.RKEY (Table 13.10). -/
def CQ_RKEY : Reg := ⟨.cq, 0x30, 0, 1, [⟨0, 32, .ro, 0⟩]⟩
/-- EV.CFG (Table 13.11). -/
def EV_CFG : Reg := ⟨.ev, 0x0, 0, 1, [⟨0, 1, .ro, 0⟩, ⟨8, 5, .ro, 0⟩, ⟨16, 12, .ro, 0⟩]⟩
/-- EV.HEAD (Table 13.11). -/
def EV_HEAD : Reg := ⟨.ev, 0x8, 0, 1, [⟨0, 30, .rw, 0⟩]⟩
/-- EV.TAIL (Table 13.11). -/
def EV_TAIL : Reg := ⟨.ev, 0x10, 0, 1, [⟨0, 30, .ro, 0⟩]⟩
/-- EV.LOST (Table 13.11). -/
def EV_LOST : Reg := ⟨.ev, 0x18, 0, 1, [⟨0, 32, .rc, 0⟩]⟩
/-- EV.MASK(k) (Table 13.11). -/
def EV_MASK : Reg := ⟨.ev, 0x20, 8, 4, [⟨0, 64, .rw, 0xffffffffffffffff⟩]⟩
/-- MEMC.STATUS (Table 8.9). -/
def MEMC_STATUS : Reg := ⟨.memc, 0x0, 0, 1, [⟨0, 1, .ro, 0⟩, ⟨1, 1, .ro, 0⟩, ⟨2, 3, .ro, 0⟩, ⟨8, 8, .ro, 0⟩]⟩
/-- MEMC.CE (Table 8.9). -/
def MEMC_CE : Reg := ⟨.memc, 0x8, 0, 1, [⟨0, 48, .ro, 0⟩]⟩
/-- MEMC.BYTES_CE (Table 8.9). -/
def MEMC_BYTES_CE : Reg := ⟨.memc, 0x10, 0, 1, [⟨0, 48, .ro, 0⟩]⟩
/-- MEMC.LINK_CE (Table 8.9). -/
def MEMC_LINK_CE : Reg := ⟨.memc, 0x18, 0, 1, [⟨0, 48, .ro, 0⟩]⟩
/-- MEMC.UE (Table 8.9). -/
def MEMC_UE : Reg := ⟨.memc, 0x20, 0, 1, [⟨0, 32, .ro, 0⟩]⟩
/-- MEMC.UE_FIRST (Table 8.9). -/
def MEMC_UE_FIRST : Reg := ⟨.memc, 0x28, 0, 1, [⟨0, 19, .ro, 0⟩, ⟨19, 17, .ro, 0⟩, ⟨36, 5, .ro, 0⟩, ⟨41, 1, .ro, 0⟩, ⟨42, 1, .w1c, 0⟩]⟩
/-- MEMC.SCRUB (Table 8.9). -/
def MEMC_SCRUB : Reg := ⟨.memc, 0x30, 0, 1, [⟨0, 32, .ro, 0⟩]⟩
/-- MEMC.RFM (Table 8.9). -/
def MEMC_RFM : Reg := ⟨.memc, 0x38, 0, 1, [⟨0, 48, .rc, 0⟩]⟩
/-- MEMC.CHK_MISS (Table 8.9). -/
def MEMC_CHK_MISS : Reg := ⟨.memc, 0x40, 0, 1, [⟨0, 48, .rc, 0⟩]⟩
/-- GMEM.FRAMES (Table 8.10). -/
def GMEM_FRAMES : Reg := ⟨.gmem, 0x0, 0, 1, [⟨0, 19, .ro, 0⟩, ⟨19, 19, .ro, 0⟩, ⟨38, 19, .ro, 0⟩]⟩
/-- GMEM.REPAIR (Table 8.10). -/
def GMEM_REPAIR : Reg := ⟨.gmem, 0x8, 0, 1, [⟨0, 32, .ro, 0⟩, ⟨32, 32, .ro, 0⟩]⟩
/-- GMEM.DIR (Table 8.10). -/
def GMEM_DIR : Reg := ⟨.gmem, 0x10, 0, 1, [⟨0, 17, .ro, 0⟩, ⟨32, 32, .rc, 0⟩]⟩
/-- GMEM.PF_SKIP (Table 8.10). -/
def GMEM_PF_SKIP : Reg := ⟨.gmem, 0x18, 0, 1, [⟨0, 32, .rc, 0⟩]⟩
/-- GMEM.PF_CFG(p) (Table 8.10). -/
def GMEM_PF_CFG : Reg := ⟨.gmem, 0x100, 32, 8, [⟨0, 42, .ro, 0⟩, ⟨42, 4, .ro, 2⟩, ⟨46, 17, .ro, 0⟩]⟩
/-- GMEM.PF_PERIOD(p) (Table 8.10). -/
def GMEM_PF_PERIOD : Reg := ⟨.gmem, 0x108, 32, 8, [⟨0, 32, .ro, 0⟩]⟩
/-- GMEM.PF_STATE(p) (Table 8.10). -/
def GMEM_PF_STATE : Reg := ⟨.gmem, 0x110, 32, 8, [⟨0, 16, .ro, 0⟩, ⟨16, 7, .ro, 0⟩, ⟨32, 32, .ro, 0⟩]⟩
/-- GMEM.PF_DONE(p) (Table 8.10). -/
def GMEM_PF_DONE : Reg := ⟨.gmem, 0x118, 32, 8, [⟨0, 48, .rc, 0⟩]⟩
/-- COLL.PLAN (Table 9.7). -/
def COLL_PLAN : Reg := ⟨.coll, 0x0, 0, 1, [⟨0, 42, .ro, 0⟩, ⟨42, 17, .ro, 0⟩, ⟨59, 1, .ro, 0⟩]⟩
/-- COLL.CAREA (Table 9.7). -/
def COLL_CAREA : Reg := ⟨.coll, 0x8, 0, 1, [⟨0, 42, .ro, 0⟩]⟩
/-- COLL.CLIMIT (Table 9.7). -/
def COLL_CLIMIT : Reg := ⟨.coll, 0x10, 0, 1, [⟨0, 42, .ro, 0⟩]⟩
/-- COLL.RAREA (Table 9.7). -/
def COLL_RAREA : Reg := ⟨.coll, 0x18, 0, 1, [⟨0, 42, .ro, 0⟩]⟩
/-- COLL.RHALF (Table 9.7). -/
def COLL_RHALF : Reg := ⟨.coll, 0x20, 0, 1, [⟨0, 42, .ro, 0⟩]⟩
/-- COLL.GROUP (Table 9.7). -/
def COLL_GROUP : Reg := ⟨.coll, 0x28, 0, 1, [⟨0, 12, .ro, 0⟩, ⟨12, 13, .ro, 1⟩, ⟨25, 5, .ro, 1⟩]⟩
/-- COLL.STEP (Table 9.7). -/
def COLL_STEP : Reg := ⟨.coll, 0x30, 0, 1, [⟨0, 32, .ro, 0⟩, ⟨32, 16, .ro, 0⟩]⟩
/-- COLL.WIN (Table 9.7). -/
def COLL_WIN : Reg := ⟨.coll, 0x38, 0, 1, [⟨0, 17, .ro, 0⟩, ⟨17, 7, .ro, 0⟩, ⟨24, 1, .ro, 0⟩]⟩
/-- COLL.FIRST_A (Table 9.7). -/
def COLL_FIRST_A : Reg := ⟨.coll, 0x40, 0, 1, [⟨0, 16, .ro, 0⟩, ⟨16, 12, .ro, 0⟩, ⟨28, 1, .ro, 0⟩, ⟨29, 1, .w1c, 0⟩, ⟨32, 32, .ro, 0⟩]⟩
/-- COLL.FIRST_B (Table 9.7). -/
def COLL_FIRST_B : Reg := ⟨.coll, 0x48, 0, 1, [⟨0, 32, .ro, 0⟩]⟩
/-- COLL.FAIL (Table 9.7). -/
def COLL_FAIL : Reg := ⟨.coll, 0x50, 0, 1, [⟨0, 16, .ro, 0⟩, ⟨16, 3, .ro, 0⟩, ⟨19, 1, .w1c, 0⟩, ⟨32, 32, .ro, 0⟩]⟩
/-- COLL.FAILS (Table 9.7). -/
def COLL_FAILS : Reg := ⟨.coll, 0x58, 0, 1, [⟨0, 32, .rc, 0⟩]⟩
/-- COLL.WDOG (Table 9.7). -/
def COLL_WDOG : Reg := ⟨.coll, 0x60, 0, 1, [⟨0, 32, .rw, 0x7530⟩]⟩
/-- COLL.SLOW (Table 9.7). -/
def COLL_SLOW : Reg := ⟨.coll, 0x68, 0, 1, [⟨0, 16, .ro, 0⟩, ⟨16, 12, .ro, 0⟩, ⟨28, 1, .w1c, 0⟩, ⟨32, 32, .rc, 0⟩]⟩
/-- COLL.HELD_W (Table 9.7). -/
def COLL_HELD_W : Reg := ⟨.coll, 0x70, 0, 1, [⟨0, 48, .rc, 0⟩]⟩
/-- COLL.HELD_R (Table 9.7). -/
def COLL_HELD_R : Reg := ⟨.coll, 0x78, 0, 1, [⟨0, 48, .rc, 0⟩]⟩
/-- COLL.TX (Table 9.7). -/
def COLL_TX : Reg := ⟨.coll, 0x80, 0, 1, [⟨0, 48, .rc, 0⟩]⟩
/-- COLL.RX (Table 9.7). -/
def COLL_RX : Reg := ⟨.coll, 0x88, 0, 1, [⟨0, 48, .rc, 0⟩]⟩
/-- COLL.DONE (Table 9.7). -/
def COLL_DONE : Reg := ⟨.coll, 0x90, 0, 1, [⟨0, 48, .rc, 0⟩]⟩
/-- COLL.NPEER(i) (Table 9.7). -/
def COLL_NPEER : Reg := ⟨.coll, 0x100, 8, 16, [⟨0, 13, .ro, 0⟩, ⟨13, 1, .ro, 0⟩]⟩
/-- COLL.RING (Table 9.7). -/
def COLL_RING : Reg := ⟨.coll, 0x180, 0, 1, [⟨0, 13, .ro, 0⟩, ⟨13, 1, .ro, 0⟩, ⟨16, 13, .ro, 0⟩, ⟨29, 1, .ro, 0⟩]⟩
/-- COLL.BUDDY (Table 9.7). -/
def COLL_BUDDY : Reg := ⟨.coll, 0x188, 0, 1, [⟨0, 13, .ro, 0⟩, ⟨13, 1, .ro, 0⟩]⟩
/-- PORT.CFG (Table 12.8). -/
def PORT_CFG : Reg := ⟨.port, 0x0, 0, 1, [⟨0, 2, .rw, 0⟩, ⟨2, 1, .rw, 0⟩, ⟨3, 12, .rw, 0⟩, ⟨15, 8, .rw, 0⟩, ⟨23, 14, .rw, 0x2400⟩]⟩
/-- PORT.QOS (Table 12.8). -/
def PORT_QOS : Reg := ⟨.port, 0x8, 0, 1, [⟨0, 6, .rw, 0x2e⟩, ⟨8, 6, .rw, 0x22⟩, ⟨16, 6, .rw, 0x1a⟩, ⟨24, 6, .rw, 0xa⟩, ⟨32, 3, .rw, 6⟩, ⟨36, 3, .rw, 4⟩, ⟨40, 3, .rw, 3⟩, ⟨44, 3, .rw, 1⟩]⟩
/-- PORT.PTP (Table 12.8). -/
def PORT_PTP : Reg := ⟨.port, 0x10, 0, 1, [⟨0, 1, .rw, 1⟩, ⟨1, 1, .rw, 0⟩, ⟨2, 1, .rw, 0⟩, ⟨8, 8, .rw, 0⟩]⟩
/-- ROCE.ECN (Table 12.8). -/
def ROCE_ECN : Reg := ⟨.port, 0x18, 0, 1, [⟨0, 16, .rw, 0x32⟩]⟩
/-- SWT.PORT (Table 12.8). -/
def SWT_PORT : Reg := ⟨.port, 0x20, 0, 1, [⟨0, 16, .rw, 0x181b⟩]⟩
/-- SWT.CFG (Table 12.8). -/
def SWT_CFG : Reg := ⟨.port, 0x28, 0, 1, [⟨0, 16, .rw, 0x14⟩]⟩
/-- LINK.STATUS (Table 12.9). -/
def LINK_STATUS : Reg := ⟨.port, 0x100, 256, 2, [⟨0, 1, .ro, 0⟩, ⟨1, 1, .ro, 0⟩, ⟨2, 1, .ro, 0⟩, ⟨3, 1, .ro, 0⟩, ⟨4, 1, .ro, 0⟩]⟩
/-- LINK.MAC (Table 12.9). -/
def LINK_MAC : Reg := ⟨.port, 0x108, 256, 2, [⟨0, 48, .ro, 0⟩]⟩
/-- LINK.FEC_CW (Table 12.9). -/
def LINK_FEC_CW : Reg := ⟨.port, 0x110, 256, 2, [⟨0, 48, .ro, 0⟩]⟩
/-- LINK.FEC_UNC (Table 12.9). -/
def LINK_FEC_UNC : Reg := ⟨.port, 0x118, 256, 2, [⟨0, 48, .ro, 0⟩]⟩
/-- LINK.FLAPS (Table 12.9). -/
def LINK_FLAPS : Reg := ⟨.port, 0x120, 256, 2, [⟨0, 32, .ro, 0⟩]⟩
/-- LINK.TX_FRAMES (Table 12.9). -/
def LINK_TX_FRAMES : Reg := ⟨.port, 0x128, 256, 2, [⟨0, 48, .rc, 0⟩]⟩
/-- LINK.RX_FRAMES (Table 12.9). -/
def LINK_RX_FRAMES : Reg := ⟨.port, 0x130, 256, 2, [⟨0, 48, .rc, 0⟩]⟩
/-- LINK.RX_DROP (Table 12.9). -/
def LINK_RX_DROP : Reg := ⟨.port, 0x138, 256, 2, [⟨0, 32, .rc, 0⟩, ⟨32, 3, .ro, 0⟩]⟩
/-- LINK.PFC (Table 12.9). -/
def LINK_PFC : Reg := ⟨.port, 0x140, 256, 2, [⟨0, 32, .rc, 0⟩, ⟨32, 32, .rc, 0⟩]⟩
/-- SWT.TX / ROCE.TX (Table 12.10). -/
def PT_TX : Reg := ⟨.port, 0x300, 0, 1, [⟨0, 48, .rc, 0⟩]⟩
/-- SWT.RX / ROCE.RX (Table 12.10). -/
def PT_RX : Reg := ⟨.port, 0x308, 0, 1, [⟨0, 48, .rc, 0⟩]⟩
/-- SWT.RETX / ROCE.RETX (Table 12.10). -/
def PT_RETX : Reg := ⟨.port, 0x310, 0, 1, [⟨0, 48, .rc, 0⟩]⟩
/-- SWT.DROP (Table 12.10). -/
def SWT_DROP : Reg := ⟨.port, 0x318, 0, 1, [⟨0, 16, .rc, 0⟩, ⟨16, 16, .rc, 0⟩, ⟨32, 16, .rc, 0⟩, ⟨48, 16, .rc, 0⟩]⟩
/-- SWT.DROP2 (Table 12.10). -/
def SWT_DROP2 : Reg := ⟨.port, 0x320, 0, 1, [⟨0, 32, .rc, 0⟩, ⟨32, 32, .rc, 0⟩]⟩
/-- SWT.ECN / ROCE.ECN_CNT (Table 12.10). -/
def PT_ECN : Reg := ⟨.port, 0x328, 0, 1, [⟨0, 32, .rc, 0⟩, ⟨32, 32, .rc, 0⟩]⟩
/-- ROCE.NAK (Table 12.10). -/
def ROCE_NAK : Reg := ⟨.port, 0x330, 0, 1, [⟨0, 16, .rc, 0⟩, ⟨16, 16, .rc, 0⟩, ⟨32, 16, .rc, 0⟩, ⟨48, 16, .rc, 0⟩]⟩
/-- SP.CFG (Table 11.11). -/
def SP_CFG : Reg := ⟨.sp, 0x0, 0, 1, [⟨0, 24, .rw, 0xe10⟩, ⟨24, 16, .rw, 0x40⟩, ⟨40, 20, .rw, 0x3e8⟩]⟩
/-- SP.CFG2 (Table 11.11). -/
def SP_CFG2 : Reg := ⟨.sp, 0x8, 0, 1, [⟨0, 16, .rw, 0x400⟩]⟩
/-- SP.TENS (Table 11.11). -/
def SP_TENS : Reg := ⟨.sp, 0x10, 0, 1, [⟨0, 11, .ro, 0⟩, ⟨11, 11, .ro, 0⟩, ⟨22, 11, .ro, 0⟩]⟩
/-- SP.COMMIT (Table 11.11). -/
def SP_COMMIT : Reg := ⟨.sp, 0x18, 0, 1, [⟨0, 32, .ro, 0⟩]⟩
/-- SP.LINK (Table 11.11). -/
def SP_LINK : Reg := ⟨.sp, 0x20, 0, 1, [⟨0, 13, .ro, 0⟩, ⟨13, 1, .ro, 0⟩, ⟨14, 1, .ro, 0⟩, ⟨15, 1, .ro, 0⟩, ⟨16, 32, .ro, 0⟩]⟩
/-- SP.LAG (Table 11.11). -/
def SP_LAG : Reg := ⟨.sp, 0x28, 0, 1, [⟨0, 32, .ro, 0⟩, ⟨32, 32, .rc, 0⟩]⟩
/-- SP.SNAP (Table 11.11). -/
def SP_SNAP : Reg := ⟨.sp, 0x30, 0, 1, [⟨0, 1, .ro, 0⟩, ⟨1, 1, .ro, 0⟩, ⟨2, 1, .ro, 0⟩, ⟨3, 1, .ro, 0⟩, ⟨16, 32, .ro, 0⟩]⟩
/-- SP.SNAP_PROG (Table 11.11). -/
def SP_SNAP_PROG : Reg := ⟨.sp, 0x38, 0, 1, [⟨0, 32, .ro, 0⟩, ⟨32, 32, .ro, 0⟩]⟩
/-- SP.SNAP_COUNT (Table 11.11). -/
def SP_SNAP_COUNT : Reg := ⟨.sp, 0x40, 0, 1, [⟨0, 32, .rc, 0⟩, ⟨32, 32, .rc, 0⟩]⟩
/-- SP.DIGEST (Table 11.11). -/
def SP_DIGEST : Reg := ⟨.sp, 0x48, 0, 1, [⟨0, 32, .rc, 0⟩, ⟨32, 32, .rc, 0⟩]⟩
/-- SP.DUE (Table 11.11). -/
def SP_DUE : Reg := ⟨.sp, 0x50, 0, 1, [⟨0, 64, .ro, 0⟩]⟩
/-- SP.IN_CFG(k) (Table 11.11). -/
def SP_IN_CFG : Reg := ⟨.sp, 0x80, 32, 2, [⟨0, 13, .ro, 0⟩, ⟨13, 1, .ro, 0⟩, ⟨14, 5, .ro, 0⟩, ⟨19, 42, .ro, 0⟩]⟩
/-- SP.IN_STATE(k) (Table 11.11). -/
def SP_IN_STATE : Reg := ⟨.sp, 0x88, 32, 2, [⟨0, 32, .ro, 0⟩, ⟨32, 1, .ro, 0⟩, ⟨33, 1, .ro, 0⟩]⟩
/-- SP.IN_NOTICE(k) (Table 11.11). -/
def SP_IN_NOTICE : Reg := ⟨.sp, 0x90, 32, 2, [⟨0, 13, .ro, 0⟩, ⟨13, 19, .ro, 0⟩]⟩
/-- SP.IN_DONE(k) (Table 11.11). -/
def SP_IN_DONE : Reg := ⟨.sp, 0x98, 32, 2, [⟨0, 42, .ro, 0⟩]⟩
/-- SP.RISK (Table 11.12). -/
def SP_RISK : Reg := ⟨.risk, 0x0, 0, 1, [⟨0, 8, .ro, 0⟩, ⟨8, 2, .ro, 0⟩, ⟨16, 8, .ro, 0⟩, ⟨24, 8, .ro, 0⟩, ⟨32, 8, .ro, 0⟩, ⟨40, 8, .ro, 0⟩, ⟨48, 8, .ro, 0⟩]⟩
/-- SP.TIERCFG (Table 11.12). -/
def SP_TIERCFG : Reg := ⟨.risk, 0x8, 0, 1, [⟨0, 8, .rw, 0x40⟩, ⟨8, 8, .rw, 0x80⟩, ⟨16, 8, .rw, 0xc0⟩]⟩
/-- SP.TIERS (Table 11.12). -/
def SP_TIERS : Reg := ⟨.risk, 0x10, 0, 1, [⟨0, 32, .rc, 0⟩]⟩
/-- MB.STATUS (Table 14.12). -/
def MB_STATUS : Reg := ⟨.mb, 0x0, 0, 1, [⟨0, 2, .ro, 0⟩, ⟨2, 1, .ro, 0⟩, ⟨3, 1, .ro, 0⟩, ⟨4, 1, .ro, 0⟩, ⟨5, 7, .ro, 0⟩, ⟨32, 32, .ro, 0⟩]⟩
/-- MB.FWVER (Table 14.12). -/
def MB_FWVER : Reg := ⟨.mb, 0x8, 0, 1, [⟨0, 32, .ro, 0⟩, ⟨32, 32, .ro, 0⟩]⟩
/-- MB.FWSVN (Table 14.12). -/
def MB_FWSVN : Reg := ⟨.mb, 0x10, 0, 1, [⟨0, 16, .ro, 0⟩, ⟨16, 16, .ro, 0⟩, ⟨32, 2, .ro, 0⟩]⟩
/-- MB.UPDATE (Table 14.12). -/
def MB_UPDATE : Reg := ⟨.mb, 0x18, 0, 1, [⟨0, 3, .ro, 0⟩, ⟨16, 16, .ro, 0⟩, ⟨32, 26, .ro, 0⟩]⟩
/-- MB.PCAP (Table 14.12). -/
def MB_PCAP : Reg := ⟨.mb, 0x20, 0, 1, [⟨0, 12, .rw, 0xed8⟩, ⟨12, 7, .ro, 0x48⟩, ⟨19, 1, .ro, 0⟩, ⟨20, 1, .w1c, 0⟩, ⟨21, 1, .ro, 0⟩]⟩
/-- MB.POWER (Table 14.12). -/
def MB_POWER : Reg := ⟨.mb, 0x28, 0, 1, [⟨0, 16, .ro, 0⟩, ⟨16, 16, .ro, 0⟩, ⟨32, 16, .rc, 0⟩]⟩
/-- MB.HOLDUP (Table 14.12). -/
def MB_HOLDUP : Reg := ⟨.mb, 0x30, 0, 1, [⟨0, 20, .ro, 0⟩, ⟨20, 1, .ro, 0⟩, ⟨21, 1, .ro, 0⟩, ⟨32, 16, .ro, 0⟩]⟩
/-- MB.HOLDUP_REF (Table 14.12). -/
def MB_HOLDUP_REF : Reg := ⟨.mb, 0x38, 0, 1, [⟨0, 32, .rc, 0⟩]⟩
/-- MB.LOG (Table 14.12). -/
def MB_LOG : Reg := ⟨.mb, 0x40, 0, 1, [⟨0, 32, .ro, 0⟩, ⟨32, 32, .ro, 0⟩]⟩
/-- MB.LOG_BUF (Table 14.12). -/
def MB_LOG_BUF : Reg := ⟨.mb, 0x48, 0, 1, [⟨0, 13, .ro, 0⟩, ⟨32, 32, .rc, 0⟩]⟩
/-- MB.ALERT (Table 14.12). -/
def MB_ALERT : Reg := ⟨.mb, 0x50, 0, 1, [⟨0, 1, .w1c, 0⟩, ⟨1, 1, .w1c, 0⟩, ⟨2, 1, .w1c, 0⟩, ⟨3, 1, .w1c, 0⟩, ⟨4, 1, .w1c, 0⟩, ⟨8, 5, .rw, 0x1f⟩]⟩
/-- MB.FAULT_CLEAR (Table 14.12). -/
def MB_FAULT_CLEAR : Reg := ⟨.mb, 0x58, 0, 1, [⟨0, 1, .wo, 0⟩, ⟨1, 1, .ro, 0⟩, ⟨2, 1, .w1c, 0⟩]⟩
/-- MB.AQP_GID0 (Table 14.12). -/
def MB_AQP_GID0 : Reg := ⟨.mb, 0x60, 0, 1, [⟨0, 64, .rw, 0⟩]⟩
/-- MB.AQP_GID1 (Table 14.12). -/
def MB_AQP_GID1 : Reg := ⟨.mb, 0x68, 0, 1, [⟨0, 64, .rw, 0⟩]⟩
/-- MB.AQP_CFG (Table 14.12). -/
def MB_AQP_CFG : Reg := ⟨.mb, 0x70, 0, 1, [⟨0, 24, .rw, 0⟩, ⟨24, 24, .rw, 0⟩, ⟨48, 2, .rw, 0⟩, ⟨50, 2, .rw, 2⟩, ⟨52, 4, .rw, 0⟩]⟩
/-- MB.AQP_CTRL (Table 14.12). -/
def MB_AQP_CTRL : Reg := ⟨.mb, 0x78, 0, 1, [⟨0, 1, .wo, 0⟩, ⟨1, 1, .ro, 0⟩, ⟨2, 24, .ro, 0⟩, ⟨26, 24, .ro, 0⟩]⟩
/-- PWR.STATUS (Table 15.8). -/
def PWR_STATUS : Reg := ⟨.mb, 0x800, 0, 1, [⟨0, 1, .ro, 1⟩, ⟨1, 1, .ro, 1⟩, ⟨2, 1, .ro, 1⟩, ⟨3, 1, .ro, 0⟩, ⟨4, 3, .ro, 0⟩]⟩
/-- PWR.RESET (Table 15.8). -/
def PWR_RESET : Reg := ⟨.mb, 0x808, 0, 1, [⟨0, 3, .ro, 0⟩]⟩
/-- PWR.GLITCH (Table 15.8). -/
def PWR_GLITCH : Reg := ⟨.mb, 0x810, 0, 1, [⟨0, 16, .rc, 0⟩, ⟨16, 16, .rc, 0⟩, ⟨32, 16, .rc, 0⟩]⟩
/-- PWR.REFCLK (Table 15.8). -/
def PWR_REFCLK : Reg := ⟨.mb, 0x818, 0, 1, [⟨0, 16, .ro, 0⟩]⟩
/-- CLK.PPS (Table 15.8). -/
def CLK_PPS : Reg := ⟨.mb, 0x820, 0, 1, [⟨0, 1, .rw, 0⟩, ⟨1, 1, .ro, 0⟩, ⟨2, 1, .w1c, 0⟩, ⟨3, 1, .w1c, 0⟩, ⟨32, 32, .ro, 0⟩]⟩
/-- MB.SENSOR(i) (Table 14.12). -/
def MB_SENSOR : Reg := ⟨.mb, 0x1000, 8, 194, [⟨0, 32, .ro, 0⟩, ⟨32, 3, .ro, 0⟩, ⟨35, 1, .ro, 0⟩, ⟨36, 1, .ro, 0⟩, ⟨37, 1, .ro, 0⟩]⟩

end R

namespace F

abbrev DEV_IDENT_VENDOR : Fld := ⟨R.DEV_IDENT, 48, 16⟩
abbrev DEV_IDENT_PART : Fld := ⟨R.DEV_IDENT, 32, 16⟩
abbrev DEV_IDENT_STEPPING : Fld := ⟨R.DEV_IDENT, 24, 8⟩
abbrev DEV_SERIAL_SERIAL : Fld := ⟨R.DEV_SERIAL, 0, 64⟩
abbrev DEV_STATUS_READY : Fld := ⟨R.DEV_STATUS, 0, 1⟩
abbrev DEV_STATUS_WARM : Fld := ⟨R.DEV_STATUS, 1, 1⟩
abbrev DEV_STATUS_FAULT_ANY : Fld := ⟨R.DEV_STATUS, 2, 1⟩
abbrev DEV_STATUS_PARTS : Fld := ⟨R.DEV_STATUS, 3, 4⟩
abbrev DEV_HALL_FAULT_FAULT_LO : Fld := ⟨R.DEV_HALL_FAULT, 0, 64⟩
abbrev DEV_HALL_FAULT_HI_FAULT_HI : Fld := ⟨R.DEV_HALL_FAULT_HI, 0, 8⟩
abbrev DEV_TIME_TIME : Fld := ⟨R.DEV_TIME, 0, 64⟩
abbrev PART_OWNER_PART : Fld := ⟨R.PART_OWNER, 0, 3⟩
abbrev PART_OWNER_OWNED : Fld := ⟨R.PART_OWNER, 3, 1⟩
abbrev PART_OWNER_CLEARING : Fld := ⟨R.PART_OWNER, 4, 1⟩
abbrev LAND_NUM_DONE : Fld := ⟨R.LAND_NUM, 0, 32⟩
abbrev LAND_NUM_MAXARR : Fld := ⟨R.LAND_NUM, 32, 32⟩
abbrev LAND_VERDICT_VERDICT : Fld := ⟨R.LAND_VERDICT, 0, 1⟩
abbrev LAND_VERDICT_ANOMALY : Fld := ⟨R.LAND_VERDICT, 1, 1⟩
abbrev LAND_VERDICT_FAULT : Fld := ⟨R.LAND_VERDICT, 2, 1⟩
abbrev LAND_VERDICT_COLL : Fld := ⟨R.LAND_VERDICT, 3, 13⟩
abbrev LAND_VERDICT_LANDING : Fld := ⟨R.LAND_VERDICT, 16, 32⟩
abbrev LAND_CTRL_TIMEOUT : Fld := ⟨R.LAND_CTRL, 0, 32⟩
abbrev LAND_CTRL_AEVENT : Fld := ⟨R.LAND_CTRL, 32, 1⟩
abbrev LAND_CTRL_MODE : Fld := ⟨R.LAND_CTRL, 33, 2⟩
abbrev LAND_GROUP_RANK : Fld := ⟨R.LAND_GROUP, 0, 12⟩
abbrev LAND_GROUP_SIZE : Fld := ⟨R.LAND_GROUP, 12, 13⟩
abbrev LAND_OPENCNT_INCOMPLETE : Fld := ⟨R.LAND_OPENCNT, 0, 3⟩
abbrev LAND_LATE_MISSING : Fld := ⟨R.LAND_LATE, 0, 13⟩
abbrev LAND_LATE_FIRST : Fld := ⟨R.LAND_LATE, 13, 13⟩
abbrev LAND_LATE_LOCALDONE : Fld := ⟨R.LAND_LATE, 26, 1⟩
abbrev LAND_LATE_VALID : Fld := ⟨R.LAND_LATE, 27, 1⟩
abbrev LAND_LATE_LANDING : Fld := ⟨R.LAND_LATE, 32, 32⟩
abbrev LAND_TIMEOUTS_COUNT : Fld := ⟨R.LAND_TIMEOUTS, 0, 32⟩
abbrev LAND_ANOMALIES_COUNT : Fld := ⟨R.LAND_ANOMALIES, 0, 32⟩
abbrev SYNC_CFG_ENABLE : Fld := ⟨R.SYNC_CFG, 0, 1⟩
abbrev SYNC_CFG_PART : Fld := ⟨R.SYNC_CFG, 1, 3⟩
abbrev SYNC_CFG_FIRST : Fld := ⟨R.SYNC_CFG, 4, 1⟩
abbrev SYNC_CFG_LAST : Fld := ⟨R.SYNC_CFG, 5, 1⟩
abbrev SYNC_COUNT_DNCOUNT : Fld := ⟨R.SYNC_COUNT, 0, 32⟩
abbrev SYNC_COUNT_UPCOUNT : Fld := ⟨R.SYNC_COUNT, 32, 32⟩
abbrev SYNC_GLITCH_COUNT : Fld := ⟨R.SYNC_GLITCH, 0, 32⟩
abbrev SYNC_STATUS_STUCK_DN : Fld := ⟨R.SYNC_STATUS, 0, 1⟩
abbrev SYNC_STATUS_STUCK_UP : Fld := ⟨R.SYNC_STATUS, 1, 1⟩
abbrev SYNC_STATUS_EXCESS : Fld := ⟨R.SYNC_STATUS, 2, 1⟩
abbrev CQ_CFG_VALID : Fld := ⟨R.CQ_CFG, 0, 1⟩
abbrev CQ_CFG_PART : Fld := ⟨R.CQ_CFG, 1, 3⟩
abbrev CQ_CFG_ADMIN : Fld := ⟨R.CQ_CFG, 4, 1⟩
abbrev CQ_CFG_LOGSLOTS : Fld := ⟨R.CQ_CFG, 8, 4⟩
abbrev CQ_CFG_CRING : Fld := ⟨R.CQ_CFG, 16, 12⟩
abbrev CQ_TAIL_TAIL : Fld := ⟨R.CQ_TAIL, 0, 30⟩
abbrev CQ_CHEAD_CHEAD : Fld := ⟨R.CQ_CHEAD, 0, 30⟩
abbrev CQ_HEAD_HEAD : Fld := ⟨R.CQ_HEAD, 0, 30⟩
abbrev CQ_STATUS_OVERRUN : Fld := ⟨R.CQ_STATUS, 0, 1⟩
abbrev CQ_STATUS_STALLED : Fld := ⟨R.CQ_STATUS, 1, 1⟩
abbrev CQ_STATUS_INFLIGHT : Fld := ⟨R.CQ_STATUS, 2, 5⟩
abbrev CQ_STATUS_RINGERR : Fld := ⟨R.CQ_STATUS, 7, 1⟩
abbrev CQ_DONE_COUNT : Fld := ⟨R.CQ_DONE, 0, 48⟩
abbrev CQ_RKEY_RKEY : Fld := ⟨R.CQ_RKEY, 0, 32⟩
abbrev EV_CFG_VALID : Fld := ⟨R.EV_CFG, 0, 1⟩
abbrev EV_CFG_LOGREC : Fld := ⟨R.EV_CFG, 8, 5⟩
abbrev EV_CFG_HBUF : Fld := ⟨R.EV_CFG, 16, 12⟩
abbrev EV_HEAD_HEAD : Fld := ⟨R.EV_HEAD, 0, 30⟩
abbrev EV_TAIL_TAIL : Fld := ⟨R.EV_TAIL, 0, 30⟩
abbrev EV_LOST_COUNT : Fld := ⟨R.EV_LOST, 0, 32⟩
abbrev EV_MASK_MASK : Fld := ⟨R.EV_MASK, 0, 64⟩
abbrev MEMC_STATUS_TRAINED : Fld := ⟨R.MEMC_STATUS, 0, 1⟩
abbrev MEMC_STATUS_SELFREF : Fld := ⟨R.MEMC_STATUS, 1, 1⟩
abbrev MEMC_STATUS_RATE : Fld := ⟨R.MEMC_STATUS, 2, 3⟩
abbrev MEMC_STATUS_TEMP : Fld := ⟨R.MEMC_STATUS, 8, 8⟩
abbrev MEMC_CE_COUNT : Fld := ⟨R.MEMC_CE, 0, 48⟩
abbrev MEMC_BYTES_CE_COUNT : Fld := ⟨R.MEMC_BYTES_CE, 0, 48⟩
abbrev MEMC_LINK_CE_COUNT : Fld := ⟨R.MEMC_LINK_CE, 0, 48⟩
abbrev MEMC_UE_COUNT : Fld := ⟨R.MEMC_UE, 0, 32⟩
abbrev MEMC_UE_FIRST_FRAME : Fld := ⟨R.MEMC_UE_FIRST, 0, 19⟩
abbrev MEMC_UE_FIRST_LINE : Fld := ⟨R.MEMC_UE_FIRST, 19, 17⟩
abbrev MEMC_UE_FIRST_CHAN : Fld := ⟨R.MEMC_UE_FIRST, 36, 5⟩
abbrev MEMC_UE_FIRST_SCRUB : Fld := ⟨R.MEMC_UE_FIRST, 41, 1⟩
abbrev MEMC_UE_FIRST_VALID : Fld := ⟨R.MEMC_UE_FIRST, 42, 1⟩
abbrev MEMC_SCRUB_PASSES : Fld := ⟨R.MEMC_SCRUB, 0, 32⟩
abbrev MEMC_RFM_COUNT : Fld := ⟨R.MEMC_RFM, 0, 48⟩
abbrev MEMC_CHK_MISS_COUNT : Fld := ⟨R.MEMC_CHK_MISS, 0, 48⟩
abbrev GMEM_FRAMES_FREE : Fld := ⟨R.GMEM_FRAMES, 0, 19⟩
abbrev GMEM_FRAMES_RETIRED : Fld := ⟨R.GMEM_FRAMES, 19, 19⟩
abbrev GMEM_FRAMES_POOL : Fld := ⟨R.GMEM_FRAMES, 38, 19⟩
abbrev GMEM_REPAIR_REPAIRED : Fld := ⟨R.GMEM_REPAIR, 0, 32⟩
abbrev GMEM_REPAIR_FAILED : Fld := ⟨R.GMEM_REPAIR, 32, 32⟩
abbrev GMEM_DIR_USED : Fld := ⟨R.GMEM_DIR, 0, 17⟩
abbrev GMEM_DIR_EVICTS : Fld := ⟨R.GMEM_DIR, 32, 32⟩
abbrev GMEM_PF_SKIP_COUNT : Fld := ⟨R.GMEM_PF_SKIP, 0, 32⟩
abbrev GMEM_PF_CFG_SBASE : Fld := ⟨R.GMEM_PF_CFG, 0, 42⟩
abbrev GMEM_PF_CFG_AHEAD : Fld := ⟨R.GMEM_PF_CFG, 42, 4⟩
abbrev GMEM_PF_CFG_NENT : Fld := ⟨R.GMEM_PF_CFG, 46, 17⟩
abbrev GMEM_PF_PERIOD_PERIOD : Fld := ⟨R.GMEM_PF_PERIOD, 0, 32⟩
abbrev GMEM_PF_STATE_NEXT : Fld := ⟨R.GMEM_PF_STATE, 0, 16⟩
abbrev GMEM_PF_STATE_ACTIVE : Fld := ⟨R.GMEM_PF_STATE, 16, 7⟩
abbrev GMEM_PF_STATE_ITER : Fld := ⟨R.GMEM_PF_STATE, 32, 32⟩
abbrev GMEM_PF_DONE_COUNT : Fld := ⟨R.GMEM_PF_DONE, 0, 48⟩
abbrev COLL_PLAN_BTAB : Fld := ⟨R.COLL_PLAN, 0, 42⟩
abbrev COLL_PLAN_NBUCK : Fld := ⟨R.COLL_PLAN, 42, 17⟩
abbrev COLL_PLAN_VALID : Fld := ⟨R.COLL_PLAN, 59, 1⟩
abbrev COLL_CAREA_CBASE : Fld := ⟨R.COLL_CAREA, 0, 42⟩
abbrev COLL_CLIMIT_CLIMIT : Fld := ⟨R.COLL_CLIMIT, 0, 42⟩
abbrev COLL_RAREA_RBASE : Fld := ⟨R.COLL_RAREA, 0, 42⟩
abbrev COLL_RHALF_RHALF : Fld := ⟨R.COLL_RHALF, 0, 42⟩
abbrev COLL_GROUP_RANK : Fld := ⟨R.COLL_GROUP, 0, 12⟩
abbrev COLL_GROUP_SIZE : Fld := ⟨R.COLL_GROUP, 12, 13⟩
abbrev COLL_GROUP_NODE : Fld := ⟨R.COLL_GROUP, 25, 5⟩
abbrev COLL_STEP_STEP : Fld := ⟨R.COLL_STEP, 0, 32⟩
abbrev COLL_STEP_EPOCH : Fld := ⟨R.COLL_STEP, 32, 16⟩
abbrev COLL_WIN_WATER : Fld := ⟨R.COLL_WIN, 0, 17⟩
abbrev COLL_WIN_RUNNING : Fld := ⟨R.COLL_WIN, 17, 7⟩
abbrev COLL_WIN_EPOCHNEXT : Fld := ⟨R.COLL_WIN, 24, 1⟩
abbrev COLL_FIRST_A_BUCKET : Fld := ⟨R.COLL_FIRST_A, 0, 16⟩
abbrev COLL_FIRST_A_RANK : Fld := ⟨R.COLL_FIRST_A, 16, 12⟩
abbrev COLL_FIRST_A_ARISEN : Fld := ⟨R.COLL_FIRST_A, 28, 1⟩
abbrev COLL_FIRST_A_VALID : Fld := ⟨R.COLL_FIRST_A, 29, 1⟩
abbrev COLL_FIRST_A_STEP : Fld := ⟨R.COLL_FIRST_A, 32, 32⟩
abbrev COLL_FIRST_B_ELEM : Fld := ⟨R.COLL_FIRST_B, 0, 32⟩
abbrev COLL_FAIL_BUCKET : Fld := ⟨R.COLL_FAIL, 0, 16⟩
abbrev COLL_FAIL_REASON : Fld := ⟨R.COLL_FAIL, 16, 3⟩
abbrev COLL_FAIL_VALID : Fld := ⟨R.COLL_FAIL, 19, 1⟩
abbrev COLL_FAIL_STEP : Fld := ⟨R.COLL_FAIL, 32, 32⟩
abbrev COLL_FAILS_COUNT : Fld := ⟨R.COLL_FAILS, 0, 32⟩
abbrev COLL_WDOG_TIMEOUT : Fld := ⟨R.COLL_WDOG, 0, 32⟩
abbrev COLL_SLOW_BUCKET : Fld := ⟨R.COLL_SLOW, 0, 16⟩
abbrev COLL_SLOW_WAITRANK : Fld := ⟨R.COLL_SLOW, 16, 12⟩
abbrev COLL_SLOW_VALID : Fld := ⟨R.COLL_SLOW, 28, 1⟩
abbrev COLL_SLOW_COUNT : Fld := ⟨R.COLL_SLOW, 32, 32⟩
abbrev COLL_HELD_W_COUNT : Fld := ⟨R.COLL_HELD_W, 0, 48⟩
abbrev COLL_HELD_R_COUNT : Fld := ⟨R.COLL_HELD_R, 0, 48⟩
abbrev COLL_TX_LINES : Fld := ⟨R.COLL_TX, 0, 48⟩
abbrev COLL_RX_LINES : Fld := ⟨R.COLL_RX, 0, 48⟩
abbrev COLL_DONE_COUNT : Fld := ⟨R.COLL_DONE, 0, 48⟩
abbrev COLL_NPEER_CTX : Fld := ⟨R.COLL_NPEER, 0, 13⟩
abbrev COLL_NPEER_VALID : Fld := ⟨R.COLL_NPEER, 13, 1⟩
abbrev COLL_RING_PREV : Fld := ⟨R.COLL_RING, 0, 13⟩
abbrev COLL_RING_PVALID : Fld := ⟨R.COLL_RING, 13, 1⟩
abbrev COLL_RING_NEXT : Fld := ⟨R.COLL_RING, 16, 13⟩
abbrev COLL_RING_NVALID : Fld := ⟨R.COLL_RING, 29, 1⟩
abbrev COLL_BUDDY_CTX : Fld := ⟨R.COLL_BUDDY, 0, 13⟩
abbrev COLL_BUDDY_VALID : Fld := ⟨R.COLL_BUDDY, 13, 1⟩
abbrev PORT_CFG_MODE : Fld := ⟨R.PORT_CFG, 0, 2⟩
abbrev PORT_CFG_VLAN : Fld := ⟨R.PORT_CFG, 2, 1⟩
abbrev PORT_CFG_VID : Fld := ⟨R.PORT_CFG, 3, 12⟩
abbrev PORT_CFG_PFC : Fld := ⟨R.PORT_CFG, 15, 8⟩
abbrev PORT_CFG_MAXFRAME : Fld := ⟨R.PORT_CFG, 23, 14⟩
abbrev PORT_QOS_DSCP0 : Fld := ⟨R.PORT_QOS, 0, 6⟩
abbrev PORT_QOS_DSCP1 : Fld := ⟨R.PORT_QOS, 8, 6⟩
abbrev PORT_QOS_DSCP2 : Fld := ⟨R.PORT_QOS, 16, 6⟩
abbrev PORT_QOS_DSCP3 : Fld := ⟨R.PORT_QOS, 24, 6⟩
abbrev PORT_QOS_PCP0 : Fld := ⟨R.PORT_QOS, 32, 3⟩
abbrev PORT_QOS_PCP1 : Fld := ⟨R.PORT_QOS, 36, 3⟩
abbrev PORT_QOS_PCP2 : Fld := ⟨R.PORT_QOS, 40, 3⟩
abbrev PORT_QOS_PCP3 : Fld := ⟨R.PORT_QOS, 44, 3⟩
abbrev PORT_PTP_TSEN : Fld := ⟨R.PORT_PTP, 0, 1⟩
abbrev PORT_PTP_DISC : Fld := ⟨R.PORT_PTP, 1, 1⟩
abbrev PORT_PTP_P2P : Fld := ⟨R.PORT_PTP, 2, 1⟩
abbrev PORT_PTP_DOMAIN : Fld := ⟨R.PORT_PTP, 8, 8⟩
abbrev ROCE_ECN_CNPGAP : Fld := ⟨R.ROCE_ECN, 0, 16⟩
abbrev SWT_PORT_UDP : Fld := ⟨R.SWT_PORT, 0, 16⟩
abbrev SWT_CFG_RTOMIN : Fld := ⟨R.SWT_CFG, 0, 16⟩
abbrev LINK_STATUS_UP : Fld := ⟨R.LINK_STATUS, 0, 1⟩
abbrev LINK_STATUS_FECLOCK : Fld := ⟨R.LINK_STATUS, 1, 1⟩
abbrev LINK_STATUS_LFAULT : Fld := ⟨R.LINK_STATUS, 2, 1⟩
abbrev LINK_STATUS_RFAULT : Fld := ⟨R.LINK_STATUS, 3, 1⟩
abbrev LINK_STATUS_TRAINED : Fld := ⟨R.LINK_STATUS, 4, 1⟩
abbrev LINK_MAC_ADDR : Fld := ⟨R.LINK_MAC, 0, 48⟩
abbrev LINK_FEC_CW_COUNT : Fld := ⟨R.LINK_FEC_CW, 0, 48⟩
abbrev LINK_FEC_UNC_COUNT : Fld := ⟨R.LINK_FEC_UNC, 0, 48⟩
abbrev LINK_FLAPS_COUNT : Fld := ⟨R.LINK_FLAPS, 0, 32⟩
abbrev LINK_TX_FRAMES_COUNT : Fld := ⟨R.LINK_TX_FRAMES, 0, 48⟩
abbrev LINK_RX_FRAMES_COUNT : Fld := ⟨R.LINK_RX_FRAMES, 0, 48⟩
abbrev LINK_RX_DROP_COUNT : Fld := ⟨R.LINK_RX_DROP, 0, 32⟩
abbrev LINK_RX_DROP_LAST : Fld := ⟨R.LINK_RX_DROP, 32, 3⟩
abbrev LINK_PFC_RX : Fld := ⟨R.LINK_PFC, 0, 32⟩
abbrev LINK_PFC_TX : Fld := ⟨R.LINK_PFC, 32, 32⟩
abbrev PT_TX_PKTS : Fld := ⟨R.PT_TX, 0, 48⟩
abbrev PT_RX_PKTS : Fld := ⟨R.PT_RX, 0, 48⟩
abbrev PT_RETX_PKTS : Fld := ⟨R.PT_RETX, 0, 48⟩
abbrev SWT_DROP_CRC : Fld := ⟨R.SWT_DROP, 0, 16⟩
abbrev SWT_DROP_AUTH : Fld := ⟨R.SWT_DROP, 16, 16⟩
abbrev SWT_DROP_CTX : Fld := ⟨R.SWT_DROP, 32, 16⟩
abbrev SWT_DROP_NOBUF : Fld := ⟨R.SWT_DROP, 48, 16⟩
abbrev SWT_DROP2_SEQ : Fld := ⟨R.SWT_DROP2, 0, 32⟩
abbrev SWT_DROP2_HDR : Fld := ⟨R.SWT_DROP2, 32, 32⟩
abbrev PT_ECN_CE : Fld := ⟨R.PT_ECN, 0, 32⟩
abbrev PT_ECN_CNP : Fld := ⟨R.PT_ECN, 32, 32⟩
abbrev ROCE_NAK_ACC : Fld := ⟨R.ROCE_NAK, 0, 16⟩
abbrev ROCE_NAK_INV : Fld := ⟨R.ROCE_NAK, 16, 16⟩
abbrev ROCE_NAK_RNR : Fld := ⟨R.ROCE_NAK, 32, 16⟩
abbrev ROCE_NAK_RD_POISON : Fld := ⟨R.ROCE_NAK, 48, 16⟩
abbrev SP_CFG_INTERVAL : Fld := ⟨R.SP_CFG, 0, 24⟩
abbrev SP_CFG_SHMIN : Fld := ⟨R.SP_CFG, 24, 16⟩
abbrev SP_CFG_SHRATE : Fld := ⟨R.SP_CFG, 40, 20⟩
abbrev SP_CFG2_DIGEST : Fld := ⟨R.SP_CFG2, 0, 16⟩
abbrev SP_TENS_COUNT : Fld := ⟨R.SP_TENS, 0, 11⟩
abbrev SP_TENS_SHADOWED : Fld := ⟨R.SP_TENS, 11, 11⟩
abbrev SP_TENS_SNAPPED : Fld := ⟨R.SP_TENS, 22, 11⟩
abbrev SP_COMMIT_STEP : Fld := ⟨R.SP_COMMIT, 0, 32⟩
abbrev SP_LINK_CTX : Fld := ⟨R.SP_LINK, 0, 13⟩
abbrev SP_LINK_VALID : Fld := ⟨R.SP_LINK, 13, 1⟩
abbrev SP_LINK_UP : Fld := ⟨R.SP_LINK, 14, 1⟩
abbrev SP_LINK_CATCHUP : Fld := ⟨R.SP_LINK, 15, 1⟩
abbrev SP_LINK_ACKED : Fld := ⟨R.SP_LINK, 16, 32⟩
abbrev SP_LAG_COMMITS : Fld := ⟨R.SP_LAG, 0, 32⟩
abbrev SP_LAG_LOST : Fld := ⟨R.SP_LAG, 32, 32⟩
abbrev SP_SNAP_ACTIVE : Fld := ⟨R.SP_SNAP, 0, 1⟩
abbrev SP_SNAP_BUF : Fld := ⟨R.SP_SNAP, 1, 1⟩
abbrev SP_SNAP_VALIDIMG : Fld := ⟨R.SP_SNAP, 2, 1⟩
abbrev SP_SNAP_DEFERRED : Fld := ⟨R.SP_SNAP, 3, 1⟩
abbrev SP_SNAP_STEP : Fld := ⟨R.SP_SNAP, 16, 32⟩
abbrev SP_SNAP_PROG_SENT : Fld := ⟨R.SP_SNAP_PROG, 0, 32⟩
abbrev SP_SNAP_PROG_TOTAL : Fld := ⟨R.SP_SNAP_PROG, 32, 32⟩
abbrev SP_SNAP_COUNT_DONE : Fld := ⟨R.SP_SNAP_COUNT, 0, 32⟩
abbrev SP_SNAP_COUNT_FAILED : Fld := ⟨R.SP_SNAP_COUNT, 32, 32⟩
abbrev SP_DIGEST_CHECKS : Fld := ⟨R.SP_DIGEST, 0, 32⟩
abbrev SP_DIGEST_MISMATCH : Fld := ⟨R.SP_DIGEST, 32, 32⟩
abbrev SP_DUE_TIME : Fld := ⟨R.SP_DUE, 0, 64⟩
abbrev SP_IN_CFG_CTX : Fld := ⟨R.SP_IN_CFG, 0, 13⟩
abbrev SP_IN_CFG_VALID : Fld := ⟨R.SP_IN_CFG, 13, 1⟩
abbrev SP_IN_CFG_LSTEPS : Fld := ⟨R.SP_IN_CFG, 14, 5⟩
abbrev SP_IN_CFG_LBASE : Fld := ⟨R.SP_IN_CFG, 19, 42⟩
abbrev SP_IN_STATE_STEP : Fld := ⟨R.SP_IN_STATE, 0, 32⟩
abbrev SP_IN_STATE_REPLAYING : Fld := ⟨R.SP_IN_STATE, 32, 1⟩
abbrev SP_IN_STATE_CATCHUP : Fld := ⟨R.SP_IN_STATE, 33, 1⟩
abbrev SP_IN_NOTICE_NTILE : Fld := ⟨R.SP_IN_NOTICE, 0, 13⟩
abbrev SP_IN_NOTICE_NADDR : Fld := ⟨R.SP_IN_NOTICE, 13, 19⟩
abbrev SP_IN_DONE_DONE : Fld := ⟨R.SP_IN_DONE, 0, 42⟩
abbrev SP_RISK_INDEX : Fld := ⟨R.SP_RISK, 0, 8⟩
abbrev SP_RISK_TIER : Fld := ⟨R.SP_RISK, 8, 2⟩
abbrev SP_RISK_CEPTS : Fld := ⟨R.SP_RISK, 16, 8⟩
abbrev SP_RISK_TEMPPTS : Fld := ⟨R.SP_RISK, 24, 8⟩
abbrev SP_RISK_FLAPPTS : Fld := ⟨R.SP_RISK, 32, 8⟩
abbrev SP_RISK_HOLDPTS : Fld := ⟨R.SP_RISK, 40, 8⟩
abbrev SP_RISK_UEPTS : Fld := ⟨R.SP_RISK, 48, 8⟩
abbrev SP_TIERCFG_T1 : Fld := ⟨R.SP_TIERCFG, 0, 8⟩
abbrev SP_TIERCFG_T2 : Fld := ⟨R.SP_TIERCFG, 8, 8⟩
abbrev SP_TIERCFG_T3 : Fld := ⟨R.SP_TIERCFG, 16, 8⟩
abbrev SP_TIERS_COUNT : Fld := ⟨R.SP_TIERS, 0, 32⟩
abbrev MB_STATUS_STATE : Fld := ⟨R.MB_STATUS, 0, 2⟩
abbrev MB_STATUS_SLOT : Fld := ⟨R.MB_STATUS, 2, 1⟩
abbrev MB_STATUS_PENDING : Fld := ⟨R.MB_STATUS, 3, 1⟩
abbrev MB_STATUS_PERSIST_PENDING : Fld := ⟨R.MB_STATUS, 4, 1⟩
abbrev MB_STATUS_SVN : Fld := ⟨R.MB_STATUS, 5, 7⟩
abbrev MB_STATUS_BOOTS : Fld := ⟨R.MB_STATUS, 32, 32⟩
abbrev MB_FWVER_VER_A : Fld := ⟨R.MB_FWVER, 0, 32⟩
abbrev MB_FWVER_VER_B : Fld := ⟨R.MB_FWVER, 32, 32⟩
abbrev MB_FWSVN_SVN_A : Fld := ⟨R.MB_FWSVN, 0, 16⟩
abbrev MB_FWSVN_SVN_B : Fld := ⟨R.MB_FWSVN, 16, 16⟩
abbrev MB_FWSVN_TRIES : Fld := ⟨R.MB_FWSVN, 32, 2⟩
abbrev MB_UPDATE_STATE : Fld := ⟨R.MB_UPDATE, 0, 3⟩
abbrev MB_UPDATE_LAST : Fld := ⟨R.MB_UPDATE, 16, 16⟩
abbrev MB_UPDATE_KIB : Fld := ⟨R.MB_UPDATE, 32, 26⟩
abbrev MB_PCAP_CAP : Fld := ⟨R.MB_PCAP, 0, 12⟩
abbrev MB_PCAP_CEIL : Fld := ⟨R.MB_PCAP, 12, 7⟩
abbrev MB_PCAP_ACTIVE : Fld := ⟨R.MB_PCAP, 19, 1⟩
abbrev MB_PCAP_UNREACH : Fld := ⟨R.MB_PCAP, 20, 1⟩
abbrev MB_PCAP_THROTTLE : Fld := ⟨R.MB_PCAP, 21, 1⟩
abbrev MB_POWER_P1MS : Fld := ⟨R.MB_POWER, 0, 16⟩
abbrev MB_POWER_P1S : Fld := ⟨R.MB_POWER, 16, 16⟩
abbrev MB_POWER_PEAK : Fld := ⟨R.MB_POWER, 32, 16⟩
abbrev MB_HOLDUP_EMJ : Fld := ⟨R.MB_HOLDUP, 0, 20⟩
abbrev MB_HOLDUP_VALID : Fld := ⟨R.MB_HOLDUP, 20, 1⟩
abbrev MB_HOLDUP_FAILED : Fld := ⟨R.MB_HOLDUP, 21, 1⟩
abbrev MB_HOLDUP_AGE : Fld := ⟨R.MB_HOLDUP, 32, 16⟩
abbrev MB_HOLDUP_REF_COUNT : Fld := ⟨R.MB_HOLDUP_REF, 0, 32⟩
abbrev MB_LOG_NEXT : Fld := ⟨R.MB_LOG, 0, 32⟩
abbrev MB_LOG_OLDEST : Fld := ⟨R.MB_LOG, 32, 32⟩
abbrev MB_LOG_BUF_BUFFERED : Fld := ⟨R.MB_LOG_BUF, 0, 13⟩
abbrev MB_LOG_BUF_LOST : Fld := ⟨R.MB_LOG_BUF, 32, 32⟩
abbrev MB_ALERT_BOOTFAIL : Fld := ⟨R.MB_ALERT, 0, 1⟩
abbrev MB_ALERT_THRESH : Fld := ⟨R.MB_ALERT, 1, 1⟩
abbrev MB_ALERT_HOLDUP : Fld := ⟨R.MB_ALERT, 2, 1⟩
abbrev MB_ALERT_UPDATE_FAIL : Fld := ⟨R.MB_ALERT, 3, 1⟩
abbrev MB_ALERT_HALL_FAULT : Fld := ⟨R.MB_ALERT, 4, 1⟩
abbrev MB_ALERT_ALERT_EN : Fld := ⟨R.MB_ALERT, 8, 5⟩
abbrev MB_FAULT_CLEAR_REQ : Fld := ⟨R.MB_FAULT_CLEAR, 0, 1⟩
abbrev MB_FAULT_CLEAR_BUSY : Fld := ⟨R.MB_FAULT_CLEAR, 1, 1⟩
abbrev MB_FAULT_CLEAR_FAILED : Fld := ⟨R.MB_FAULT_CLEAR, 2, 1⟩
abbrev MB_AQP_GID0_GID_LO : Fld := ⟨R.MB_AQP_GID0, 0, 64⟩
abbrev MB_AQP_GID1_GID_HI : Fld := ⟨R.MB_AQP_GID1, 0, 64⟩
abbrev MB_AQP_CFG_RQPN : Fld := ⟨R.MB_AQP_CFG, 0, 24⟩
abbrev MB_AQP_CFG_RPSN : Fld := ⟨R.MB_AQP_CFG, 24, 24⟩
abbrev MB_AQP_CFG_PORT : Fld := ⟨R.MB_AQP_CFG, 48, 2⟩
abbrev MB_AQP_CFG_MTU : Fld := ⟨R.MB_AQP_CFG, 50, 2⟩
abbrev MB_AQP_CFG_GIDX : Fld := ⟨R.MB_AQP_CFG, 52, 4⟩
abbrev MB_AQP_CTRL_CREATE : Fld := ⟨R.MB_AQP_CTRL, 0, 1⟩
abbrev MB_AQP_CTRL_UP : Fld := ⟨R.MB_AQP_CTRL, 1, 1⟩
abbrev MB_AQP_CTRL_QPN : Fld := ⟨R.MB_AQP_CTRL, 2, 24⟩
abbrev MB_AQP_CTRL_SPSN : Fld := ⟨R.MB_AQP_CTRL, 26, 24⟩
abbrev PWR_STATUS_RAILS_OK : Fld := ⟨R.PWR_STATUS, 0, 1⟩
abbrev PWR_STATUS_RESET_N : Fld := ⟨R.PWR_STATUS, 1, 1⟩
abbrev PWR_STATUS_THROTTLE_N : Fld := ⟨R.PWR_STATUS, 2, 1⟩
abbrev PWR_STATUS_PPS_IN : Fld := ⟨R.PWR_STATUS, 3, 1⟩
abbrev PWR_STATUS_ADDR : Fld := ⟨R.PWR_STATUS, 4, 3⟩
abbrev PWR_RESET_CAUSE : Fld := ⟨R.PWR_RESET, 0, 3⟩
abbrev PWR_GLITCH_RESET : Fld := ⟨R.PWR_GLITCH, 0, 16⟩
abbrev PWR_GLITCH_THROTTLE : Fld := ⟨R.PWR_GLITCH, 16, 16⟩
abbrev PWR_GLITCH_PPS : Fld := ⟨R.PWR_GLITCH, 32, 16⟩
abbrev PWR_REFCLK_PPM : Fld := ⟨R.PWR_REFCLK, 0, 16⟩
abbrev CLK_PPS_EN : Fld := ⟨R.CLK_PPS, 0, 1⟩
abbrev CLK_PPS_LOCKED : Fld := ⟨R.CLK_PPS, 1, 1⟩
abbrev CLK_PPS_LOST : Fld := ⟨R.CLK_PPS, 2, 1⟩
abbrev CLK_PPS_STEPPED : Fld := ⟨R.CLK_PPS, 3, 1⟩
abbrev CLK_PPS_OFFSET : Fld := ⟨R.CLK_PPS, 32, 32⟩
abbrev MB_SENSOR_VALUE : Fld := ⟨R.MB_SENSOR, 0, 32⟩
abbrev MB_SENSOR_KIND : Fld := ⟨R.MB_SENSOR, 32, 3⟩
abbrev MB_SENSOR_VALID : Fld := ⟨R.MB_SENSOR, 35, 1⟩
abbrev MB_SENSOR_WARN : Fld := ⟨R.MB_SENSOR, 36, 1⟩
abbrev MB_SENSOR_STALE : Fld := ⟨R.MB_SENSOR, 37, 1⟩

end F

/-- The registers of a `dev` block, by rising offset. -/
def regsOf_dev : List Reg :=
  [R.DEV_IDENT, R.DEV_SERIAL, R.DEV_STATUS, R.DEV_HALL_FAULT, R.DEV_HALL_FAULT_HI, R.DEV_TIME]
/-- The registers of a `owner` block, by rising offset. -/
def regsOf_owner : List Reg :=
  [R.PART_OWNER]
/-- The registers of a `land` block, by rising offset. -/
def regsOf_land : List Reg :=
  [R.LAND_NUM, R.LAND_VERDICT, R.LAND_CTRL, R.LAND_GROUP, R.LAND_OPENCNT, R.LAND_LATE, R.LAND_TIMEOUTS, R.LAND_ANOMALIES]
/-- The registers of a `sync` block, by rising offset. -/
def regsOf_sync : List Reg :=
  [R.SYNC_CFG, R.SYNC_COUNT, R.SYNC_GLITCH, R.SYNC_STATUS]
/-- The registers of a `cq` block, by rising offset. -/
def regsOf_cq : List Reg :=
  [R.CQ_CFG, R.CQ_TAIL, R.CQ_CHEAD, R.CQ_HEAD, R.CQ_STATUS, R.CQ_DONE, R.CQ_RKEY]
/-- The registers of a `ev` block, by rising offset. -/
def regsOf_ev : List Reg :=
  [R.EV_CFG, R.EV_HEAD, R.EV_TAIL, R.EV_LOST, R.EV_MASK]
/-- The registers of a `memc` block, by rising offset. -/
def regsOf_memc : List Reg :=
  [R.MEMC_STATUS, R.MEMC_CE, R.MEMC_BYTES_CE, R.MEMC_LINK_CE, R.MEMC_UE, R.MEMC_UE_FIRST, R.MEMC_SCRUB, R.MEMC_RFM, R.MEMC_CHK_MISS]
/-- The registers of a `gmem` block, by rising offset. -/
def regsOf_gmem : List Reg :=
  [R.GMEM_FRAMES, R.GMEM_REPAIR, R.GMEM_DIR, R.GMEM_PF_SKIP, R.GMEM_PF_CFG, R.GMEM_PF_PERIOD, R.GMEM_PF_STATE, R.GMEM_PF_DONE]
/-- The registers of a `coll` block, by rising offset. -/
def regsOf_coll : List Reg :=
  [R.COLL_PLAN, R.COLL_CAREA, R.COLL_CLIMIT, R.COLL_RAREA, R.COLL_RHALF, R.COLL_GROUP, R.COLL_STEP, R.COLL_WIN, R.COLL_FIRST_A, R.COLL_FIRST_B, R.COLL_FAIL, R.COLL_FAILS] ++
  [R.COLL_WDOG, R.COLL_SLOW, R.COLL_HELD_W, R.COLL_HELD_R, R.COLL_TX, R.COLL_RX, R.COLL_DONE, R.COLL_NPEER, R.COLL_RING, R.COLL_BUDDY]
/-- The registers of a `port` block, by rising offset. -/
def regsOf_port : List Reg :=
  [R.PORT_CFG, R.PORT_QOS, R.PORT_PTP, R.ROCE_ECN, R.SWT_PORT, R.SWT_CFG, R.LINK_STATUS, R.LINK_MAC, R.LINK_FEC_CW, R.LINK_FEC_UNC, R.LINK_FLAPS, R.LINK_TX_FRAMES] ++
  [R.LINK_RX_FRAMES, R.LINK_RX_DROP, R.LINK_PFC, R.PT_TX, R.PT_RX, R.PT_RETX, R.SWT_DROP, R.SWT_DROP2, R.PT_ECN, R.ROCE_NAK]
/-- The registers of a `sp` block, by rising offset. -/
def regsOf_sp : List Reg :=
  [R.SP_CFG, R.SP_CFG2, R.SP_TENS, R.SP_COMMIT, R.SP_LINK, R.SP_LAG, R.SP_SNAP, R.SP_SNAP_PROG, R.SP_SNAP_COUNT, R.SP_DIGEST, R.SP_DUE, R.SP_IN_CFG] ++
  [R.SP_IN_STATE, R.SP_IN_NOTICE, R.SP_IN_DONE]
/-- The registers of a `risk` block, by rising offset. -/
def regsOf_risk : List Reg :=
  [R.SP_RISK, R.SP_TIERCFG, R.SP_TIERS]
/-- The registers of a `mb` block, by rising offset. -/
def regsOf_mb : List Reg :=
  [R.MB_STATUS, R.MB_FWVER, R.MB_FWSVN, R.MB_UPDATE, R.MB_PCAP, R.MB_POWER, R.MB_HOLDUP, R.MB_HOLDUP_REF, R.MB_LOG, R.MB_LOG_BUF, R.MB_ALERT, R.MB_FAULT_CLEAR] ++
  [R.MB_AQP_GID0, R.MB_AQP_GID1, R.MB_AQP_CFG, R.MB_AQP_CTRL, R.PWR_STATUS, R.PWR_RESET, R.PWR_GLITCH, R.PWR_REFCLK, R.CLK_PPS, R.MB_SENSOR]

end Sys2Proof.Machine
end

