-- ==== Sys2Proof/Machine/RegsTile.lean ====
section
/-! DEFINITION. The registers of a tile block and of a hall block, with the fields, types and reset values of the spec's register tables. -/

namespace Sys2Proof.Machine

namespace R

/-- SEQ.STATE (Table 3.13). -/
def SEQ_STATE : Reg := ⟨.tile, 0x0, 0, 1, [⟨0, 3, .ro, 0⟩, ⟨4, 3, .ro, 0⟩, ⟨8, 8, .ro, 0⟩]⟩
/-- SEQ.PC (Table 3.13). -/
def SEQ_PC : Reg := ⟨.tile, 0x8, 0, 1, [⟨0, 17, .ro, 0⟩, ⟨32, 17, .ro, 0⟩]⟩
/-- SEQ.CODE (Table 3.13). -/
def SEQ_CODE : Reg := ⟨.tile, 0x10, 0, 1, [⟨0, 17, .ro, 0⟩, ⟨32, 17, .ro, 0⟩]⟩
/-- SEQ.HTAB (Table 3.13). -/
def SEQ_HTAB : Reg := ⟨.tile, 0x18, 0, 1, [⟨0, 16, .ro, 0⟩, ⟨16, 1, .ro, 0⟩]⟩
/-- SEQ.HBUDGET (Table 3.13). -/
def SEQ_HBUDGET : Reg := ⟨.tile, 0x20, 0, 1, [⟨0, 13, .ro, 0x100⟩]⟩
/-- SEQ.FAULT_A (Table 3.13). -/
def SEQ_FAULT_A : Reg := ⟨.tile, 0x28, 0, 1, [⟨0, 8, .ro, 0⟩, ⟨8, 1, .ro, 0⟩, ⟨9, 3, .ro, 0⟩, ⟨12, 17, .ro, 0⟩, ⟨29, 1, .ro, 0⟩]⟩
/-- SEQ.FAULT_B (Table 3.13). -/
def SEQ_FAULT_B : Reg := ⟨.tile, 0x30, 0, 1, [⟨0, 32, .ro, 0⟩, ⟨32, 19, .ro, 0⟩]⟩
/-- SEQ.QOCC (Table 3.13). -/
def SEQ_QOCC : Reg := ⟨.tile, 0x38, 0, 1, [⟨0, 5, .ro, 0⟩, ⟨8, 6, .ro, 0⟩, ⟨16, 7, .ro, 0⟩, ⟨24, 6, .ro, 0⟩, ⟨32, 5, .ro, 0⟩]⟩
/-- SEQ.SBOCC (Table 3.13). -/
def SEQ_SBOCC : Reg := ⟨.tile, 0x40, 0, 1, [⟨0, 6, .ro, 0⟩, ⟨8, 6, .rc, 0⟩]⟩
/-- SEQ.ISSUED_M (Table 3.13). -/
def SEQ_ISSUED_M : Reg := ⟨.tile, 0x48, 0, 1, [⟨0, 48, .rc, 0⟩]⟩
/-- SEQ.ISSUED_H (Table 3.13). -/
def SEQ_ISSUED_H : Reg := ⟨.tile, 0x50, 0, 1, [⟨0, 48, .rc, 0⟩]⟩
/-- SEQ.STALL_QFULL (Table 3.13). -/
def SEQ_STALL_QFULL : Reg := ⟨.tile, 0x58, 0, 1, [⟨0, 48, .rc, 0⟩]⟩
/-- SEQ.STALL_SBFULL (Table 3.13). -/
def SEQ_STALL_SBFULL : Reg := ⟨.tile, 0x60, 0, 1, [⟨0, 48, .rc, 0⟩]⟩
/-- SEQ.STALL_DATA (Table 3.13). -/
def SEQ_STALL_DATA : Reg := ⟨.tile, 0x68, 0, 1, [⟨0, 48, .rc, 0⟩]⟩
/-- SEQ.FETCH_MISS (Table 3.13). -/
def SEQ_FETCH_MISS : Reg := ⟨.tile, 0x70, 0, 1, [⟨0, 48, .rc, 0⟩]⟩
/-- SEQ.HANDLED (Table 3.13). -/
def SEQ_HANDLED : Reg := ⟨.tile, 0x78, 0, 1, [⟨0, 48, .rc, 0⟩]⟩
/-- SEQ.VL (Table 3.13). -/
def SEQ_VL : Reg := ⟨.tile, 0x80, 0, 1, [⟨0, 13, .ro, 0⟩, ⟨16, 13, .ro, 0⟩]⟩
/-- ENG.MX_BUSY (Table 4.10). -/
def ENG_MX_BUSY : Reg := ⟨.tile, 0x90, 0, 1, [⟨0, 48, .rc, 0⟩]⟩
/-- ENG.MX_KSTEPS (Table 4.10). -/
def ENG_MX_KSTEPS : Reg := ⟨.tile, 0x98, 0, 1, [⟨0, 48, .rc, 0⟩]⟩
/-- ENG.VX_BUSY (Table 4.10). -/
def ENG_VX_BUSY : Reg := ⟨.tile, 0xa0, 0, 1, [⟨0, 48, .rc, 0⟩]⟩
/-- ENG.VX_ELEMS (Table 4.10). -/
def ENG_VX_ELEMS : Reg := ⟨.tile, 0xa8, 0, 1, [⟨0, 48, .rc, 0⟩]⟩
/-- ENG.ST_WG (Table 4.10). -/
def ENG_ST_WG : Reg := ⟨.tile, 0xb0, 0, 1, [⟨0, 48, .rc, 0⟩]⟩
/-- ENG.ST_WINDOW (Table 4.10). -/
def ENG_ST_WINDOW : Reg := ⟨.tile, 0xb8, 0, 1, [⟨0, 48, .rc, 0⟩]⟩
/-- TILE.TSTAT (Table 2.9). -/
def TILE_TSTAT : Reg := ⟨.tile, 0x100, 0, 1, [⟨0, 1, .w1c, 0⟩, ⟨1, 1, .w1c, 0⟩, ⟨2, 1, .w1c, 0⟩, ⟨3, 1, .w1c, 0⟩, ⟨4, 1, .w1c, 0⟩]⟩
/-- TILE.IEEE_FLAGS (Table 2.9). -/
def TILE_IEEE_FLAGS : Reg := ⟨.tile, 0x108, 0, 1, [⟨0, 1, .w1c, 0⟩, ⟨1, 1, .w1c, 0⟩, ⟨2, 1, .w1c, 0⟩, ⟨3, 1, .w1c, 0⟩, ⟨4, 1, .w1c, 0⟩]⟩
/-- TILE.VSTAT (Table 2.9). -/
def TILE_VSTAT : Reg := ⟨.tile, 0x110, 0, 1, [⟨0, 1, .w1c, 0⟩, ⟨1, 1, .w1c, 0⟩]⟩
/-- TILE.QCRUSH (Table 2.9). -/
def TILE_QCRUSH : Reg := ⟨.tile, 0x118, 0, 1, [⟨0, 32, .rc, 0⟩]⟩
/-- TILE.AMODE (Table 2.9). -/
def TILE_AMODE : Reg := ⟨.tile, 0x120, 0, 1, [⟨0, 1, .rw, 0⟩]⟩
/-- TILE.AMASK (Table 2.9). -/
def TILE_AMASK : Reg := ⟨.tile, 0x128, 0, 1, [⟨0, 5, .rw, 7⟩, ⟨8, 5, .rw, 7⟩]⟩
/-- TILE.SR_SEED (Table 2.9). -/
def TILE_SR_SEED : Reg := ⟨.tile, 0x130, 0, 1, [⟨0, 64, .rw, 0⟩]⟩
/-- TILE.SR_SEQ (Table 2.9). -/
def TILE_SR_SEQ : Reg := ⟨.tile, 0x138, 0, 1, [⟨0, 28, .ro, 0⟩, ⟨32, 28, .ro, 0⟩]⟩
/-- TILE.TFIRST_A(k) (Table 2.9). -/
def TILE_TFIRST_A : Reg := ⟨.tile, 0x140, 16, 5, [⟨0, 32, .ro, 0⟩, ⟨32, 17, .ro, 0⟩, ⟨49, 3, .ro, 0⟩, ⟨52, 1, .ro, 0⟩]⟩
/-- TILE.TFIRST_B(k) (Table 2.9). -/
def TILE_TFIRST_B : Reg := ⟨.tile, 0x148, 16, 5, [⟨0, 16, .ro, 0⟩, ⟨16, 16, .ro, 0⟩, ⟨32, 10, .ro, 0⟩]⟩
/-- TILE.SEG (Table 5.6). -/
def TILE_SEG : Reg := ⟨.tile, 0x200, 0, 1, [⟨0, 8, .ro, 1⟩, ⟨8, 8, .ro, 0⟩]⟩
/-- TILE.ECC_CE (Table 5.6). -/
def TILE_ECC_CE : Reg := ⟨.tile, 0x208, 0, 1, [⟨0, 48, .ro, 0⟩]⟩
/-- TILE.ECC_UE (Table 5.6). -/
def TILE_ECC_UE : Reg := ⟨.tile, 0x210, 0, 1, [⟨0, 48, .ro, 0⟩]⟩
/-- TILE.UE_FIRST (Table 5.6). -/
def TILE_UE_FIRST : Reg := ⟨.tile, 0x218, 0, 1, [⟨0, 19, .ro, 0⟩, ⟨19, 3, .ro, 0⟩, ⟨22, 1, .w1c, 0⟩, ⟨32, 32, .ro, 0⟩]⟩
/-- TILE.SCRUB (Table 5.6). -/
def TILE_SCRUB : Reg := ⟨.tile, 0x220, 0, 1, [⟨0, 32, .ro, 0⟩, ⟨32, 1, .ro, 0⟩]⟩
/-- TILE.POISON_RD (Table 5.6). -/
def TILE_POISON_RD : Reg := ⟨.tile, 0x228, 0, 1, [⟨0, 32, .rc, 0⟩]⟩
/-- TILE.ALCOVE_VIOL (Table 5.6). -/
def TILE_ALCOVE_VIOL : Reg := ⟨.tile, 0x230, 0, 1, [⟨0, 32, .rc, 0⟩]⟩
/-- TILE.VIOL_LAST (Table 5.6). -/
def TILE_VIOL_LAST : Reg := ⟨.tile, 0x238, 0, 1, [⟨0, 19, .ro, 0⟩, ⟨19, 3, .ro, 0⟩, ⟨22, 4, .ro, 0⟩, ⟨26, 2, .ro, 0⟩, ⟨28, 2, .ro, 0⟩, ⟨30, 3, .ro, 0⟩, ⟨33, 1, .ro, 0⟩]⟩
/-- TILE.ALC_OPEN (Table 5.6). -/
def TILE_ALC_OPEN : Reg := ⟨.tile, 0x240, 0, 1, [⟨0, 16, .ro, 0⟩]⟩
/-- TILE.ALC_A(k) (Table 5.6). -/
def TILE_ALC_A : Reg := ⟨.tile, 0x300, 16, 16, [⟨0, 64, .ro, 0⟩]⟩
/-- TILE.ALC_B(k) (Table 5.6). -/
def TILE_ALC_B : Reg := ⟨.tile, 0x308, 16, 16, [⟨0, 32, .ro, 0⟩]⟩
/-- XC.RECV (Table 6.10). -/
def XC_RECV : Reg := ⟨.tile, 0x400, 0, 1, [⟨0, 21, .ro, 0⟩]⟩
/-- XC.STATE (Table 6.10). -/
def XC_STATE : Reg := ⟨.tile, 0x408, 0, 1, [⟨0, 13, .ro, 0⟩, ⟨13, 7, .ro, 0⟩, ⟨20, 1, .ro, 0⟩]⟩
/-- XC.NACK (Table 6.10). -/
def XC_NACK : Reg := ⟨.tile, 0x410, 0, 1, [⟨0, 32, .rc, 0⟩]⟩
/-- XC.NACK_LAST (Table 6.10). -/
def XC_NACK_LAST : Reg := ⟨.tile, 0x418, 0, 1, [⟨0, 13, .ro, 0⟩, ⟨13, 13, .ro, 0⟩, ⟨26, 3, .ro, 0⟩, ⟨32, 32, .ro, 0⟩]⟩
/-- XC.SENT (Table 6.10). -/
def XC_SENT : Reg := ⟨.tile, 0x420, 0, 1, [⟨0, 48, .rc, 0⟩]⟩
/-- XC.RECEIVED (Table 6.10). -/
def XC_RECEIVED : Reg := ⟨.tile, 0x428, 0, 1, [⟨0, 48, .rc, 0⟩]⟩
/-- XC.CREDIT_WAIT (Table 6.10). -/
def XC_CREDIT_WAIT : Reg := ⟨.tile, 0x430, 0, 1, [⟨0, 48, .rc, 0⟩]⟩
/-- XC.LAND_WAIT (Table 6.10). -/
def XC_LAND_WAIT : Reg := ⟨.tile, 0x438, 0, 1, [⟨0, 48, .rc, 0⟩]⟩
/-- CHO.CFG(j) (Table 7.13). -/
def CHO_CFG : Reg := ⟨.tile, 0x800, 32, 64, [⟨0, 1, .ro, 0⟩, ⟨1, 2, .ro, 0⟩, ⟨3, 13, .ro, 0⟩, ⟨16, 13, .ro, 0⟩, ⟨29, 2, .ro, 0⟩, ⟨31, 1, .ro, 0⟩, ⟨32, 9, .ro, 0⟩, ⟨41, 17, .ro, 0⟩, ⟨58, 6, .ro, 0⟩]⟩
/-- CHO.STATE(j) (Table 7.13). -/
def CHO_STATE : Reg := ⟨.tile, 0x808, 32, 64, [⟨0, 17, .ro, 0⟩, ⟨17, 17, .ro, 0⟩, ⟨34, 19, .ro, 0⟩, ⟨53, 7, .ro, 0⟩, ⟨60, 1, .ro, 0⟩]⟩
/-- CHO.TRAFFIC(j) (Table 7.13). -/
def CHO_TRAFFIC : Reg := ⟨.tile, 0x810, 32, 64, [⟨0, 32, .rc, 0⟩, ⟨32, 32, .rc, 0⟩]⟩
/-- CHO.STALL(j) (Table 7.13). -/
def CHO_STALL : Reg := ⟨.tile, 0x818, 32, 64, [⟨0, 48, .rc, 0⟩, ⟨48, 16, .rc, 0⟩]⟩
/-- CHI.CFG(k) (Table 7.14). -/
def CHI_CFG : Reg := ⟨.tile, 0x1000, 32, 64, [⟨0, 1, .ro, 0⟩, ⟨1, 2, .ro, 0⟩, ⟨3, 13, .ro, 0⟩, ⟨16, 13, .ro, 0⟩, ⟨29, 6, .ro, 0⟩, ⟨35, 8, .ro, 0⟩, ⟨43, 4, .ro, 0⟩, ⟨47, 1, .ro, 0⟩, ⟨48, 1, .ro, 0⟩, ⟨49, 2, .ro, 0⟩, ⟨51, 6, .ro, 0⟩]⟩
/-- CHI.STATE(k) (Table 7.14). -/
def CHI_STATE : Reg := ⟨.tile, 0x1008, 32, 64, [⟨0, 19, .ro, 0⟩, ⟨19, 17, .ro, 0⟩, ⟨36, 16, .ro, 0⟩, ⟨52, 12, .ro, 0⟩]⟩
/-- CHI.TRAFFIC(k) (Table 7.14). -/
def CHI_TRAFFIC : Reg := ⟨.tile, 0x1010, 32, 64, [⟨0, 32, .rc, 0⟩, ⟨32, 24, .rc, 0⟩, ⟨56, 8, .rc, 0⟩]⟩
/-- CHI.WAIT(k) (Table 7.14). -/
def CHI_WAIT : Reg := ⟨.tile, 0x1018, 32, 64, [⟨0, 40, .rc, 0⟩, ⟨40, 20, .rc, 0⟩]⟩
/-- DBG.CTRL (Table 3.14). -/
def DBG_CTRL : Reg := ⟨.tile, 0x2000, 0, 1, [⟨0, 1, .w1s, 0⟩, ⟨1, 1, .wo, 0⟩, ⟨2, 1, .wo, 0⟩, ⟨3, 1, .ro, 0⟩, ⟨4, 1, .w1c, 0⟩, ⟨5, 2, .ro, 0⟩]⟩
/-- DBG.BP(k) (Table 3.14). -/
def DBG_BP : Reg := ⟨.tile, 0x2008, 8, 4, [⟨0, 17, .rw, 0⟩, ⟨17, 1, .rw, 0⟩, ⟨18, 1, .rw, 0⟩]⟩
/-- DBG.WADDR (Table 3.14). -/
def DBG_WADDR : Reg := ⟨.tile, 0x2028, 0, 1, [⟨0, 19, .rw, 0⟩]⟩
/-- DBG.WDATA_LO (Table 3.14). -/
def DBG_WDATA_LO : Reg := ⟨.tile, 0x2030, 0, 1, [⟨0, 64, .ro, 0⟩]⟩
/-- DBG.WDATA_HI (Table 3.14). -/
def DBG_WDATA_HI : Reg := ⟨.tile, 0x2038, 0, 1, [⟨0, 32, .ro, 0⟩, ⟨32, 1, .ro, 0⟩, ⟨33, 1, .ro, 0⟩]⟩
/-- DBG.SSEL (Table 3.14). -/
def DBG_SSEL : Reg := ⟨.tile, 0x2040, 0, 1, [⟨0, 5, .rw, 0⟩, ⟨5, 1, .rw, 0⟩]⟩
/-- DBG.SDATA (Table 3.14). -/
def DBG_SDATA : Reg := ⟨.tile, 0x2048, 0, 1, [⟨0, 48, .ro, 0⟩, ⟨48, 8, .ro, 1⟩]⟩
/-- HALL.CLK (Table 1.10). -/
def HALL_CLK : Reg := ⟨.hall, 0x0, 0, 1, [⟨0, 7, .rw, 0x18⟩, ⟨8, 7, .ro, 0x18⟩, ⟨15, 1, .ro, 0⟩, ⟨16, 1, .ro, 0⟩]⟩
/-- HALL.ASUM (Table 2.10). -/
def HALL_ASUM : Reg := ⟨.hall, 0x100, 0, 1, [⟨0, 64, .ro, 0⟩]⟩
/-- HALL.XB_C0 (Table 5.7). -/
def HALL_XB_C0 : Reg := ⟨.hall, 0x1000, 0, 1, [⟨0, 48, .rc, 0⟩]⟩
/-- HALL.XB_AGED (Table 5.7). -/
def HALL_XB_AGED : Reg := ⟨.hall, 0x1008, 0, 1, [⟨0, 48, .rc, 0⟩]⟩
/-- HALL.UXB_BUSY (Table 5.7). -/
def HALL_UXB_BUSY : Reg := ⟨.hall, 0x1010, 0, 1, [⟨0, 48, .rc, 0⟩]⟩
/-- HALL.GAL_CE (Table 5.7). -/
def HALL_GAL_CE : Reg := ⟨.hall, 0x2000, 0, 1, [⟨0, 48, .ro, 0⟩, ⟨48, 3, .ro, 0⟩]⟩
/-- HALL.GAL_UE (Table 5.7). -/
def HALL_GAL_UE : Reg := ⟨.hall, 0x2008, 0, 1, [⟨0, 48, .ro, 0⟩]⟩
/-- HALL.GAL_UE_FIRST (Table 5.7). -/
def HALL_GAL_UE_FIRST : Reg := ⟨.hall, 0x2010, 0, 1, [⟨0, 17, .ro, 0⟩, ⟨17, 3, .ro, 0⟩, ⟨20, 1, .w1c, 0⟩, ⟨32, 32, .ro, 0⟩]⟩
/-- HALL.GAL_REFETCH (Table 5.7). -/
def HALL_GAL_REFETCH : Reg := ⟨.hall, 0x2018, 0, 1, [⟨0, 48, .ro, 0⟩]⟩
/-- HALL.GAL_SCRUB (Table 5.7). -/
def HALL_GAL_SCRUB : Reg := ⟨.hall, 0x2020, 0, 1, [⟨0, 32, .ro, 0⟩, ⟨32, 8, .ro, 0⟩]⟩
/-- HALL.SW_OUT (Table 8.11). -/
def HALL_SW_OUT : Reg := ⟨.hall, 0x4000, 0, 1, [⟨0, 13, .ro, 0⟩, ⟨16, 13, .rc, 0⟩]⟩
/-- HALL.SW_FILL (Table 8.11). -/
def HALL_SW_FILL : Reg := ⟨.hall, 0x4008, 0, 1, [⟨0, 48, .rc, 0⟩]⟩
/-- HALL.SW_PFILL (Table 8.11). -/
def HALL_SW_PFILL : Reg := ⟨.hall, 0x4010, 0, 1, [⟨0, 48, .rc, 0⟩]⟩
/-- HALL.SW_REMOTE (Table 8.11). -/
def HALL_SW_REMOTE : Reg := ⟨.hall, 0x4018, 0, 1, [⟨0, 48, .rc, 0⟩]⟩
/-- HALL.SW_WB (Table 8.11). -/
def HALL_SW_WB : Reg := ⟨.hall, 0x4020, 0, 1, [⟨0, 48, .rc, 0⟩]⟩
/-- HALL.PF_LATE (Table 8.11). -/
def HALL_PF_LATE : Reg := ⟨.hall, 0x4028, 0, 1, [⟨0, 32, .rc, 0⟩, ⟨32, 16, .ro, 0⟩, ⟨48, 1, .w1c, 0⟩]⟩
/-- HALL.PF_LATE_FLIGHT (Table 8.11). -/
def HALL_PF_LATE_FLIGHT : Reg := ⟨.hall, 0x4030, 0, 1, [⟨0, 32, .ro, 0⟩]⟩
/-- HALL.SW_FAULT (Table 8.11). -/
def HALL_SW_FAULT : Reg := ⟨.hall, 0x4038, 0, 1, [⟨0, 19, .ro, 0⟩, ⟨19, 1, .ro, 0⟩, ⟨20, 2, .ro, 0⟩, ⟨22, 1, .w1c, 0⟩, ⟨32, 32, .ro, 0⟩]⟩
/-- HALL.CBW_WAIT (Table 8.11). -/
def HALL_CBW_WAIT : Reg := ⟨.hall, 0x4040, 0, 1, [⟨0, 48, .rc, 0⟩]⟩
/-- HALL.SW_REPAIR (Table 8.11). -/
def HALL_SW_REPAIR : Reg := ⟨.hall, 0x4048, 0, 1, [⟨0, 32, .rc, 0⟩]⟩
/-- HALL.QPOOL_FREE (Table 7.15). -/
def HALL_QPOOL_FREE : Reg := ⟨.hall, 0x8000, 0, 1, [⟨0, 17, .ro, 0xfc00⟩, ⟨17, 11, .ro, 0x400⟩]⟩
/-- HALL.QPOOL_CE (Table 7.15). -/
def HALL_QPOOL_CE : Reg := ⟨.hall, 0x8008, 0, 1, [⟨0, 48, .ro, 0⟩]⟩
/-- HALL.QPOOL_UE (Table 7.15). -/
def HALL_QPOOL_UE : Reg := ⟨.hall, 0x8010, 0, 1, [⟨0, 32, .ro, 0⟩, ⟨32, 6, .ro, 0⟩, ⟨38, 1, .w1c, 0⟩]⟩
/-- HALL.SPILL_WG (Table 7.15). -/
def HALL_SPILL_WG : Reg := ⟨.hall, 0x8018, 0, 1, [⟨0, 48, .rc, 0⟩]⟩
/-- HALL.QCFG(t) (Table 7.15). -/
def HALL_QCFG : Reg := ⟨.hall, 0x8400, 32, 64, [⟨0, 17, .ro, 0x3f0⟩]⟩
/-- HALL.QDEPTH(t) (Table 7.15). -/
def HALL_QDEPTH : Reg := ⟨.hall, 0x8408, 32, 64, [⟨0, 17, .ro, 0⟩, ⟨17, 17, .rc, 0⟩, ⟨34, 5, .ro, 0⟩]⟩
/-- HALL.MSG_NACK(t) (Table 7.15). -/
def HALL_MSG_NACK : Reg := ⟨.hall, 0x8410, 32, 64, [⟨0, 32, .rc, 0⟩, ⟨32, 4, .ro, 0⟩, ⟨36, 6, .ro, 0⟩]⟩
/-- HALL.MSG_PORT(t) (Table 7.15). -/
def HALL_MSG_PORT : Reg := ⟨.hall, 0x8418, 32, 64, [⟨0, 7, .ro, 0⟩, ⟨16, 32, .rc, 0⟩]⟩
/-- HALL.XPART_DROP (Table 1.10). -/
def HALL_XPART_DROP : Reg := ⟨.hall, 0x10100, 0, 1, [⟨0, 32, .rc, 0⟩, ⟨32, 3, .ro, 0⟩, ⟨35, 7, .ro, 0⟩]⟩
/-- HALL.MC_REPL (Table 6.11). -/
def HALL_MC_REPL : Reg := ⟨.hall, 0x10108, 0, 1, [⟨0, 48, .rc, 0⟩]⟩
/-- HALL.RED_DONE (Table 6.11). -/
def HALL_RED_DONE : Reg := ⟨.hall, 0x10110, 0, 1, [⟨0, 32, .rc, 0⟩]⟩
/-- HALL.RED_REFUSED (Table 6.11). -/
def HALL_RED_REFUSED : Reg := ⟨.hall, 0x10118, 0, 1, [⟨0, 32, .rc, 0⟩, ⟨32, 12, .ro, 0⟩]⟩
/-- HALL.RED_PENDING (Table 6.11). -/
def HALL_RED_PENDING : Reg := ⟨.hall, 0x10120, 0, 1, [⟨0, 14, .ro, 0⟩]⟩
/-- HALL.TEMP (Table 14.13). -/
def HALL_TEMP : Reg := ⟨.hall, 0x20000, 0, 1, [⟨0, 16, .ro, 0⟩, ⟨16, 16, .rc, 0⟩, ⟨32, 7, .ro, 0x48⟩]⟩
/-- HALL.CLEARED (Table 14.13). -/
def HALL_CLEARED : Reg := ⟨.hall, 0x20008, 0, 1, [⟨0, 25, .ro, 0⟩, ⟨25, 20, .ro, 0⟩, ⟨45, 17, .ro, 0⟩]⟩

end R

namespace F

abbrev SEQ_STATE_MAIN : Fld := ⟨R.SEQ_STATE, 0, 3⟩
abbrev SEQ_STATE_HAND : Fld := ⟨R.SEQ_STATE, 4, 3⟩
abbrev SEQ_STATE_HNUM : Fld := ⟨R.SEQ_STATE, 8, 8⟩
abbrev SEQ_PC_MPC : Fld := ⟨R.SEQ_PC, 0, 17⟩
abbrev SEQ_PC_HPC : Fld := ⟨R.SEQ_PC, 32, 17⟩
abbrev SEQ_CODE_BASE : Fld := ⟨R.SEQ_CODE, 0, 17⟩
abbrev SEQ_CODE_LIMIT : Fld := ⟨R.SEQ_CODE, 32, 17⟩
abbrev SEQ_HTAB_BASE : Fld := ⟨R.SEQ_HTAB, 0, 16⟩
abbrev SEQ_HTAB_HEN : Fld := ⟨R.SEQ_HTAB, 16, 1⟩
abbrev SEQ_HBUDGET_LIMIT : Fld := ⟨R.SEQ_HBUDGET, 0, 13⟩
abbrev SEQ_FAULT_A_CAUSE : Fld := ⟨R.SEQ_FAULT_A, 0, 8⟩
abbrev SEQ_FAULT_A_CTX : Fld := ⟨R.SEQ_FAULT_A, 8, 1⟩
abbrev SEQ_FAULT_A_ENGINE : Fld := ⟨R.SEQ_FAULT_A, 9, 3⟩
abbrev SEQ_FAULT_A_IADDR : Fld := ⟨R.SEQ_FAULT_A, 12, 17⟩
abbrev SEQ_FAULT_A_VALID : Fld := ⟨R.SEQ_FAULT_A, 29, 1⟩
abbrev SEQ_FAULT_B_FLIGHT : Fld := ⟨R.SEQ_FAULT_B, 0, 32⟩
abbrev SEQ_FAULT_B_WADDR : Fld := ⟨R.SEQ_FAULT_B, 32, 19⟩
abbrev SEQ_QOCC_MX : Fld := ⟨R.SEQ_QOCC, 0, 5⟩
abbrev SEQ_QOCC_VX : Fld := ⟨R.SEQ_QOCC, 8, 6⟩
abbrev SEQ_QOCC_ST : Fld := ⟨R.SEQ_QOCC, 16, 7⟩
abbrev SEQ_QOCC_XC : Fld := ⟨R.SEQ_QOCC, 24, 6⟩
abbrev SEQ_QOCC_MSG : Fld := ⟨R.SEQ_QOCC, 32, 5⟩
abbrev SEQ_SBOCC_USED : Fld := ⟨R.SEQ_SBOCC, 0, 6⟩
abbrev SEQ_SBOCC_HWM : Fld := ⟨R.SEQ_SBOCC, 8, 6⟩
abbrev SEQ_ISSUED_M_COUNT : Fld := ⟨R.SEQ_ISSUED_M, 0, 48⟩
abbrev SEQ_ISSUED_H_COUNT : Fld := ⟨R.SEQ_ISSUED_H, 0, 48⟩
abbrev SEQ_STALL_QFULL_COUNT : Fld := ⟨R.SEQ_STALL_QFULL, 0, 48⟩
abbrev SEQ_STALL_SBFULL_COUNT : Fld := ⟨R.SEQ_STALL_SBFULL, 0, 48⟩
abbrev SEQ_STALL_DATA_COUNT : Fld := ⟨R.SEQ_STALL_DATA, 0, 48⟩
abbrev SEQ_FETCH_MISS_COUNT : Fld := ⟨R.SEQ_FETCH_MISS, 0, 48⟩
abbrev SEQ_HANDLED_COUNT : Fld := ⟨R.SEQ_HANDLED, 0, 48⟩
abbrev SEQ_VL_MAIN : Fld := ⟨R.SEQ_VL, 0, 13⟩
abbrev SEQ_VL_HAND : Fld := ⟨R.SEQ_VL, 16, 13⟩
abbrev ENG_MX_BUSY_COUNT : Fld := ⟨R.ENG_MX_BUSY, 0, 48⟩
abbrev ENG_MX_KSTEPS_COUNT : Fld := ⟨R.ENG_MX_KSTEPS, 0, 48⟩
abbrev ENG_VX_BUSY_COUNT : Fld := ⟨R.ENG_VX_BUSY, 0, 48⟩
abbrev ENG_VX_ELEMS_COUNT : Fld := ⟨R.ENG_VX_ELEMS, 0, 48⟩
abbrev ENG_ST_WG_COUNT : Fld := ⟨R.ENG_ST_WG, 0, 48⟩
abbrev ENG_ST_WINDOW_COUNT : Fld := ⟨R.ENG_ST_WINDOW, 0, 48⟩
abbrev TILE_TSTAT_INV : Fld := ⟨R.TILE_TSTAT, 0, 1⟩
abbrev TILE_TSTAT_NAN_IN : Fld := ⟨R.TILE_TSTAT, 1, 1⟩
abbrev TILE_TSTAT_OVF : Fld := ⟨R.TILE_TSTAT, 2, 1⟩
abbrev TILE_TSTAT_SAT : Fld := ⟨R.TILE_TSTAT, 3, 1⟩
abbrev TILE_TSTAT_CRUSH : Fld := ⟨R.TILE_TSTAT, 4, 1⟩
abbrev TILE_IEEE_FLAGS_IV : Fld := ⟨R.TILE_IEEE_FLAGS, 0, 1⟩
abbrev TILE_IEEE_FLAGS_DZ : Fld := ⟨R.TILE_IEEE_FLAGS, 1, 1⟩
abbrev TILE_IEEE_FLAGS_OF : Fld := ⟨R.TILE_IEEE_FLAGS, 2, 1⟩
abbrev TILE_IEEE_FLAGS_UF : Fld := ⟨R.TILE_IEEE_FLAGS, 3, 1⟩
abbrev TILE_IEEE_FLAGS_IX : Fld := ⟨R.TILE_IEEE_FLAGS, 4, 1⟩
abbrev TILE_VSTAT_EMPTY : Fld := ⟨R.TILE_VSTAT, 0, 1⟩
abbrev TILE_VSTAT_RANGE : Fld := ⟨R.TILE_VSTAT, 1, 1⟩
abbrev TILE_QCRUSH_COUNT : Fld := ⟨R.TILE_QCRUSH, 0, 32⟩
abbrev TILE_AMODE_OVF_NAN : Fld := ⟨R.TILE_AMODE, 0, 1⟩
abbrev TILE_AMASK_TMASK : Fld := ⟨R.TILE_AMASK, 0, 5⟩
abbrev TILE_AMASK_IMASK : Fld := ⟨R.TILE_AMASK, 8, 5⟩
abbrev TILE_SR_SEED_SEED : Fld := ⟨R.TILE_SR_SEED, 0, 64⟩
abbrev TILE_SR_SEQ_QMAIN : Fld := ⟨R.TILE_SR_SEQ, 0, 28⟩
abbrev TILE_SR_SEQ_QHANDLER : Fld := ⟨R.TILE_SR_SEQ, 32, 28⟩
abbrev TILE_TFIRST_A_FLIGHT : Fld := ⟨R.TILE_TFIRST_A, 0, 32⟩
abbrev TILE_TFIRST_A_IADDR : Fld := ⟨R.TILE_TFIRST_A, 32, 17⟩
abbrev TILE_TFIRST_A_ENGINE : Fld := ⟨R.TILE_TFIRST_A, 49, 3⟩
abbrev TILE_TFIRST_A_VALID : Fld := ⟨R.TILE_TFIRST_A, 52, 1⟩
abbrev TILE_TFIRST_B_ROW : Fld := ⟨R.TILE_TFIRST_B, 0, 16⟩
abbrev TILE_TFIRST_B_COL : Fld := ⟨R.TILE_TFIRST_B, 16, 16⟩
abbrev TILE_TFIRST_B_ELEM : Fld := ⟨R.TILE_TFIRST_B, 32, 10⟩
abbrev TILE_SEG_ON : Fld := ⟨R.TILE_SEG, 0, 8⟩
abbrev TILE_SEG_CLEARING : Fld := ⟨R.TILE_SEG, 8, 8⟩
abbrev TILE_ECC_CE_COUNT : Fld := ⟨R.TILE_ECC_CE, 0, 48⟩
abbrev TILE_ECC_UE_COUNT : Fld := ⟨R.TILE_ECC_UE, 0, 48⟩
abbrev TILE_UE_FIRST_ADDR : Fld := ⟨R.TILE_UE_FIRST, 0, 19⟩
abbrev TILE_UE_FIRST_SRC : Fld := ⟨R.TILE_UE_FIRST, 19, 3⟩
abbrev TILE_UE_FIRST_VALID : Fld := ⟨R.TILE_UE_FIRST, 22, 1⟩
abbrev TILE_UE_FIRST_FLIGHT : Fld := ⟨R.TILE_UE_FIRST, 32, 32⟩
abbrev TILE_SCRUB_PASSES : Fld := ⟨R.TILE_SCRUB, 0, 32⟩
abbrev TILE_SCRUB_FORCED : Fld := ⟨R.TILE_SCRUB, 32, 1⟩
abbrev TILE_POISON_RD_COUNT : Fld := ⟨R.TILE_POISON_RD, 0, 32⟩
abbrev TILE_ALCOVE_VIOL_COUNT : Fld := ⟨R.TILE_ALCOVE_VIOL, 0, 32⟩
abbrev TILE_VIOL_LAST_ADDR : Fld := ⟨R.TILE_VIOL_LAST, 0, 19⟩
abbrev TILE_VIOL_LAST_REASON : Fld := ⟨R.TILE_VIOL_LAST, 19, 3⟩
abbrev TILE_VIOL_LAST_ALC : Fld := ⟨R.TILE_VIOL_LAST, 22, 4⟩
abbrev TILE_VIOL_LAST_CLASS : Fld := ⟨R.TILE_VIOL_LAST, 26, 2⟩
abbrev TILE_VIOL_LAST_KIND : Fld := ⟨R.TILE_VIOL_LAST, 28, 2⟩
abbrev TILE_VIOL_LAST_SRCPART : Fld := ⟨R.TILE_VIOL_LAST, 30, 3⟩
abbrev TILE_VIOL_LAST_OP : Fld := ⟨R.TILE_VIOL_LAST, 33, 1⟩
abbrev TILE_ALC_OPEN_OPEN : Fld := ⟨R.TILE_ALC_OPEN, 0, 16⟩
abbrev TILE_ALC_A_DESC_LO : Fld := ⟨R.TILE_ALC_A, 0, 64⟩
abbrev TILE_ALC_B_DESC_HI : Fld := ⟨R.TILE_ALC_B, 0, 32⟩
abbrev XC_RECV_WORDS : Fld := ⟨R.XC_RECV, 0, 21⟩
abbrev XC_STATE_NEXT : Fld := ⟨R.XC_STATE, 0, 13⟩
abbrev XC_STATE_UNACK : Fld := ⟨R.XC_STATE, 13, 7⟩
abbrev XC_STATE_WAITLAND : Fld := ⟨R.XC_STATE, 20, 1⟩
abbrev XC_NACK_COUNT : Fld := ⟨R.XC_NACK, 0, 32⟩
abbrev XC_NACK_LAST_ENTRY : Fld := ⟨R.XC_NACK_LAST, 0, 13⟩
abbrev XC_NACK_LAST_DTILE : Fld := ⟨R.XC_NACK_LAST, 13, 13⟩
abbrev XC_NACK_LAST_REASON : Fld := ⟨R.XC_NACK_LAST, 26, 3⟩
abbrev XC_NACK_LAST_FLIGHT : Fld := ⟨R.XC_NACK_LAST, 32, 32⟩
abbrev XC_SENT_WORDS : Fld := ⟨R.XC_SENT, 0, 48⟩
abbrev XC_RECEIVED_WORDS : Fld := ⟨R.XC_RECEIVED, 0, 48⟩
abbrev XC_CREDIT_WAIT_COUNT : Fld := ⟨R.XC_CREDIT_WAIT, 0, 48⟩
abbrev XC_LAND_WAIT_COUNT : Fld := ⟨R.XC_LAND_WAIT, 0, 48⟩
abbrev CHO_CFG_OPEN : Fld := ⟨R.CHO_CFG, 0, 1⟩
abbrev CHO_CFG_DKIND : Fld := ⟨R.CHO_CFG, 1, 2⟩
abbrev CHO_CFG_DTILE : Fld := ⟨R.CHO_CFG, 3, 13⟩
abbrev CHO_CFG_TARGET : Fld := ⟨R.CHO_CFG, 16, 13⟩
abbrev CHO_CFG_CLASS : Fld := ⟨R.CHO_CFG, 29, 2⟩
abbrev CHO_CFG_REPLY : Fld := ⟨R.CHO_CFG, 31, 1⟩
abbrev CHO_CFG_MAXLEN : Fld := ⟨R.CHO_CFG, 32, 9⟩
abbrev CHO_CFG_RSIZE : Fld := ⟨R.CHO_CFG, 41, 17⟩
abbrev CHO_CFG_INCH : Fld := ⟨R.CHO_CFG, 58, 6⟩
abbrev CHO_STATE_WP : Fld := ⟨R.CHO_STATE, 0, 17⟩
abbrev CHO_STATE_CRED : Fld := ⟨R.CHO_STATE, 17, 17⟩
abbrev CHO_STATE_RBASE : Fld := ⟨R.CHO_STATE, 34, 19⟩
abbrev CHO_STATE_UNACK : Fld := ⟨R.CHO_STATE, 53, 7⟩
abbrev CHO_STATE_BROKEN : Fld := ⟨R.CHO_STATE, 60, 1⟩
abbrev CHO_TRAFFIC_MSGS : Fld := ⟨R.CHO_TRAFFIC, 0, 32⟩
abbrev CHO_TRAFFIC_WORDS : Fld := ⟨R.CHO_TRAFFIC, 32, 32⟩
abbrev CHO_STALL_CYCLES : Fld := ⟨R.CHO_STALL, 0, 48⟩
abbrev CHO_STALL_WRAPS : Fld := ⟨R.CHO_STALL, 48, 16⟩
abbrev CHI_CFG_OPEN : Fld := ⟨R.CHI_CFG, 0, 1⟩
abbrev CHI_CFG_SKIND : Fld := ⟨R.CHI_CFG, 1, 2⟩
abbrev CHI_CFG_STILE : Fld := ⟨R.CHI_CFG, 3, 13⟩
abbrev CHI_CFG_SOURCE : Fld := ⟨R.CHI_CFG, 16, 13⟩
abbrev CHI_CFG_SOUTCH : Fld := ⟨R.CHI_CFG, 29, 6⟩
abbrev CHI_CFG_HBASE : Fld := ⟨R.CHI_CFG, 35, 8⟩
abbrev CHI_CFG_HSPANM1 : Fld := ⟨R.CHI_CFG, 43, 4⟩
abbrev CHI_CFG_MODE : Fld := ⟨R.CHI_CFG, 47, 1⟩
abbrev CHI_CFG_REPLYIN : Fld := ⟨R.CHI_CFG, 48, 1⟩
abbrev CHI_CFG_CLASS : Fld := ⟨R.CHI_CFG, 49, 2⟩
abbrev CHI_CFG_RPLCH : Fld := ⟨R.CHI_CFG, 51, 6⟩
abbrev CHI_STATE_RBASE : Fld := ⟨R.CHI_STATE, 0, 19⟩
abbrev CHI_STATE_RSIZE : Fld := ⟨R.CHI_STATE, 19, 17⟩
abbrev CHI_STATE_RP : Fld := ⟨R.CHI_STATE, 36, 16⟩
abbrev CHI_STATE_QUEUED : Fld := ⟨R.CHI_STATE, 52, 12⟩
abbrev CHI_TRAFFIC_MSGS : Fld := ⟨R.CHI_TRAFFIC, 0, 32⟩
abbrev CHI_TRAFFIC_WORDS : Fld := ⟨R.CHI_TRAFFIC, 32, 24⟩
abbrev CHI_TRAFFIC_REFUSED : Fld := ⟨R.CHI_TRAFFIC, 56, 8⟩
abbrev CHI_WAIT_DWAIT : Fld := ⟨R.CHI_WAIT, 0, 40⟩
abbrev CHI_WAIT_SPILLS : Fld := ⟨R.CHI_WAIT, 40, 20⟩
abbrev DBG_CTRL_STOP : Fld := ⟨R.DBG_CTRL, 0, 1⟩
abbrev DBG_CTRL_GO : Fld := ⟨R.DBG_CTRL, 1, 1⟩
abbrev DBG_CTRL_STEP : Fld := ⟨R.DBG_CTRL, 2, 1⟩
abbrev DBG_CTRL_STOPPED : Fld := ⟨R.DBG_CTRL, 3, 1⟩
abbrev DBG_CTRL_BPHIT : Fld := ⟨R.DBG_CTRL, 4, 1⟩
abbrev DBG_CTRL_BPIDX : Fld := ⟨R.DBG_CTRL, 5, 2⟩
abbrev DBG_BP_IADDR : Fld := ⟨R.DBG_BP, 0, 17⟩
abbrev DBG_BP_CTX : Fld := ⟨R.DBG_BP, 17, 1⟩
abbrev DBG_BP_EN : Fld := ⟨R.DBG_BP, 18, 1⟩
abbrev DBG_WADDR_ADDR : Fld := ⟨R.DBG_WADDR, 0, 19⟩
abbrev DBG_WDATA_LO_DATA : Fld := ⟨R.DBG_WDATA_LO, 0, 64⟩
abbrev DBG_WDATA_HI_DATA : Fld := ⟨R.DBG_WDATA_HI, 0, 32⟩
abbrev DBG_WDATA_HI_POISON : Fld := ⟨R.DBG_WDATA_HI, 32, 1⟩
abbrev DBG_WDATA_HI_OFF : Fld := ⟨R.DBG_WDATA_HI, 33, 1⟩
abbrev DBG_SSEL_REG : Fld := ⟨R.DBG_SSEL, 0, 5⟩
abbrev DBG_SSEL_BANK : Fld := ⟨R.DBG_SSEL, 5, 1⟩
abbrev DBG_SDATA_VALUE : Fld := ⟨R.DBG_SDATA, 0, 48⟩
abbrev DBG_SDATA_PRED : Fld := ⟨R.DBG_SDATA, 48, 8⟩
abbrev HALL_CLK_TARGET : Fld := ⟨R.HALL_CLK, 0, 7⟩
abbrev HALL_CLK_CURRENT : Fld := ⟨R.HALL_CLK, 8, 7⟩
abbrev HALL_CLK_FLOOR : Fld := ⟨R.HALL_CLK, 15, 1⟩
abbrev HALL_CLK_CAPPED : Fld := ⟨R.HALL_CLK, 16, 1⟩
abbrev HALL_ASUM_TILES : Fld := ⟨R.HALL_ASUM, 0, 64⟩
abbrev HALL_XB_C0_COUNT : Fld := ⟨R.HALL_XB_C0, 0, 48⟩
abbrev HALL_XB_AGED_COUNT : Fld := ⟨R.HALL_XB_AGED, 0, 48⟩
abbrev HALL_UXB_BUSY_COUNT : Fld := ⟨R.HALL_UXB_BUSY, 0, 48⟩
abbrev HALL_GAL_CE_COUNT : Fld := ⟨R.HALL_GAL_CE, 0, 48⟩
abbrev HALL_GAL_CE_SLICE : Fld := ⟨R.HALL_GAL_CE, 48, 3⟩
abbrev HALL_GAL_UE_COUNT : Fld := ⟨R.HALL_GAL_UE, 0, 48⟩
abbrev HALL_GAL_UE_FIRST_LINE : Fld := ⟨R.HALL_GAL_UE_FIRST, 0, 17⟩
abbrev HALL_GAL_UE_FIRST_SLICE : Fld := ⟨R.HALL_GAL_UE_FIRST, 17, 3⟩
abbrev HALL_GAL_UE_FIRST_VALID : Fld := ⟨R.HALL_GAL_UE_FIRST, 20, 1⟩
abbrev HALL_GAL_UE_FIRST_FLIGHT : Fld := ⟨R.HALL_GAL_UE_FIRST, 32, 32⟩
abbrev HALL_GAL_REFETCH_COUNT : Fld := ⟨R.HALL_GAL_REFETCH, 0, 48⟩
abbrev HALL_GAL_SCRUB_PASSES : Fld := ⟨R.HALL_GAL_SCRUB, 0, 32⟩
abbrev HALL_GAL_SCRUB_FORCED : Fld := ⟨R.HALL_GAL_SCRUB, 32, 8⟩
abbrev HALL_SW_OUT_READS : Fld := ⟨R.HALL_SW_OUT, 0, 13⟩
abbrev HALL_SW_OUT_HWM : Fld := ⟨R.HALL_SW_OUT, 16, 13⟩
abbrev HALL_SW_FILL_COUNT : Fld := ⟨R.HALL_SW_FILL, 0, 48⟩
abbrev HALL_SW_PFILL_COUNT : Fld := ⟨R.HALL_SW_PFILL, 0, 48⟩
abbrev HALL_SW_REMOTE_COUNT : Fld := ⟨R.HALL_SW_REMOTE, 0, 48⟩
abbrev HALL_SW_WB_COUNT : Fld := ⟨R.HALL_SW_WB, 0, 48⟩
abbrev HALL_PF_LATE_COUNT : Fld := ⟨R.HALL_PF_LATE, 0, 32⟩
abbrev HALL_PF_LATE_ENTRY : Fld := ⟨R.HALL_PF_LATE, 32, 16⟩
abbrev HALL_PF_LATE_VALID : Fld := ⟨R.HALL_PF_LATE, 48, 1⟩
abbrev HALL_PF_LATE_FLIGHT_FLIGHT : Fld := ⟨R.HALL_PF_LATE_FLIGHT, 0, 32⟩
abbrev HALL_SW_FAULT_PAGE : Fld := ⟨R.HALL_SW_FAULT, 0, 19⟩
abbrev HALL_SW_FAULT_WRITE : Fld := ⟨R.HALL_SW_FAULT, 19, 1⟩
abbrev HALL_SW_FAULT_REASON : Fld := ⟨R.HALL_SW_FAULT, 20, 2⟩
abbrev HALL_SW_FAULT_VALID : Fld := ⟨R.HALL_SW_FAULT, 22, 1⟩
abbrev HALL_SW_FAULT_FLIGHT : Fld := ⟨R.HALL_SW_FAULT, 32, 32⟩
abbrev HALL_CBW_WAIT_COUNT : Fld := ⟨R.HALL_CBW_WAIT, 0, 48⟩
abbrev HALL_SW_REPAIR_COUNT : Fld := ⟨R.HALL_SW_REPAIR, 0, 32⟩
abbrev HALL_QPOOL_FREE_SHARED : Fld := ⟨R.HALL_QPOOL_FREE, 0, 17⟩
abbrev HALL_QPOOL_FREE_RESERVE : Fld := ⟨R.HALL_QPOOL_FREE, 17, 11⟩
abbrev HALL_QPOOL_CE_COUNT : Fld := ⟨R.HALL_QPOOL_CE, 0, 48⟩
abbrev HALL_QPOOL_UE_COUNT : Fld := ⟨R.HALL_QPOOL_UE, 0, 32⟩
abbrev HALL_QPOOL_UE_TILE : Fld := ⟨R.HALL_QPOOL_UE, 32, 6⟩
abbrev HALL_QPOOL_UE_VALID : Fld := ⟨R.HALL_QPOOL_UE, 38, 1⟩
abbrev HALL_SPILL_WG_COUNT : Fld := ⟨R.HALL_SPILL_WG, 0, 48⟩
abbrev HALL_QCFG_LIMIT : Fld := ⟨R.HALL_QCFG, 0, 17⟩
abbrev HALL_QDEPTH_DEPTH : Fld := ⟨R.HALL_QDEPTH, 0, 17⟩
abbrev HALL_QDEPTH_HWM : Fld := ⟨R.HALL_QDEPTH, 17, 17⟩
abbrev HALL_QDEPTH_C0 : Fld := ⟨R.HALL_QDEPTH, 34, 5⟩
abbrev HALL_MSG_NACK_COUNT : Fld := ⟨R.HALL_MSG_NACK, 0, 32⟩
abbrev HALL_MSG_NACK_REASON : Fld := ⟨R.HALL_MSG_NACK, 32, 4⟩
abbrev HALL_MSG_NACK_OUTCH : Fld := ⟨R.HALL_MSG_NACK, 36, 6⟩
abbrev HALL_MSG_PORT_UNACK : Fld := ⟨R.HALL_MSG_PORT, 0, 7⟩
abbrev HALL_MSG_PORT_SPILL_FULL : Fld := ⟨R.HALL_MSG_PORT, 16, 32⟩
abbrev HALL_XPART_DROP_COUNT : Fld := ⟨R.HALL_XPART_DROP, 0, 32⟩
abbrev HALL_XPART_DROP_LAST_TAG : Fld := ⟨R.HALL_XPART_DROP, 32, 3⟩
abbrev HALL_XPART_DROP_LAST_SRC : Fld := ⟨R.HALL_XPART_DROP, 35, 7⟩
abbrev HALL_MC_REPL_COUNT : Fld := ⟨R.HALL_MC_REPL, 0, 48⟩
abbrev HALL_RED_DONE_COUNT : Fld := ⟨R.HALL_RED_DONE, 0, 32⟩
abbrev HALL_RED_REFUSED_COUNT : Fld := ⟨R.HALL_RED_REFUSED, 0, 32⟩
abbrev HALL_RED_REFUSED_LAST_RID : Fld := ⟨R.HALL_RED_REFUSED, 32, 12⟩
abbrev HALL_RED_PENDING_WORDS : Fld := ⟨R.HALL_RED_PENDING, 0, 14⟩
abbrev HALL_TEMP_NOW : Fld := ⟨R.HALL_TEMP, 0, 16⟩
abbrev HALL_TEMP_MAX : Fld := ⟨R.HALL_TEMP, 16, 16⟩
abbrev HALL_TEMP_TCEIL : Fld := ⟨R.HALL_TEMP, 32, 7⟩
abbrev HALL_CLEARED_WORDS : Fld := ⟨R.HALL_CLEARED, 0, 25⟩
abbrev HALL_CLEARED_LINES : Fld := ⟨R.HALL_CLEARED, 25, 20⟩
abbrev HALL_CLEARED_CELLS : Fld := ⟨R.HALL_CLEARED, 45, 17⟩

end F

/-- The registers of a `tile` block, by rising offset. -/
def regsOf_tile : List Reg :=
  [R.SEQ_STATE, R.SEQ_PC, R.SEQ_CODE, R.SEQ_HTAB, R.SEQ_HBUDGET, R.SEQ_FAULT_A, R.SEQ_FAULT_B, R.SEQ_QOCC, R.SEQ_SBOCC, R.SEQ_ISSUED_M, R.SEQ_ISSUED_H, R.SEQ_STALL_QFULL] ++
  [R.SEQ_STALL_SBFULL, R.SEQ_STALL_DATA, R.SEQ_FETCH_MISS, R.SEQ_HANDLED, R.SEQ_VL, R.ENG_MX_BUSY, R.ENG_MX_KSTEPS, R.ENG_VX_BUSY, R.ENG_VX_ELEMS, R.ENG_ST_WG, R.ENG_ST_WINDOW, R.TILE_TSTAT] ++
  [R.TILE_IEEE_FLAGS, R.TILE_VSTAT, R.TILE_QCRUSH, R.TILE_AMODE, R.TILE_AMASK, R.TILE_SR_SEED, R.TILE_SR_SEQ, R.TILE_TFIRST_A, R.TILE_TFIRST_B, R.TILE_SEG, R.TILE_ECC_CE, R.TILE_ECC_UE] ++
  [R.TILE_UE_FIRST, R.TILE_SCRUB, R.TILE_POISON_RD, R.TILE_ALCOVE_VIOL, R.TILE_VIOL_LAST, R.TILE_ALC_OPEN, R.TILE_ALC_A, R.TILE_ALC_B, R.XC_RECV, R.XC_STATE, R.XC_NACK, R.XC_NACK_LAST] ++
  [R.XC_SENT, R.XC_RECEIVED, R.XC_CREDIT_WAIT, R.XC_LAND_WAIT, R.CHO_CFG, R.CHO_STATE, R.CHO_TRAFFIC, R.CHO_STALL, R.CHI_CFG, R.CHI_STATE, R.CHI_TRAFFIC, R.CHI_WAIT] ++
  [R.DBG_CTRL, R.DBG_BP, R.DBG_WADDR, R.DBG_WDATA_LO, R.DBG_WDATA_HI, R.DBG_SSEL, R.DBG_SDATA]
/-- The registers of a `hall` block, by rising offset. -/
def regsOf_hall : List Reg :=
  [R.HALL_CLK, R.HALL_ASUM, R.HALL_XB_C0, R.HALL_XB_AGED, R.HALL_UXB_BUSY, R.HALL_GAL_CE, R.HALL_GAL_UE, R.HALL_GAL_UE_FIRST, R.HALL_GAL_REFETCH, R.HALL_GAL_SCRUB, R.HALL_SW_OUT, R.HALL_SW_FILL] ++
  [R.HALL_SW_PFILL, R.HALL_SW_REMOTE, R.HALL_SW_WB, R.HALL_PF_LATE, R.HALL_PF_LATE_FLIGHT, R.HALL_SW_FAULT, R.HALL_CBW_WAIT, R.HALL_SW_REPAIR, R.HALL_QPOOL_FREE, R.HALL_QPOOL_CE, R.HALL_QPOOL_UE, R.HALL_SPILL_WG] ++
  [R.HALL_QCFG, R.HALL_QDEPTH, R.HALL_MSG_NACK, R.HALL_MSG_PORT, R.HALL_XPART_DROP, R.HALL_MC_REPL, R.HALL_RED_DONE, R.HALL_RED_REFUSED, R.HALL_RED_PENDING, R.HALL_TEMP, R.HALL_CLEARED]

end Sys2Proof.Machine
end

