-- ==== Sys2Proof/Machine/State.lean ====
section
/-! DEFINITION. The state of the whole module as plain data, what stops a step, and the state after reset. -/

namespace Sys2Proof.Machine

/-- Why a step stops with a fault. -/
inductive Fault where
  /-- A command names a hall, tile, partition, queue, port, controller or other unit whose number is outside the numbers that the spec gives its kind. Raised by the
  meaning of any command with such an operand. Safe: nothing of the module can be so named. -/
  | noSuchUnit
deriving DecidableEq, Repr

/-- Why a step has no meaning. -/
inductive Refusal where
  /-- A command of the table whose meaning is not written. Raised by no meaning, only by an arm of exec. Safe. -/
  | notModelled (mnemonic : String)
deriving DecidableEq, Repr

/-- A hall's units beside its tiles. -/
structure Hall where
  slots : Sparse Slot
  groups : Sparse GroupEntry
  reds : Sparse RedEntry
  pending : Sparse RedPending
  /-- the router's reduction buffer (R181): words with their poison -/
  redBuf : Sparse (Nat × Bool)
  /-- queue-pool cells: word w of cell c at key 2c + w -/
  cells : Sparse Stored
  lists : Sparse Lists
  /-- the flight of the latest reported uncorrectable gallery error (R157) -/
  ueFlight : Option Nat
  /-- gallery scrub: line and start moment per slice -/
  scrubLine : Sparse Nat
  scrubStart : Sparse Nat
deriving DecidableEq, Repr

/-- The state of the module. -/
structure State where
  /-- commands that wait, first in, first out -/
  pending : List Instr
  /-- every register of control space (R29): those that differ from their reset values, by `Reg.key` -/
  regs : RegFile
  /-- the model's own counter of undefined values, to which Config.undef is applied -/
  fresh : Nat
  /-- the device time base, DEV.TIME (R9), in ns -/
  now : Nat
  /-- tiles by device tile number; an unlisted one is free and clear -/
  tiles : Sparse Tile
  halls : Sparse Hall
  /-- live and dormant partitions -/
  parts : List Part
  /-- packets on the mesh, oldest first, and the next packet's number -/
  net : List Packet
  nextPkt : Nat
  /-- banister events, oldest first -/
  ban : List Ban
  shares : List Share
  groups : List PeerGroup
  /-- registered peer contexts (R325) -/
  peers : Sparse PeerCtx
  /-- the page map (R218, R219): entry e -/
  pageMap : Sparse (BitVec 64)
  /-- frame lines (R224), keyed frame × 131,072 + line; unlisted lines hold zeros -/
  frames : Sparse FrameLine
  /-- page-map changes on their way (R222) -/
  cuts : List Cut
  /-- frames never mapped again (R243) -/
  retired : List Nat
  /-- the copy pool's size, its free frames, and requests (R240) -/
  poolSize : Nat
  pool : List Nat
  copies : List CopyReq
  repairs : List Repair
  /-- lines on their way from frames to slots, line reads that wait at stairwells, and peers' reads not answered -/
  flying : List FillLine
  waits : List WaitRead
  peerReads : List PeerRead
  prefetch : Sparse Prefetch
  /-- check lines cached by each device channel, most recent first (R227) -/
  chk : Sparse (List Nat)
  /-- patrol position of each controller -/
  patrol : Sparse Nat
  /-- MR4 refresh-rate code of each die, keyed controller × 16 + die -/
  mr4 : Sparse Nat
  /-- the order of slot uses and fills (R229, R232) -/
  useCtr : Nat
  /-- pages whose lost line was reported: the flight of the latest report, plus 1 (R241) -/
  memUe : Sparse Nat
  hostOut : Sparse HostOut
  coll : Sparse Coll
  prot : Sparse Prot
  foyer : Foyer
  mss : Mss
  power : Power
  ports : Ports
  /-- what has left the module, newest first -/
  out : List Output
  /-- events lost on a ring since its last EVENTS_LOST record (R346) -/
  evLost : Sparse Nat
deriving DecidableEq, Repr

/-! Reset. -/

/-- Registers after reset: queue 0 exists and is administrative, with 2^8 slots (Table 13.10); every other field stands at the value of its table. -/
def resetRegs : RegFile :=
  ((RegFile.set [] F.CQ_CFG_VALID 0 0 1).set F.CQ_CFG_ADMIN 0 0 1).set F.CQ_CFG_LOGSLOTS 0 0 8
/-- The foyer after reset: queue 0's ring is region slot 0, generation 0. (DESIGN CHOICE, unsafe: log 16) -/
def Foyer.reset : Foyer := ⟨[], [], 63, [], [], [(0, ⟨8, 3, 2, 0, 0, 32768⟩)], [], [], [], [], [], [], false⟩
/-- The management subsystem of a module whose flash holds an image in slot A and nothing else. (DESIGN CHOICE, unsafe: log 11) -/
def Mss.reset : Mss :=
  { log := [], logBuf := [], gap := 0, logWait := false, store := ⟨3800, 31, 0, [], [], []⟩, want := none, wantWait := false
    slotA := ⟨Config.factoryImage, true⟩, slotB := ⟨[], false⟩, rec_ := ⟨0, none, 0, 0⟩, wantRec := none, svn := 0, debugLock := true, boots := 0
    lastMeas := 0, lastLog := none, seq := none, copy := 0, second := none, update := none, fuseDue := false, measures := [], booted := 0, eid := 0, tid := 0
    receiver := none, dynAddr := none, pldm := 0, maxXfer := 4096, activate := false, spdm := ⟨0, [], [], []⟩, spdmBand := ⟨0, [], [], []⟩, thresh := [], readAt := []
    tripSince := [], overMs := 0, powers := [], ceSram := 0, ceDram := 0, ceHist := [], ceHour := (0, 0, 0), ceSecs := 0, flaps := [], ues := [], below := 0 }
/-- Power, clocks and pins as a power-on's reset has just ended (R371). (DESIGN CHOICE, unsafe: log 17) -/
def Power.reset : Power :=
  { phase := .booting, input := true, pwren := true, resetN := true, refclk := true, cause := 0, since := 0, again := false, tripped := false, thrLow := false, throttle := none
    thrStart := 0, thrReport := none, thrRelease := none, ppsEdge := none, ppsGood := 0, slew := 0, slewTick := 0, rate := 0, rateAcc := 0, smbReset := 0, tap := 1, boundary := 0 }
/-- The module right after the reset of a power-on (R371, R374): boot (R358) is the next thing to happen. No partition, page, context or queue pair exists; memory, scratchpads
and galleries list nothing. (DESIGN CHOICE, unsafe: log 9) -/
def State.reset : State :=
  { pending := [], regs := resetRegs, fresh := 0, now := 0, tiles := [], halls := [], parts := [], net := [], nextPkt := 1, ban := [], shares := [], groups := [], peers := []
    pageMap := [], frames := [], cuts := [], retired := [], poolSize := 0, pool := [], copies := [], repairs := [], flying := [], waits := [], peerReads := [], prefetch := []
    chk := [], patrol := [], mr4 := [], useCtr := 0, memUe := [], hostOut := [], coll := [], prot := [], foyer := Foyer.reset, mss := Mss.reset, power := Power.reset
    ports := ⟨[], none, none, 0, 0, none⟩, out := [], evLost := [] }

end Sys2Proof.Machine
end

