-- ==== Sys2Proof/Machine/Ops.lean ====
section
/-! DEFINITION. The named operations over the state that the commands share: registers, tiles, halls and partitions,
events to the host rings, tile faults, arithmetic flags, and scratchpad words with their error code. -/

namespace Sys2Proof.Machine

/-! Registers. -/

/-- A register field. -/
def State.g (s : State) (f : Fld) (u : Nat) (i : Nat := 0) : Nat := s.regs.get f u i
/-- A register field set by the device. -/
def State.w (s : State) (f : Fld) (u i x : Nat) : State := { s with regs := s.regs.set f u i x }
/-- A counter raised by n, saturating (R12). -/
def State.inc (s : State) (f : Fld) (u i n : Nat) : State := { s with regs := s.regs.bump f u i n }
/-- A whole register set by the device. -/
def State.wreg (s : State) (r : Reg) (u i : Nat) (v : BitVec 64) : State := { s with regs := s.regs.wr r u i v }
/-- A high-water field raised to `x` if it is below. -/
def State.hwm (s : State) (f : Fld) (u i x : Nat) : State := if s.g f u i < x then s.w f u i x else s

/-! Numbers of units (R14, R26). -/

def numTiles : Nat := 4608
def numHalls : Nat := 72
/-- Words of a scratchpad (R138). -/
def padWords : Nat := 393216
/-- Words of a segment (R138). -/
def segWords : Nat := 49152

/-! Tiles and halls. -/

def Ctx.reset : Ctx := ⟨0, 0, 0, 1, [], .off, 0⟩

/-- A tile after reset: nothing launched, every word a clean zero, the loader alcove in its registers only from creation. (DESIGN CHOICE, unsafe: log 13) -/
def Tile.free : Tile :=
  { mem := [], wb := [], scrubRow := 0, scrubStart := 0, sregs := [], main := Ctx.reset, hand := Ctx.reset, budget := 0,
    flight := 0, begun := false, stopped := false, dbgStop := false, bpPass := 0, lines := [], htab := [], running := none, sb := [],
    instrs := [], nextId := 0, acc := [], accKind := [], accFree := 0, accExec := 0, hEntries := [], drains := [], chain := [], lineResp := [], lineOut := [], winSince := none,
    xcUnack := [], outCh := [], inCh := [], accepted := [], spills := [], spNext := [], pendA := [], pendF := [], pendV := none,
    ueFlight := none, signals := 0 }

/-- A hall after reset: no gallery block, empty queue pool, empty router tables. -/
def Hall.free : Hall :=
  { slots := [], groups := [], reds := [], pending := [], redBuf := [], cells := [], lists := [], ueFlight := none, scrubLine := [],
    scrubStart := [] }

def State.tile (s : State) (n : Nat) : Tile := Sparse.get Tile.free s.tiles n
def State.setTile (s : State) (n : Nat) (t : Tile) : State := { s with tiles := Sparse.put Tile.free s.tiles n t }
def State.upTile (s : State) (n : Nat) (f : Tile → Tile) : State := s.setTile n (f (s.tile n))
def State.hall (s : State) (h : Nat) : Hall := Sparse.get Hall.free s.halls h
def State.setHall (s : State) (h : Nat) (x : Hall) : State := { s with halls := Sparse.put Hall.free s.halls h x }
def State.upHall (s : State) (h : Nat) (f : Hall → Hall) : State := s.setHall h (f (s.hall h))

/-! Partitions (R25, R26). -/

def State.part? (s : State) (p : Nat) : Option Part := s.parts.find? (fun x => x.num == p)
def State.upPart (s : State) (p : Nat) (f : Part → Part) : State :=
  { s with parts := s.parts.map (fun x => if x.num = p then f x else x) }
/-- The partition that owns a hall, from PART.OWNER (Table 1.9). -/
def State.ownerOf (s : State) (h : Nat) : Option Nat :=
  if s.g F.PART_OWNER_OWNED h = 1 then some (s.g F.PART_OWNER_PART h) else none
/-- The partition a tile belongs to. -/
def State.partOf (s : State) (n : Nat) : Option Nat := s.ownerOf (n / 64)
/-- Halls of a partition in hall order (R26). -/
def State.hallsOf (s : State) (p : Nat) : List Nat := ((s.part? p).map (·.halls)).getD []
/-- Tiles of a partition. -/
def State.tileCount (s : State) (p : Nat) : Nat := 64 * (s.hallsOf p).length
/-- Local hall number (R26). -/
def State.localHall (s : State) (h : Nat) : Nat :=
  match s.ownerOf h with
  | some p => (s.hallsOf p).findIdx (· == h)
  | none => 0
/-- Local tile number, local hall × 64 + t (R26). (DEDUCED, unsafe: log 37) -/
def State.localTile (s : State) (n : Nat) : Nat := s.localHall (n / 64) * 64 + n % 64
/-- Device tile number of a partition's local tile. -/
def State.devTile (s : State) (p lt : Nat) : Nat := ((s.hallsOf p)[lt / 64]?.getD numHalls) * 64 + lt % 64
/-- Every device tile of a partition, in local order. -/
def State.tilesOf (s : State) (p : Nat) : List Nat := (s.hallsOf p).flatMap (fun h => (List.range 64).map (h * 64 + ·))

/-! Fresh undefined values. -/

/-- An undefined value and the state with the counter advanced. -/
def State.undef (s : State) : Nat × State := (Config.undef s.fresh, { s with fresh := s.fresh + 1 })

/-- Hall cycles between two moments of the time base at the hall's present clock (R9, Table 1.10): CURRENT × 25 MHz. (DESIGN CHOICE, unsafe: log 5) -/
def State.cyclesSince (s : State) (h t0 : Nat) : Nat := (s.now - t0) * s.g F.HALL_CLK_CURRENT h / 40

def State.emit (s : State) (o : Output) : State := { s with out := o :: s.out }

/-! Numbers modulo 2^32 (R167). -/

/-- a − b modulo 2^32 as a signed number. -/
def diff32 (a b : Nat) : Int :=
  let d : Nat := (a + 2 ^ 32 - b % 2 ^ 32) % 2 ^ 32
  if d < 2 ^ 31 then d else (d : Int) - 2 ^ 32
def add32 (a b : Nat) : Nat := (a + b) % 2 ^ 32

/-! Events (R346). -/

/-- The EVENT_MASK bit of an event code: 32 × group + n. -/
def eventBit (code : Nat) : Nat := 32 * (code / 256 % 128) + code % 256

/-- Records of a ring in use and its size. -/
def State.ringSpace (s : State) (r : Nat) : Nat :=
  if s.g F.EV_CFG_VALID r = 1 then
    2 ^ s.g F.EV_CFG_LOGREC r - (s.g F.EV_TAIL_TAIL r + 2 ^ 30 - s.g F.EV_HEAD_HEAD r) % 2 ^ 30
  else 0

/-! Host buffers (R323, R341). -/

/-- Packets a message of k bytes takes on a queue pair (Table 12.3). -/
def Qp.packets (q : Qp) (k : Nat) : Nat := max 1 ((k + 1024 * 2 ^ q.mtu - 1) / (1024 * 2 ^ q.mtu))
/-- Whether a host buffer exists and its queue pair is not in error. -/
def State.bufOk (s : State) (hb : Nat) : Bool :=
  match Sparse.find? s.foyer.hostbufs hb with
  | some b => ((Sparse.find? s.foyer.qps b.qpn).map (·.ok)).getD false
  | none => false
/-- Whether a host buffer takes an access that ends at offset `stop`: it exists, its queue pair is not in error, and the access does not pass its end (R323). -/
def State.bufTakes (s : State) (hb stop : Nat) : Bool := s.bufOk hb && ((Sparse.find? s.foyer.hostbufs hb).map (fun b => decide (stop ≤ b.len))).getD false
def State.upFoyer (s : State) (f : Foyer → Foyer) : State := { s with foyer := f s.foyer }
def State.upQp (s : State) (q : Nat) (f : Qp → Qp) : State := s.upFoyer (fun x => { x with qps := Sparse.modify x.qps q f })
/-- Host port H`p`: whether its link is up, and packets sent on it (R314; nothing is sent while it is down). -/
def State.hostUp (s : State) (p : Nat) : Bool := s.g F.LINK_STATUS_UP (32 + p) == 1
def State.hostTx (s : State) (p k : Nat) (o : Output) : State :=
  if s.hostUp p then ((s.emit o).inc F.PT_TX_PKTS (32 + p) 0 k).inc F.LINK_TX_FRAMES_COUNT (32 + p) 0 k else s
/-- The DSCP and tag of a service class on a port (R315). -/
def State.qos (s : State) (port cls : Nat) : Nat × Option (Nat × Nat) :=
  let q := s.regs.rd R.PORT_QOS port 0
  (bitsAt q (8 * cls) 6, if s.g F.PORT_CFG_VLAN port = 1 then some (s.g F.PORT_CFG_VID port, bitsAt q (32 + 4 * cls) 3) else none)
/-- Whether sending at a service class's priority is paused on sub-port index x (R315). -/
def State.pausedAt (s : State) (x cls : Nat) : Bool :=
  decide (s.now < Sparse.get 0 s.ports.paused (8 * x + bitsAt (s.regs.rd R.PORT_QOS (x / 2) 0) (32 + 4 * cls) 3))
/-- Whether a host port may send at a service class now. (DESIGN CHOICE, unsafe: log 108) -/
def State.hostMay (s : State) (p cls : Nat) : Bool := s.hostUp p && !s.pausedAt (64 + 2 * p) cls
/-- The outer headers of a RoCEv2 packet of a service class (R315, R318): UDP port 4791, ECT(0). -/
def State.roceHead (s : State) (q : Qp) (cls : Nat) : IpHead :=
  let t := s.qos (32 + q.port) cls
  ⟨Config.ipAddr (32 + q.port) 0 q.gidx, q.rgid, 4791, Config.roceSport q.rqpn, t.1, 2, t.2⟩
/-- The service class of a requester operation: snapshots go at class 3 (R303), completions and events at class 0, the rest at class 2. (DESIGN CHOICE, unsafe: log 194) -/
def OpWhy.cls : OpWhy → Nat
  | .ring _ | .evring _ => 0
  | .snapshot _ => 3
  | _ => 2
/-- Send what queue pair n has not sent: answers, then operations, each in order and no further than the first whose priority is paused or whose link is
down. -/
def State.qpPump (s : State) (n : Nat) : State :=
  match Sparse.find? s.foyer.qps n with
  | none => s
  | some q =>
    let a := q.answers.takeWhile (fun x => s.hostMay q.port x.1)
    let o := q.ops.takeWhile (fun x => x.sent || s.hostMay q.port x.why.cls)
    let s := a.foldl (fun (s : State) x => s.hostTx q.port 1 (.roce n x.2.1 x.2.2.1 (s.roceHead q x.1) x.2.2.2)) s
    let s := o.foldl (fun (s : State) x => if x.sent then s else s.hostTx q.port x.n (.rdma n x.psn (s.roceHead q x.why.cls) x.out)) s
    s.upQp n (fun q => { q with answers := q.answers.drop a.length, ops := o.map (fun x => { x with sent := true }) ++ q.ops.drop o.length })
/-- Send a requester operation of k bytes for a host buffer: it waits for its acknowledgement (R318). -/
def State.hostOp (s : State) (hb k : Nat) (o : Output) (why : OpWhy) : State :=
  match Sparse.find? s.foyer.hostbufs hb with
  | some b =>
    match Sparse.find? s.foyer.qps b.qpn with
    | some q =>
      if !q.ok then s
      else (s.upQp b.qpn (fun q => { q with spsn := (q.spsn + q.packets k) % 2 ^ 24, ops := q.ops ++ [⟨q.spsn, q.packets k, o, why, false⟩] })).qpPump b.qpn
    | none => s
  | none => s

/-! The management subsystem's log (R352, R356). -/

def State.upMss (s : State) (f : Mss → Mss) : State := { s with mss := f s.mss }
/-- Append a log record (R356): it takes the next SEQ and waits in RAM for its flash sequence; the oldest of 4,096 gives way (R352). -/
def State.mssLog (s : State) (code : Nat) (part : Option Nat) (data : List (Nat × Nat)) : State :=
  let n := s.g F.MB_LOG_NEXT 0
  let r : LogRec := ⟨n, s.mss.boots, s.now, code, part.getD 255, false, data⟩
  let full := decide (4096 ≤ s.mss.logBuf.length)
  let s := (s.w F.MB_LOG_NEXT 0 0 ((n + 1) % 2 ^ 32)).upMss (fun m => { m with
    logBuf := (if full then m.logBuf.drop 1 else m.logBuf) ++ [r], gap := if full then m.gap + 1 else m.gap })
  let s := if full then s.inc F.MB_LOG_BUF_LOST 0 0 1 else s
  s.w F.MB_LOG_BUF_BUFFERED 0 0 s.mss.logBuf.length
/-- Whether the MSS logs an event whatever the rings mask (R356). -/
def loggedEvent (code : Nat) : Bool :=
  code / 256 == 0x80 || code / 256 == 0x83 || code / 256 == 0x87 || code == 0x8108 || code == 0x8507 || code == 0x8508

/-- Corrected errors counted toward the risk index (R306). -/
def State.ceSram (s : State) (n : Nat) : State := s.upMss (fun m => { m with ceSram := m.ceSram + n })
def State.ceDram (s : State) (n : Nat) : State := s.upMss (fun m => { m with ceDram := m.ceDram + n })
/-- Change what the persistent store is to hold; its write waits for a flash sequence (R352). -/
def State.persist (s : State) (f : Persist → Persist) : State := s.upMss (fun m => { m with want := some (f (m.want.getD m.store)) })

/-! Events (R346). -/

/-- Write one record to a ring that has room: it takes its SEQ and PHASE from the ring's count (R341, R346). -/
def State.ringPut (s : State) (r : Nat) (e : EventRec) : State :=
  let c := s.g F.EV_TAIL_TAIL r
  let ph := if c / 2 ^ s.g F.EV_CFG_LOGREC r % 2 = 0 then 1 else 0
  (s.hostOp (s.g F.EV_CFG_HBUF r) 32 (.event r ph c e) (.evring r)).w F.EV_TAIL_TAIL r 0 (c + 1)

/-- A pending EVENTS_LOST record, written before the next record once the ring has room (R346). (DEDUCED, unsafe: log 44) -/
def State.ringFlushLost (s : State) (r : Nat) : State :=
  let lost := Sparse.get 0 s.evLost r
  if lost != 0 && s.ringSpace r != 0 then
    { s.ringPut r ⟨0x8007, if r < 8 then some r else none, s.now, [(lost, 4)]⟩ with evLost := Sparse.put 0 s.evLost r 0 }
  else s

/-- Offer an event to one ring: masked events are not written; with no room or no ring it is counted as lost (R346). -/
def State.ringEvent (s : State) (r : Nat) (e : EventRec) : State :=
  let b := eventBit e.code
  if s.g F.EV_MASK_MASK r (b / 64) / 2 ^ (b % 64) % 2 = 0 then s
  else
    let s := s.ringFlushLost r
    if s.ringSpace r = 0 then
      { s.inc F.EV_LOST_COUNT r 0 1 with evLost := Sparse.put 0 s.evLost r (Sparse.get 0 s.evLost r + 1) }
    else s.ringPut r e

/-- Note an uncorrectable event or a link drop for the risk index (R306). -/
def State.noteRisk (s : State) (code : Nat) : State :=
  if code = 0x8301 ∨ code = 0x8302 ∨ code = 0x8303 then s.upMss (fun m => { m with ues := s.now :: m.ues }) else s

/-- Report an event: to the device ring, to the partition's ring when it names one (R346), and to the log where R356 says so. -/
def State.event (s : State) (part : Option Nat) (code : Nat) (data : List (Nat × Nat)) : State :=
  let e : EventRec := ⟨code, part, s.now, data⟩
  let s := (if loggedEvent code then s.mssLog code part data else s).noteRisk code
  let s := s.ringEvent 8 e
  match part with
  | some p => s.ringEvent p e
  | none => s

/-! Completions (R341). -/

/-- Records of a queue's completion ring, 0 where it has none. (DESIGN CHOICE, unsafe: log 15) -/
def State.cringSize (s : State) (q : Nat) : Nat :=
  match Sparse.find? s.foyer.hostbufs (s.g F.CQ_CFG_CRING q) with
  | some b => b.len / 32
  | none => 0
/-- Write a completion record to a ring with room (Table 13.2). -/
def State.putDone (s : State) (c : RunCmd) (status : Nat) : State :=
  let q := c.hdr.queue
  let n := Sparse.get 0 s.foyer.written q
  let ph := if n / max 1 (s.cringSize q) % 2 = 0 then 1 else 0
  (s.hostOp (s.g F.CQ_CFG_CRING q) 32 (.completion q ph c.hdr.seq c.hdr.tag c.op status (s.g F.CQ_HEAD_HEAD q) c.result) (.ring q)).upFoyer (fun x =>
    { x with written := Sparse.put 0 x.written q (n + 1) })
/-- Whether a queue's completion ring has room. -/
def State.cringRoom (s : State) (q : Nat) : Bool :=
  s.bufOk (s.g F.CQ_CFG_CRING q) &&
  decide ((Sparse.get 0 s.foyer.written q + 2 ^ 30 - s.g F.CQ_CHEAD_CHEAD q) % 2 ^ 30 < s.cringSize q)
/-- Destroy a queue (QUEUE_DESTROY, R343): its registers return to zero and its ring's region goes. -/
def State.destroyQueue (s : State) (q : Nat) : State :=
  let rk := s.g F.CQ_RKEY_RKEY q
  let s := [R.CQ_CFG, R.CQ_TAIL, R.CQ_CHEAD, R.CQ_HEAD, R.CQ_STATUS, R.CQ_DONE, R.CQ_RKEY].foldl (fun s r => s.wreg r q 0 0) s
  s.upFoyer (fun x => { x with
    closing := x.closing.filter (· != q), taken := x.taken.filter (fun t => t.hdr.queue != q), heldDone := x.heldDone.filter (fun d => d.1.hdr.queue != q)
    regions := Sparse.erase x.regions (rk % 2 ^ 14), written := Sparse.put 0 x.written q 0 })
/-- A command ends with a status: it is counted, and its record is written or held for space; QUIET drops the record of a success (R341). -/
def State.cmdDone (s : State) (c : RunCmd) (status : Nat) : State :=
  let q := c.hdr.queue
  let s := (s.inc F.CQ_DONE_COUNT q 0 1).upFoyer (fun x => { x with running := x.running.filter (fun r => r.hdr != c.hdr) })
  let s :=
    if status = 0 ∧ c.hdr.flags / 2 % 2 = 1 then s
    else if s.cringRoom q && !s.foyer.heldDone.any (fun d => d.1.hdr.queue == q) then
      let s := s.putDone c status
      if s.cringRoom q then s else s.w F.CQ_STATUS_STALLED q 0 1
    else (s.upFoyer (fun x => { x with heldDone := x.heldDone ++ [(c, status)] })).w F.CQ_STATUS_STALLED q 0 1
  if s.foyer.closing.contains q && !s.foyer.running.any (fun r => r.hdr.queue == q) then s.destroyQueue q else s
/-- Write the held completions of a queue that its ring now has room for (R341). `fuel` bounds them. -/
def State.drainDone (q : Nat) : Nat → State → State
  | 0, s => s
  | k + 1, s =>
    if s.cringRoom q then
      match s.foyer.heldDone.find? (fun d => d.1.hdr.queue == q) with
      | some d => ((s.upFoyer (fun x => { x with heldDone := x.heldDone.erase d })).putDone d.1 d.2).drainDone q k
      | none => s.w F.CQ_STATUS_STALLED q 0 0
    else s.w F.CQ_STATUS_STALLED q 0 1

/-- LAUNCH completes once every tile of the partition has issued its first instruction or has faulted (Table 13.4). -/
def State.checkLaunch (s : State) (p : Nat) : State :=
  match s.parts.find? (fun x => x.num == p) with
  | some x =>
    match x.launching with
    | some c =>
      if (x.halls.flatMap (fun h => (List.range 64).map (h * 64 + ·))).all (fun n =>
          (Sparse.get Tile.free s.tiles n).begun || s.g F.SEQ_FAULT_A_VALID n == 1) then
        (s.upPart p (fun y => { y with launching := none })).cmdDone c 0
      else s
    | none => s
  | none => s

/-! Flags (R54, R55, R57). -/

/-- Add anomaly kinds to the pending bits of a flight. -/
def pendAdd (l : List (Nat × Nat)) (flight mask : Nat) : List (Nat × Nat) :=
  if l.any (fun x => x.1 == flight) then l.map (fun x => if x.1 = flight then (flight, x.2 ||| mask) else x)
  else l ++ [(flight, mask)]

/-- Fill the first-event record of kind k if it is empty (R55). (DEDUCED, unsafe: log 29) -/
def State.firstEvent (s : State) (n k flight iaddr eng : Nat) (e : FlagEv) : State :=
  if s.g F.TILE_TFIRST_A_VALID n k = 1 then s
  else
    (((((((s.w F.TILE_TFIRST_A_FLIGHT n k flight).w F.TILE_TFIRST_A_IADDR n k iaddr).w F.TILE_TFIRST_A_ENGINE n k eng).w
      F.TILE_TFIRST_A_VALID n k 1).w F.TILE_TFIRST_B_ROW n k e.row).w F.TILE_TFIRST_B_COL n k e.col).w
      F.TILE_TFIRST_B_ELEM n k e.elem)

/-- Set the sticky flags of an event, its pending bits and its first-event records (R54, R55, R57). -/
def State.raise (s : State) (n flight iaddr eng : Nat) (e : FlagEv) : State :=
  if e.flags = 0 then s
  else
    let s := s.wreg R.TILE_TSTAT n 0 (s.regs.rd R.TILE_TSTAT n 0 ||| BitVec.ofNat 64 (e.flags % 32))
    let s := s.wreg R.TILE_IEEE_FLAGS n 0 (s.regs.rd R.TILE_IEEE_FLAGS n 0 ||| BitVec.ofNat 64 (e.flags / 32 % 32))
    let s := s.wreg R.TILE_VSTAT n 0 (s.regs.rd R.TILE_VSTAT n 0 ||| BitVec.ofNat 64 (e.flags / 1024 % 4))
    let s := s.upTile n (fun t => { t with pendA := if e.flags % 1024 = 0 then t.pendA else pendAdd t.pendA flight (e.flags % 1024) })
    (List.range 5).foldl (fun s k => if e.flags / 2 ^ k % 2 = 1 then s.firstEvent n k flight iaddr eng e else s) s

def State.raiseAll (s : State) (n flight iaddr eng : Nat) (l : List FlagEv) : State :=
  l.foldl (fun s e => s.raise n flight iaddr eng e) s

/-- Record a fault contribution of a flight (R143, R144, R168). -/
def State.pendFault (s : State) (n flight : Nat) : State :=
  s.upTile n (fun t => if t.pendF.contains flight then t else { t with pendF := t.pendF ++ [flight] })

/-- Record a partition fault under R169. -/
def State.partFault (s : State) (p : Nat) : State := s.upPart p (fun x => { x with fault := true })

/-! Tile faults (R100). -/

/-- The main context has ended or the tile has faulted: it counts as arrived (R92, R100). -/
def State.tileOver (s : State) (n : Nat) : Bool := s.g F.SEQ_FAULT_A_VALID n == 1 || (s.tile n).main.wait == .ended

/-- PROGRAM_END once every tile of a launched partition is in ENDED or FAULTED (Table 13.8). -/
def State.checkEnd (s : State) (p : Nat) : State :=
  match s.part? p with
  | some x =>
    if x.launched && !x.ended && (s.tilesOf p).all (fun n => s.tileOver n) then
      (s.event (some p) 0x8201 [(s.g F.LAND_NUM_DONE p, 4)]).upPart p (fun x => { x with ended := true })
    else s
  | none => s

/-- Fault a tile: the first fault is recorded and reported, both contexts stop (R100). `eng` 5 is the sequencer. -/
def State.tileFault (s : State) (n ctx cause eng iaddr waddr : Nat) : State :=
  if s.g F.SEQ_FAULT_A_VALID n = 1 then s
  else
    let fl := (s.tile n).flight
    let s := ((((s.w F.SEQ_FAULT_A_CAUSE n 0 cause).w F.SEQ_FAULT_A_CTX n 0 ctx).w F.SEQ_FAULT_A_ENGINE n 0 eng).w
      F.SEQ_FAULT_A_IADDR n 0 iaddr).w F.SEQ_FAULT_A_VALID n 0 1
    let s := (s.w F.SEQ_FAULT_B_FLIGHT n 0 fl).w F.SEQ_FAULT_B_WADDR n 0 waddr
    match s.partOf n with
    | some p => (s.event (some p) 0x8101 [(s.localTile n, 2), (cause, 1), (ctx, 1), (iaddr, 4), (fl, 4)]).checkEnd p |>.checkLaunch p
    | none => s

/-! Scratchpad words (R140–R145). -/

/-- Report SRAM_UE for a scratchpad, at most once per tile per flight (R143). -/
def State.sramUe (s : State) (n a : Nat) : State :=
  let fl := (s.tile n).flight
  if (s.tile n).ueFlight = some fl then s
  else
    let s := s.upTile n (fun t => { t with ueFlight := some fl })
    match s.partOf n with
    | some p => s.event (some p) 0x8301 [(0, 1), (s.localTile n, 2), (0, 1), (a, 4), (fl, 4)]
    | none => s

/-- A fresh uncorrectable error at word a: the marker is written, it is counted, recorded, reported, and raises the
fault bit for `flight` (R143). -/
def State.freshError (s : State) (n a src flight : Nat) : State :=
  let fl := (s.tile n).flight
  let s := s.upTile n (fun t => { t with mem := Sparse.put 0 t.mem a poisonStored, wb := Sparse.erase t.wb a })
  let s := s.inc F.TILE_ECC_UE_COUNT n 0 1
  let s := if s.g F.TILE_UE_FIRST_VALID n = 1 then s
    else (((s.w F.TILE_UE_FIRST_ADDR n 0 a).w F.TILE_UE_FIRST_SRC n 0 src).w F.TILE_UE_FIRST_VALID n 0 1).w F.TILE_UE_FIRST_FLIGHT n 0 fl
  (s.sramUe n a).pendFault n flight

/-- A poisoned word delivered by a read or written by a delivery (R144). -/
def State.poisonCount (s : State) (n flight : Nat) : State := (s.inc F.TILE_POISON_RD_COUNT n 0 1).pendFault n flight

/-- Read word a of a tile (R141, R143, R144): its data, and whether it is poisoned. `src` is UE_FIRST.SRC: 0 engine,
1 scalar load, 2 descriptor, 3 remote read, 4 scrub, 5 merge read, 6 fetch; scrub and merge reads and line fills add nothing
to POISON_RD. `flight` is the flight the event belongs to (R89). -/
def State.readWord (s : State) (n a src flight : Nat) : State × Nat × Bool :=
  let cnt := fun (s : State) => if src < 4 then s.poisonCount n flight else s
  match readStored (Sparse.get 0 (s.tile n).mem a) with
  | .clean d => (s, d, false)
  | .poison => (cnt s, 0, true)
  | .corrected d =>
    (((s.inc F.TILE_ECC_CE_COUNT n 0 1).ceSram 1).upTile n (fun t => { t with wb := Sparse.insert t.wb a (storeWord d) }), d, false)
  | .fresh => (cnt (s.freshError n a src flight), 0, true)

/-- Write a whole word, dropping a scheduled correction of it (Table 5.2); a clean zero word is not listed. -/
def State.writeWord (s : State) (n a d : Nat) (poison : Bool) : State :=
  s.upTile n (fun t => { t with mem := Sparse.put 0 t.mem a (storeVal d poison), wb := Sparse.erase t.wb a })

/-- Write bits [lo + width − 1 : lo] of a word by read and write-back (R75, R145): a poisoned or fresh-error read leaves the marker. -/
def State.mergeWord (s : State) (n a lo width x src flight : Nat) : State :=
  let r := s.readWord n a src flight
  if r.2.2 then r.1.writeWord n a 0 true
  else
    let d := r.2.1
    r.1.writeWord n a (d - d / 2 ^ lo % 2 ^ width * 2 ^ lo + x % 2 ^ width * 2 ^ lo) false

/-- Read consecutive words with their poison. -/
def State.readWords (s : State) (n src flight : Nat) : List Nat → State × List (Nat × Bool)
  | [] => (s, [])
  | a :: rest =>
    let r := s.readWord n a src flight
    let q := r.1.readWords n src flight rest
    (q.1, (r.2.1, r.2.2) :: q.2)

/-- Whether the segment of word a is powered (R138). -/
def State.segOn (s : State) (n a : Nat) : Bool := s.g F.TILE_SEG_ON n / 2 ^ (a / segWords) % 2 == 1
/-- Whether every segment a non-empty range touches is powered. -/
def State.rangeOn (s : State) (n base limit : Nat) : Bool :=
  (List.range 8).all (fun k => !(decide (base < (k + 1) * segWords) && decide (k * segWords < limit) && decide (base < limit)) ||
    s.g F.TILE_SEG_ON n / 2 ^ k % 2 == 1)
/-- Whether words [base, limit) touch a word of the code region (R69). -/
def State.touchesCode (s : State) (n base limit : Nat) : Bool :=
  let cb := s.g F.SEQ_CODE_BASE n
  let cl := s.g F.SEQ_CODE_LIMIT n
  decide (cb < cl) && decide (base < limit) && decide (2 * base < cl) && decide (cb < 2 * limit)

end Sys2Proof.Machine
end

