-- ==== Sys2Proof/Machine/Operands.lean ====
section
/-! DEFINITION. Fields of instructions, descriptors and table entries, named as the spec's layout tables name them:
descriptor bit b is bit b mod 96 of descriptor word b div 96 (R102). -/

namespace Sys2Proof.Machine

/-- Bits [lo + width − 1 : lo] of a number. -/
def fld (d lo width : Nat) : Nat := d / 2 ^ lo % 2 ^ width

/-- Sign extension of a `width`-bit field. -/
def sext (x width : Nat) : Int := if x % 2 ^ width < 2 ^ (width - 1) then (x % 2 ^ width : Nat) else ((x % 2 ^ width : Nat) : Int) - 2 ^ width

/-! Fields of the instruction (R72, Table 3.3). -/

namespace Ins
def op (d : Nat) : Nat := fld d 42 6
def pg (d : Nat) : Nat := fld d 39 3
def pn (d : Nat) : Nat := fld d 38 1
def fn (d : Nat) : Nat := fld d 32 6
def sd (d : Nat) : Nat := fld d 27 5
def sa (d : Nat) : Nat := fld d 22 5
def sb (d : Nat) : Nat := fld d 17 5
def sc (d : Nat) : Nat := fld d 12 5
def pd (d : Nat) : Nat := fld d 9 3
def imm (d : Nat) : Nat := fld d 0 22
def ck (d : Nat) : Nat := fld d 35 3
def csa (d : Nat) : Nat := fld d 30 5
def sl (d : Nat) : Nat := fld d 25 5
def off (d : Nat) : Nat := fld d 0 18
def dsb (d : Nat) : Nat := fld d 33 5
def doff (d : Nat) : Nat := fld d 14 19
def tryBit (d : Nat) : Nat := fld d 13 1
def dpd (d : Nat) : Nat := fld d 10 3
def aux (d : Nat) : Nat := fld d 0 10
end Ins

/-! Fields of the MX descriptor (Table 4.1). -/

namespace Mx
def fmtA (d : Nat) : Nat := fld d 0 4
def fmtB (d : Nat) : Nat := fld d 4 4
def sca (d : Nat) : Nat := fld d 8 1
def scb (d : Nat) : Nat := fld d 9 1
def ta (d : Nat) : Nat := fld d 10 1
def tb (d : Nat) : Nat := fld d 11 1
def bank (d : Nat) : Nat := fld d 12 1
def init (d : Nat) : Nat := fld d 13 2
def drain (d : Nat) : Nat := fld d 15 2
def wstart (d : Nat) : Nat := fld d 17 2
def fmtD (d : Nat) : Nat := fld d 19 4
def rm (d : Nat) : Nat := fld d 23 3
def biasen (d : Nat) : Nat := fld d 26 1
def dsc (d : Nat) : Nat := fld d 27 1
def ksteps (d : Nat) : Nat := fld d 28 16
def dStride (d : Nat) : Nat := fld d 44 16
def biasAddr (d : Nat) : Nat := fld d 60 19
def dblk (d : Nat) : Nat := fld d 79 12
def aAddr (d : Nat) : Nat := fld d 96 19
def aStride (d : Nat) : Nat := fld d 115 16
def bAddr (d : Nat) : Nat := fld d 131 19
def bStride (d : Nat) : Nat := fld d 150 16
def dAddr (d : Nat) : Nat := fld d 166 19
def saAddr (d : Nat) : Nat := fld d 192 19
def saStride (d : Nat) : Nat := fld d 211 12
def sbAddr (d : Nat) : Nat := fld d 223 19
def sbStride (d : Nat) : Nat := fld d 242 12
def dsAddr (d : Nat) : Nat := fld d 254 19
def dsStride (d : Nat) : Nat := fld d 273 12
end Mx

/-! Fields of the VX descriptor (Table 4.5). -/

namespace Vx
def opc (d : Nat) : Nat := fld d 0 8
def fmtA (d : Nat) : Nat := fld d 8 4
def fmtB (d : Nat) : Nat := fld d 12 4
def fmtC (d : Nat) : Nat := fld d 16 4
def fmtD (d : Nat) : Nat := fld d 20 4
def rm (d : Nat) : Nat := fld d 24 3
def masked (d : Nat) : Nat := fld d 27 1
def selA (d : Nat) : Nat := fld d 28 3
def selB (d : Nat) : Nat := fld d 31 3
def selC (d : Nat) : Nat := fld d 34 3
def selD (d : Nat) : Nat := fld d 37 3
def nrows (d : Nat) : Nat := fld d 40 12
def addrA (d : Nat) : Nat := fld d 52 19
def addrB (d : Nat) : Nat := fld d 71 19
def addrC (d : Nat) : Nat := fld d 96 19
def addrD (d : Nat) : Nat := fld d 115 19
def addrM (d : Nat) : Nat := fld d 134 19
def sstride (d : Nat) : Nat := fld d 153 12
def dstride (d : Nat) : Nat := fld d 165 12
def aux (d : Nat) : Nat := fld d 177 15
end Vx

/-! Fields of the ST descriptor (Table 4.9). -/

namespace St
def dir (d : Nat) : Nat := fld d 0 2
def tgt (d : Nat) : Nat := fld d 2 2
def fmtS (d : Nat) : Nat := fld d 4 4
def fmtB (d : Nat) : Nat := fld d 8 4
def rm (d : Nat) : Nat := fld d 12 3
def layout (d : Nat) : Nat := fld d 15 2
def mxtype (d : Nat) : Nat := fld d 17 3
def shape (d : Nat) : Nat := fld d 20 2
def saddr (d : Nat) : Nat := fld d 22 19
def peer (d : Nat) : Nat := fld d 41 13
def baddr (d : Nat) : Nat := fld d 96 42
def l0 (d : Nat) : Nat := fld d 138 12
def n1 (d : Nat) : Nat := fld d 150 12
def n2 (d : Nat) : Nat := fld d 162 12
def tstride1 (d : Nat) : Nat := fld d 174 18
def bstride1 (d : Nat) : Nat := fld d 192 30
def bstride2 (d : Nat) : Nat := fld d 222 30
def tstride2 (d : Nat) : Nat := fld d 252 18
def scbase (d : Nat) : Nat := fld d 288 42
def tscale (d : Nat) : Nat := fld d 330 19
def tsstride (d : Nat) : Nat := fld d 349 12
def idx (d : Nat) : Nat := fld d 361 19
end St

/-! Fields of the XC descriptor (Table 6.3). -/

namespace Xc
def list (d : Nat) : Nat := fld d 0 19
def nent (d : Nat) : Nat := fld d 19 13
def sbase (d : Nat) : Nat := fld d 32 19
def slimit (d : Nat) : Nat := fld d 51 19
def rbase (d : Nat) : Nat := fld d 70 19
def rlimit (d : Nat) : Nat := fld d 96 19
def expect (d : Nat) : Nat := fld d 115 20
def after (d : Nat) : Nat := fld d 135 32
end Xc

/-! Fields of the exchange-list entry (Table 6.4). -/

namespace Xe
def saddr (d : Nat) : Nat := fld d 0 19
def len (d : Nat) : Nat := fld d 19 11
def mc (d : Nat) : Nat := fld d 30 1
def dest (d : Nat) : Nat := fld d 31 13
def daddr (d : Nat) : Nat := fld d 44 19
def rop (d : Nat) : Nat := fld d 63 3
def route (d : Nat) : Nat := fld d 66 2
def rid (d : Nat) : Nat := fld d 68 12
def cidx (d : Nat) : Nat := fld d 80 6
end Xe

/-! Fields of the alcove descriptor (Table 5.3). -/

namespace Alc
def base (d : Nat) : Nat := fld d 0 19
def limit (d : Nat) : Nat := fld d 19 19
def scope (d : Nat) : Nat := fld d 38 2
def wr (d : Nat) : Nat := fld d 40 1
def rd (d : Nat) : Nat := fld d 41 1
def cls (d : Nat) : Nat := fld d 42 4
def group (d : Nat) : Nat := fld d 46 12
def kind (d : Nat) : Nat := fld d 58 4
end Alc

/-! Fields of the OPEN_OUT descriptor (Table 7.2). -/

namespace Oo
def outch (d : Nat) : Nat := fld d 0 6
def dkind (d : Nat) : Nat := fld d 6 2
def dtile (d : Nat) : Nat := fld d 8 13
def target (d : Nat) : Nat := fld d 21 13
def inch (d : Nat) : Nat := fld d 34 6
def rbase (d : Nat) : Nat := fld d 40 19
def rsize (d : Nat) : Nat := fld d 59 17
def maxlen (d : Nat) : Nat := fld d 76 9
def cls (d : Nat) : Nat := fld d 85 2
def reply (d : Nat) : Nat := fld d 87 1
def pair (d : Nat) : Nat := fld d 96 6
def rgrant (d : Nat) : Nat := fld d 102 9
end Oo

/-! Fields of the OPEN_IN descriptor (Table 7.3). -/

namespace Oi
def inch (d : Nat) : Nat := fld d 0 6
def skind (d : Nat) : Nat := fld d 6 2
def stile (d : Nat) : Nat := fld d 8 13
def source (d : Nat) : Nat := fld d 21 13
def soutch (d : Nat) : Nat := fld d 34 6
def rbase (d : Nat) : Nat := fld d 40 19
def rsize (d : Nat) : Nat := fld d 59 17
def hbase (d : Nat) : Nat := fld d 76 8
def hspanm1 (d : Nat) : Nat := fld d 84 4
def mode (d : Nat) : Nat := fld d 88 1
def replyin (d : Nat) : Nat := fld d 89 1
def cls (d : Nat) : Nat := fld d 90 2
def spbase (d : Nat) : Nat := fld d 96 42
def spsize (d : Nat) : Nat := fld d 138 20
def retbuf (d : Nat) : Nat := fld d 158 19
def spmark (d : Nat) : Nat := fld d 177 9
def rplch (d : Nat) : Nat := fld d 186 6
end Oi

/-! Fields of the SEND descriptor (Table 7.4). -/

namespace Snd
def outch (d : Nat) : Nat := fld d 0 6
def saddr (d : Nat) : Nat := fld d 6 19
def len (d : Nat) : Nat := fld d 25 9
def sub (d : Nat) : Nat := fld d 34 4
end Snd

/-! Fields of the queue-pool cell (Table 7.7). -/

namespace Cell
def ch (d : Nat) : Nat := fld d 0 6
def off (d : Nat) : Nat := fld d 6 16
def len (d : Nat) : Nat := fld d 22 9
def hnum (d : Nat) : Nat := fld d 31 8
def cls (d : Nat) : Nat := fld d 39 2
def idle (d : Nat) : Nat := fld d 41 1
def spilled (d : Nat) : Nat := fld d 42 1
def ready (d : Nat) : Nat := fld d 43 1
def spoff (d : Nat) : Nat := fld d 44 20
end Cell

/-- The rows of the command table a tile instruction belongs to (Tables 3.4, 3.5, 3.10, 7.1). -/
inductive Kind where
  | illegal | alu | alui | li | cmp | cmpi | plog | muldiv | ldh | sth | lde | ste | mfs | mts | setvl
  | br | call | jr | loop | callr | mx | vx | st | xc | send | openOut | openIn | closeOut | closeIn | alcOpen | alcClose
  | nop | land | landOpen | waitLand | fence | halt | hret | segOn | segOff
deriving DecidableEq, Repr

/-- The row of a SYNC function code (Table 3.10). -/
def kindOfSync (fn imm : Nat) : Kind :=
  match fn with
  | 0 => .nop | 1 => .land | 2 => .landOpen | 3 => .waitLand | 4 => .fence | 5 => .halt | 6 => .hret
  | 7 => if fld imm 8 1 = 1 then .segOn else .segOff
  | _ => .illegal

/-- The row of a branch kind (R76). -/
def kindOfBr (ck : Nat) : Kind :=
  match ck with
  | 0 => .br | 1 => .call | 2 => .jr | 3 => .loop | 4 => .callr | _ => .illegal

/-- The row of an MSG function (Table 7.1); a function the table does not list is refused, with SEND. -/
def kindOfMsg (f : Nat) : Kind :=
  match f with
  | 1 => .openOut | 2 => .openIn | 3 => .closeOut | 4 => .closeIn | _ => .send

/-- The row of an instruction half-word: reserved opcodes, function codes and branch kinds are ILLEGAL (R72, R73, R76). (DEDUCED, unsafe: log 30) -/
def kindOf (w : Nat) : Kind :=
  let fn := Ins.fn w
  match Ins.op w with
  | 0x01 => if fn ≤ 0x0F then .alu else .illegal
  | 0x02 => if fn ≤ 5 then .cmp else .illegal
  | 0x03 => if fn ≤ 3 then .plog else .illegal
  | 0x04 => if fn ≤ 7 then .muldiv else .illegal
  | 0x08 => if fn ≤ 0x0C then .alui else .illegal
  | 0x09 => if fn ≤ 2 then .li else .illegal
  | 0x0A => if fn ≤ 5 then .cmpi else .illegal
  | 0x0C => .ldh
  | 0x0D => .sth
  | 0x0E => .lde
  | 0x0F => .ste
  | 0x10 => .mfs
  | 0x11 => .mts
  | 0x12 => .setvl
  | 0x18 => kindOfBr (Ins.ck w)
  | 0x20 => .mx
  | 0x21 => .vx
  | 0x22 => .st
  | 0x23 => .xc
  | 0x24 => kindOfMsg (fld (Ins.aux w) 7 3)
  | 0x25 => if fld (Ins.aux w) 5 1 = 1 then .alcClose else .alcOpen
  | 0x30 => kindOfSync fn (Ins.imm w)
  | _ => .illegal

end Sys2Proof.Machine
end

