-- ==== Sys2Proof/Machine/Scoreboard.lean ====
section
/-! DEFINITION. The region scoreboard, issue queues and the issue of tile instructions (spec 03_tile_sequencer.md,
R66–R73, R79–R101). -/

namespace Sys2Proof.Machine

/-! Contexts and scalar registers (R66). Context 0 is the main context, 1 the handler context. -/

def Tile.ctx (t : Tile) (c : Nat) : Ctx := if c = 0 then t.main else t.hand
def Tile.setCtx (t : Tile) (c : Nat) (x : Ctx) : Tile := if c = 0 then { t with main := x } else { t with hand := x }
def State.ctx (s : State) (n c : Nat) : Ctx := (s.tile n).ctx c
def State.upCtx (s : State) (n c : Nat) (f : Ctx → Ctx) : State := s.upTile n (fun t => t.setCtx c (f (t.ctx c)))

/-- A scalar register: s0 reads zero, s1–s23 are shared, s24–s31 are the context's. -/
def Tile.sreg (t : Tile) (c i : Nat) : Half :=
  if i = 0 then 0 else if i < 24 then Sparse.get 0 t.sregs i else Sparse.get 0 (t.ctx c).bank i
/-- Write a scalar register; a write of s0 has no effect. -/
def Tile.setSreg (t : Tile) (c i : Nat) (v : Half) : Tile :=
  if i = 0 then t
  else if i < 24 then { t with sregs := Sparse.put 0 t.sregs i v }
  else t.setCtx c { t.ctx c with bank := Sparse.put 0 (t.ctx c).bank i v }
def State.sreg (s : State) (n c i : Nat) : Half := (s.tile n).sreg c i
def State.setSreg (s : State) (n c i : Nat) (v : Half) : State := s.upTile n (fun t => t.setSreg c i v)

/-- A predicate: p0 reads as 1. -/
def Tile.pred (t : Tile) (c i : Nat) : Bool := i == 0 || (t.ctx c).preds.getLsbD i
/-- Write a predicate; a write of p0 has no effect. -/
def Tile.setPred (t : Tile) (c i : Nat) (b : Bool) : Tile :=
  if i = 0 then t
  else
    let p := (t.ctx c).preds
    let m := BitVec.ofNat 8 (2 ^ i)
    t.setCtx c { t.ctx c with preds := if b then p ||| m else p &&& ~~~m }
def State.setPred (s : State) (n c i : Nat) (b : Bool) : State := s.upTile n (fun t => t.setPred c i b)

/-- Change a context's wait, noting the moment it began. -/
def State.setWait (s : State) (n c : Nat) (w : Wait) : State := s.upCtx n c (fun x => { x with wait := w, since := s.now })

/-! Scoreboard entries (R82–R85). -/

def overlaps (b1 l1 b2 l2 : Nat) : Bool := decide (b1 < l2) && decide (b2 < l1)

/-- Register one region of instruction `id` (R82); an empty region is not registered. -/
def sbAdd (id : Nat) (r : Region) : List SbEntry → List SbEntry
  | [] => if r.base < r.limit then [⟨r.base, r.limit, if r.write then some id else none, if r.write then [] else [id]⟩] else []
  | e :: rest =>
    if e.base = r.base ∧ e.limit = r.limit ∧ r.write = false ∧ e.readers.length < 63 then { e with readers := e.readers ++ [id] } :: rest
    else if e.base = r.base ∧ e.limit = r.limit ∧ r.write = true ∧ e.writer = none then { e with writer := some id } :: rest
    else e :: sbAdd id r rest

/-- Register an instruction's regions in order (R82). -/
def sbRegister (sb : List SbEntry) (id : Nat) (rs : List Region) : List SbEntry := rs.foldl (fun b r => sbAdd id r b) sb

/-- Entries with no writer and no reader are freed (R82). -/
def sbFree (sb : List SbEntry) : List SbEntry := sb.filter (fun e => e.writer.isSome || !e.readers.isEmpty)
/-- Clear an instruction's reads (R84). -/
def sbClearReads (sb : List SbEntry) (id : Nat) : List SbEntry :=
  sbFree (sb.map (fun e => { e with readers := e.readers.filter (· != id) }))
/-- Clear an instruction's writes (R84). -/
def sbClearWrites (sb : List SbEntry) (id : Nat) : List SbEntry :=
  sbFree (sb.map (fun e => { e with writer := if e.writer = some id then none else e.writer }))

/-- Whether instruction `id`'s dependencies have cleared (R83): no overlapping registration of an instruction
dispatched earlier and not in `same` (its own chain, R116). -/
def sbReady (sb : List SbEntry) (id : Nat) (same : List Nat) (rs : List Region) : Bool :=
  let older := fun (j : Nat) => decide (j < id) && !same.contains j
  rs.all (fun r => sb.all (fun e => !overlaps e.base e.limit r.base r.limit ||
    ((e.writer.all (fun j => !older j)) && (!r.write || e.readers.all (fun j => !older j)))))

/-- A hazard that holds a scalar load of [a, a + k), a store when `store`, or a descriptor read (R85). -/
def sbHazard (sb : List SbEntry) (a k : Nat) (store : Bool) : Bool :=
  sb.any (fun e => overlaps e.base e.limit a (a + k) && (e.writer.isSome || (store && !e.readers.isEmpty)))

/-! Issue queues (Table 3.7). -/

def queueDepth (eng : Nat) : Nat := match eng with | 0 => 16 | 1 => 32 | 2 => 64 | 3 => 32 | _ => 16
def queueReserve (eng : Nat) : Nat := match eng with | 0 => 2 | 1 => 4 | 2 => 8 | 3 => 0 | _ => 4

/-- Whether an instruction is queued: until it starts; a message until its last packet has left (R199). -/
def EngInstr.inQueue (i : EngInstr) : Bool := i.stage == .queued || (i.eng == 4 && i.stage == .running)

/-- The chain at the front of queued vector instructions: its instructions up to the store that ends it, or up to what is
queued of it; a handler instruction stands in its way. A store with no chain before it is none. -/
def chainPrefix (opened : Bool) : List EngInstr → List Nat
  | [] => []
  | i :: rest => if i.handler then [] else if Vx.selD i.desc = 0 then (if opened then [i.id] else []) else i.id :: chainPrefix true rest
/-- The chain buffer (R117): queued instructions of a chain that have reached the head of the vector queue and have left it. It takes the
next chain when the one before has run. (DESIGN CHOICE, unsafe: log 172) -/
def Tile.chainBuf (t : Tile) : List Nat :=
  if t.instrs.any (fun i => i.eng == 1 && i.stage == .running && !i.handler) then []
  else chainPrefix false (t.instrs.filter (fun i => i.eng == 1 && i.stage == .queued))

/-- The instructions in an engine's issue queue. -/
def Tile.queueOf (t : Tile) (eng : Nat) : List EngInstr := t.instrs.filter (fun i => i.eng == eng && i.inQueue && !(eng == 1 && t.chainBuf.contains i.id))

/-- Whether context c may take an entry of an engine's queue (R80). -/
def Tile.queueFree (t : Tile) (eng c : Nat) : Bool :=
  let q := t.queueOf eng
  let h := (q.filter (·.handler)).length
  let m := q.length - h
  let open_ := queueDepth eng - queueReserve eng
  (c == 1 && decide (h < queueReserve eng)) || decide (m + (h - queueReserve eng) < open_)

def Tile.instr? (t : Tile) (id : Nat) : Option EngInstr := t.instrs.find? (fun i => i.id == id)
def State.upInstr (s : State) (n id : Nat) (f : EngInstr → EngInstr) : State :=
  s.upTile n (fun t => { t with instrs := t.instrs.map (fun i => if i.id = id then f i else i) })
/-- An instruction completes: it leaves the tile (R90). -/
def State.complete (s : State) (n id : Nat) : State :=
  s.upTile n (fun t => { t with instrs := t.instrs.filter (fun i => i.id != id), sb := sbClearWrites (sbClearReads t.sb id) id })
def State.clearReads (s : State) (n id : Nat) : State := s.upTile n (fun t => { t with sb := sbClearReads t.sb id })
def State.clearWrites (s : State) (n id : Nat) : State := s.upTile n (fun t => { t with sb := sbClearWrites t.sb id })

/-! Issue (R70–R73, R99–R101). -/

/-- A tile that its partition runs: owned, not faulted, not stopped by a landing fault. -/
def State.alive (s : State) (n : Nat) : Bool :=
  (s.partOf n).isSome && s.g F.SEQ_FAULT_A_VALID n == 0 && !(s.tile n).stopped

/-- A context that may issue now: its tile alive and not stopped by debug (but for the main context's one instruction of DBG.CTRL.STEP), and it is
not in a wait. -/
def State.canIssue (s : State) (n c : Nat) : Bool :=
  s.alive n && (!(s.tile n).dbgStop || (c == 0 && (s.tile n).bpPass / 4 == 1)) && ((s.ctx n c).wait == .run || (s.ctx n c).wait == .data)

/-- The enabled breakpoint at an address for a context, if any (Table 3.14). -/
def State.breakpoint (s : State) (n c pc : Nat) : Option Nat :=
  (List.range 4).find? (fun k => s.g F.DBG_BP_EN n k == 1 && s.g F.DBG_BP_CTX n k == c && s.g F.DBG_BP_IADDR n k == pc)

/-- A handler instruction decrements its budget (R99); an instruction counts as issued (Table 3.13). -/
def State.countIssue (s : State) (n c : Nat) : State :=
  if c = 0 then
    let s := (s.inc F.SEQ_ISSUED_M_COUNT n 0 1).upTile n (fun t => { t with begun := true })
    match s.partOf n with
    | some p => s.checkLaunch p
    | none => s
  else (s.inc F.SEQ_ISSUED_H_COUNT n 0 1).upTile n (fun t => { t with budget := t.budget - 1 })

def inCode (s : State) (n pc : Nat) : Bool := decide (s.g F.SEQ_CODE_BASE n ≤ pc) && decide (pc < s.g F.SEQ_CODE_LIMIT n)

/-- The half-word the fetch buffer holds for a program counter, and whether its word is held poisoned (R70). -/
def Tile.fetched (t : Tile) (pc : Nat) : Option (Nat × Bool) :=
  match Sparse.find? t.lines (pc / 32 % 64) with
  | some (tag, hs, bad) =>
    if tag = pc / 32 then some ((hs[pc % 32]?.getD 0).toNat, bad.contains (pc % 32 / 2)) else none
  | none => none

/-- Set a context's program counter. -/
def State.setPc (s : State) (n c pc : Nat) : State := s.upCtx n c (fun x => { x with pc := pc % 2 ^ 17 })

/-- The handler-only and main-only rows (R95). -/
def ctxForbidden (k : Kind) (c : Nat) : Bool :=
  if c = 0 then k == .hret
  else k == .land || k == .landOpen || k == .waitLand || k == .halt || k == .segOn || k == .segOff || k == .xc

/-- Run an instruction's own effect with the pc already past it; a fault leaves the pc at the instruction. -/
def State.perform (s : State) (n c pc : Nat) (body : State → State) : State :=
  let s' := body (s.setPc n c (pc + 1))
  if s'.g F.SEQ_FAULT_A_VALID n = 1 ∧ s.g F.SEQ_FAULT_A_VALID n = 0 then s'.setPc n c pc else s'

/-- Issue the instruction at a context's pc if it belongs to row `k` (R70–R73). In order: FETCH_RANGE, a breakpoint, a
fetch miss, FETCH_POISON, HBUDGET, a hazard wait (`ready`), the guard, which a reserved OP or FN does not heed, ILLEGAL, CTX_ILLEGAL, then
the row's own effect. A context that stopped at a breakpoint passes it once.
(DESIGN CHOICE, unsafe: log 175) (DESIGN CHOICE, safe: log 2) (DESIGN CHOICE, unsafe: log 158) (DESIGN CHOICE, unsafe: log 175) -/
def State.issue (s : State) (n c : Nat) (k : Kind) (ready : State → Nat → Bool) (body : State → Nat → State) : State :=
  if !s.canIssue n c then s
  else
    let pc := (s.ctx n c).pc
    if !inCode s n pc then s.tileFault n c 2 5 pc 0
    else
      match (if (s.tile n).bpPass / 2 ^ c % 2 = 1 then none else s.breakpoint n c pc) with
      | some b =>
        ((s.upTile n (fun t => { t with dbgStop := true, bpPass := 2 ^ c })).w F.DBG_CTRL_BPHIT n 0 1).w F.DBG_CTRL_BPIDX n 0 b
      | none =>
        match (s.tile n).fetched pc with
        | none => (s.inc F.SEQ_FETCH_MISS_COUNT n 0 1).setWait n c (.fill (pc / 32))
        | some (w, bad) =>
          if bad then (s.inc F.TILE_POISON_RD_COUNT n 0 1).tileFault n c 0x0D 5 pc (pc / 2)
          else if kindOf w != k then s
          else if c == 1 && (s.tile n).budget == 0 then s.tileFault n c 8 5 pc 0
          else
            let go := (s.tile n).pred c (Ins.pg w) != (Ins.pn w == 1)
            if go && !ready s w then (if (s.ctx n c).wait == .data then s else s.setWait n c .data)
            else
              let s := if (s.ctx n c).wait == .data then s.inc F.SEQ_STALL_DATA_COUNT n 0 (s.cyclesSince (n / 64) (s.ctx n c).since) else s
              let s := ((s.setWait n c .run).upTile n (fun t => { t with bpPass := 0 })).countIssue n c
              if k == .illegal && (go || Ins.op w != 0x18) then s.tileFault n c 1 5 pc 0
              else if !go then s.setPc n c (pc + 1)
              else if ctxForbidden k c then s.tileFault n c 7 5 pc 0
              else s.perform n c pc (fun s => body s w)

/-- Issue of a row that no hazard holds. -/
def State.issuePlain (s : State) (n c : Nat) (k : Kind) (body : State → Nat → State) : State := s.issue n c k (fun _ _ => true) body

end Sys2Proof.Machine
end

