-- ==== Sys2Proof/Machine/Control.lean ====
section
/-! DEFINITION. Control space (R10, R11, R29–R31, Tables 1.6 and 1.7): which register an address names, the
registers whose fields are views of other state, and the software read and write of a register. -/

namespace Sys2Proof.Machine

def regsOf : RUnit → List Reg
  | .dev => regsOf_dev | .owner => regsOf_owner | .land => regsOf_land | .sync => regsOf_sync | .cq => regsOf_cq
  | .ev => regsOf_ev | .memc => regsOf_memc | .gmem => regsOf_gmem | .coll => regsOf_coll | .port => regsOf_port
  | .sp => regsOf_sp | .risk => regsOf_risk | .mb => regsOf_mb | .hall => regsOf_hall | .tile => regsOf_tile

/-- The block an address lies in, the block's number and the offset within it (Tables 1.6 and 1.7). -/
def addrUnit (a : Nat) : Option (RUnit × Nat × Nat) :=
  if a < 0x10000 then some (.dev, 0, a)
  else if a < 0x10000 + 0x100 * 64 then some (.cq, (a - 0x10000) / 0x100, (a - 0x10000) % 0x100)
  else if 0x80000 ≤ a && a < 0x80000 + 0x100 * 9 then some (.ev, (a - 0x80000) / 0x100, (a - 0x80000) % 0x100)
  else if 0x100000 ≤ a && a < 0x100000 + 8 * 72 then some (.owner, (a - 0x100000) / 8, (a - 0x100000) % 8)
  else if 0x101000 ≤ a && a < 0x101800 then some (.land, (a - 0x101000) / 0x100, (a - 0x101000) % 0x100)
  else if 0x102000 ≤ a && a < 0x103000 then some (.sync, 0, a - 0x102000)
  else if 0x808000 ≤ a && a < 0x809000 then some (.gmem, 0, a - 0x808000)
  else if 0x800000 ≤ a && a < 0xA00000 then some (.memc, (a - 0x800000) / 0x10000, (a - 0x800000) % 0x10000)
  else if 0xA00000 ≤ a && a < 0xA08000 then some (.coll, (a - 0xA00000) / 0x1000, (a - 0xA00000) % 0x1000)
  else if 0xB00000 ≤ a && a < 0xD40000 then some (.port, (a - 0xB00000) / 0x10000, (a - 0xB00000) % 0x10000)
  else if 0xE00000 ≤ a && a < 0xE08000 then some (.sp, (a - 0xE00000) / 0x1000, (a - 0xE00000) % 0x1000)
  else if 0xE08000 ≤ a && a < 0xF00000 then some (.risk, 0, a - 0xE08000)
  else if 0xF00000 ≤ a && a < 0x1000000 then some (.mb, 0, a - 0xF00000)
  else if 0x1000000 ≤ a && a < 0xA000000 then
    let h := (a - 0x1000000) / 0x200000
    let o := (a - 0x1000000) % 0x200000
    if o < 0x100000 then some (.tile, h * 64 + o / 0x4000, o % 0x4000) else some (.hall, h, o - 0x100000)
  else none

/-- The register of a block at an offset, and which of its kind it is. -/
def findReg (l : List Reg) (o : Nat) : Option (Reg × Nat) :=
  match l with
  | [] => none
  | r :: rest =>
    if r.off ≤ o ∧ o - r.off = r.stride * ((o - r.off) / max r.stride 1) ∧ (o - r.off) / max r.stride 1 < r.count then
      some (r, (o - r.off) / max r.stride 1)
    else findReg rest o

/-- The register an 8-byte-aligned control-space address names: the register, its block's number and its index. -/
def regAt (a : Nat) : Option (Reg × Nat × Nat) :=
  match addrUnit a with
  | some (u, k, o) => (findReg (regsOf u) o).map (fun p => (p.1, k, p.2))
  | none => none

/-! Views: fields that show other state. -/

/-- SEQ.STATE.MAIN (Table 3.13). -/
def State.mainState (s : State) (n : Nat) : Nat :=
  if s.g F.SEQ_FAULT_A_VALID n = 1 then 5 else if (s.tile n).stopped then 6
  else match (s.ctx n 0).wait with
    | .off => 0
    | .ended => 3
    | .run => if (s.tile n).dbgStop then 4 else 1
    | _ => if (s.tile n).dbgStop then 4 else 2
/-- SEQ.STATE.HAND (Table 3.13). -/
def State.handState (s : State) (n : Nat) : Nat :=
  if s.g F.SEQ_FAULT_A_VALID n = 1 then 5 else if (s.tile n).stopped then 6
  else match (s.ctx n 1).wait with
    | .off => 0
    | .idle => if (s.tile n).dbgStop then 4 else 1
    | .run => if (s.tile n).dbgStop then 4 else 2
    | _ => if (s.tile n).dbgStop then 4 else 3

/-- The exchange instruction at the head, if any. -/
def Tile.xcHead (t : Tile) : Option EngInstr := t.instrs.find? (fun i => i.eng == 3)

/-- A debug view of word ADDR (Table 3.14): data, POISON and OFF; the view corrects like a read and changes nothing. -/
def State.dbgWord (s : State) (n : Nat) : Nat × Nat × Nat :=
  let a := s.g F.DBG_WADDR_ADDR n
  if padWords ≤ a then (0, 0, 0)
  else if !s.segOn n a then (0, 0, 1)
  else match readStored (Sparse.get 0 (s.tile n).mem a) with
    | .clean d => (d, 0, 0)
    | .corrected d => (d, 0, 0)
    | _ => (0, 1, 0)

/-- The fault mask of DEV.HALL_FAULT and DEV.HALL_FAULT_HI. -/
def State.hallFaults (s : State) : Nat := s.g F.DEV_HALL_FAULT_FAULT_LO 0 + s.g F.DEV_HALL_FAULT_HI_FAULT_HI 0 * 2 ^ 64

/-- Set several fields of a register value. -/
def setFields (v : BitVec 64) (l : List (Fld × Nat)) : BitVec 64 := l.foldl (fun v p => setBitsAt v p.1.lo p.1.width p.2) v

/-- Queue-pool cells in use, as (shared, reserve) of a tile: a cell is its tile's reserve cell when below 1,024 (R206). -/
def cellUsed (cells : Sparse Stored) (lo hi : Nat) : Nat :=
  (cells.filter (fun e => e.1 % 2 == 1 && decide (lo ≤ e.1 / 2) && decide (e.1 / 2 < hi) && e.2.getLsbD 17)).length

/-- Dispatch lists of tile t of a hall. -/
def Hall.listsOf (x : Hall) (t : Nat) : Lists := Sparse.get ⟨[], [], false⟩ x.lists t

/-- The views of a tile register; none for one that holds its own value. -/
def State.tileView (s : State) (r : Reg) (n i : Nat) (v : BitVec 64) : BitVec 64 :=
  let t := s.tile n
  if r = R.SEQ_STATE then
    setFields v [(F.SEQ_STATE_MAIN, s.mainState n), (F.SEQ_STATE_HAND, s.handState n), (F.SEQ_STATE_HNUM, (t.running.map (·.hnum)).getD 0)]
  else if r = R.SEQ_PC then setFields v [(F.SEQ_PC_MPC, t.main.pc), (F.SEQ_PC_HPC, t.hand.pc)]
  else if r = R.SEQ_VL then setFields v [(F.SEQ_VL_MAIN, t.main.vl), (F.SEQ_VL_HAND, t.hand.vl)]
  else if r = R.SEQ_QOCC then
    setFields v [(F.SEQ_QOCC_MX, (t.queueOf 0).length), (F.SEQ_QOCC_VX, (t.queueOf 1).length), (F.SEQ_QOCC_ST, (t.queueOf 2).length),
      (F.SEQ_QOCC_XC, (t.queueOf 3).length), (F.SEQ_QOCC_MSG, (t.queueOf 4).length)]
  else if r = R.SEQ_SBOCC then setFields v [(F.SEQ_SBOCC_USED, t.sb.length)]
  else if r = R.TILE_SR_SEQ then setFields v [(F.TILE_SR_SEQ_QMAIN, t.main.srq), (F.TILE_SR_SEQ_QHANDLER, t.hand.srq)]
  else if r = R.DBG_CTRL then setFields v [(F.DBG_CTRL_STOPPED, if t.dbgStop then 1 else 0)]
  else if r = R.DBG_WDATA_LO then setFields v [(F.DBG_WDATA_LO_DATA, (s.dbgWord n).1)]
  else if r = R.DBG_WDATA_HI then
    let d := s.dbgWord n
    setFields v [(F.DBG_WDATA_HI_DATA, d.1 / 2 ^ 64), (F.DBG_WDATA_HI_POISON, d.2.1), (F.DBG_WDATA_HI_OFF, d.2.2)]
  else if r = R.DBG_SDATA then
    let b := s.g F.DBG_SSEL_BANK n
    setFields v [(F.DBG_SDATA_VALUE, (t.sreg b (s.g F.DBG_SSEL_REG n)).toNat), (F.DBG_SDATA_PRED, (t.ctx b).preds.toNat)]
  else if r = R.XC_STATE then
    let hd := t.xcHead
    setFields v [(F.XC_STATE_NEXT, (hd.map (·.next)).getD 0), (F.XC_STATE_UNACK, t.xcUnack.length),
      (F.XC_STATE_WAITLAND, if (hd.map (·.stage)).getD .running == .queued then 1 else 0)]
  else if r = R.CHI_STATE then
    let l := (s.hall (n / 64)).listsOf (n % 64)
    let k := ((l.c0 ++ l.c1).filter (fun c => Cell.ch ((Sparse.get 0 (s.hall (n / 64)).cells (2 * c)).toNat) == i)).length
    setFields v [(F.CHI_STATE_QUEUED, min k 4095)]
  else v

/-- Messages awaiting acknowledgement at a tile's message port. -/
def Tile.unackMsgs (t : Tile) : Nat := (t.outCh.map (fun e => e.2.unacked.length)).sum

/-- The views of a hall register. -/
def State.hallView (s : State) (r : Reg) (h i : Nat) (v : BitVec 64) : BitVec 64 :=
  let x := s.hall h
  if r = R.HALL_ASUM then
    setFields v [(F.HALL_ASUM_TILES, (List.range 64).foldl (fun a t =>
      if s.regs.rd R.TILE_TSTAT (h * 64 + t) = 0 ∧ s.regs.rd R.TILE_IEEE_FLAGS (h * 64 + t) = 0 then a else a + 2 ^ t) 0)]
  else if r = R.HALL_QPOOL_FREE then
    setFields v [(F.HALL_QPOOL_FREE_SHARED, 64512 - cellUsed x.cells 1024 65536), (F.HALL_QPOOL_FREE_RESERVE, 1024 - cellUsed x.cells 0 1024)]
  else if r = R.HALL_QDEPTH then
    let l := x.listsOf i
    setFields v [(F.HALL_QDEPTH_DEPTH, l.c0.length + l.c1.length), (F.HALL_QDEPTH_C0, cellUsed x.cells (16 * i) (16 * i + 16))]
  else if r = R.HALL_MSG_PORT then setFields v [(F.HALL_MSG_PORT_UNACK, (s.tile (h * 64 + i)).unackMsgs)]
  else if r = R.HALL_RED_PENDING then
    setFields v [(F.HALL_RED_PENDING_WORDS, (x.pending.map (fun e => match Sparse.find? x.reds e.1 with | some d => d.n * d.len | none => 0)).sum)]
  else v

/-- The views of the device and partition registers. (DESIGN CHOICE, unsafe: log 14) -/
def State.devView (s : State) (r : Reg) (k : Nat) (v : BitVec 64) : BitVec 64 :=
  if r = R.DEV_IDENT then setFields v [(F.DEV_IDENT_STEPPING, Config.stepping)]
  else if r = R.DEV_SERIAL then setFields v [(F.DEV_SERIAL_SERIAL, Config.serial)]
  else if r = R.DEV_STATUS then
    setFields v [(F.DEV_STATUS_FAULT_ANY, if s.hallFaults = 0 then 0 else 1), (F.DEV_STATUS_PARTS, (s.parts.filter (fun p => !p.dormant)).length)]
  else if r = R.DEV_TIME then setFields v [(F.DEV_TIME_TIME, s.now)]
  else if r = R.LAND_OPENCNT then setFields v [(F.LAND_OPENCNT_INCOMPLETE, ((s.part? k).map (fun p => (p.landings.filter (·.first.isSome)).length)).getD 0)]
  else v

/-- The present value of a register, views included. -/
def State.regValue (s : State) (r : Reg) (k i : Nat) : BitVec 64 :=
  let v := s.regs.rd r k i
  match r.unit with
  | .tile => s.tileView r k i v
  | .hall => s.hallView r k i v
  | _ => s.devView r k v

/-- Whether R31 hides a register: its hall is free or being cleared, and it is neither HALL.CLK nor a sensor register. -/
def State.hidden (s : State) (r : Reg) (k : Nat) : Bool :=
  match r.unit with
  | .tile => (s.ownerOf (k / 64)).isNone
  | .hall => (s.ownerOf k).isNone && r != R.HALL_CLK && !decide (0x20000 ≤ r.off)
  | .cq => s.g F.CQ_CFG_VALID k != 1
  | _ => false

/-- A software read: the value, and the state with the RC fields it reads cleared (R10, R12). Hidden registers read zero. -/
def State.swReadReg (s : State) (r : Reg) (k i : Nat) : BitVec 64 × State :=
  if s.hidden r k then (0, s)
  else (r.readValue (s.regValue r k i), s.wreg r k i (r.afterRead (s.regs.rd r k i)))

/-- The written value within a mask of bits: fields outside the mask are not written. -/
def Reg.writtenIn (r : Reg) (old new : BitVec 64) (lo hi : Nat) : BitVec 64 :=
  let part := { r with fields := r.fields.filter (fun f => decide (lo ≤ f.lo) && decide (f.lo < hi)) }
  part.written old new

/-- Clearing TSTAT bits also clears VALID of the matching first-event records (R55). -/
def State.clearTstat (s : State) (n bits : Nat) : State :=
  let s := s.wreg R.TILE_TSTAT n 0 (R.TILE_TSTAT.written (s.regs.rd R.TILE_TSTAT n 0) (BitVec.ofNat 64 bits))
  (List.range 5).foldl (fun s k => if bits / 2 ^ k % 2 = 1 then s.w F.TILE_TFIRST_A_VALID n k 0 else s) s

/-- A write of TILE.SR_SEED resets both SR sequence numbers (R44, R78). -/
def State.seedWrite (s : State) (n : Nat) (v : BitVec 64) : State :=
  (s.wreg R.TILE_SR_SEED n 0 v).upTile n (fun t => { t with main := { t.main with srq := 0 }, hand := { t.hand with srq := 0 } })

/-- A software write of a register that has no further effect than its field types give (R10), with the value
corrections of the tables: LAND.CTRL.TIMEOUT 0 becomes 1 (Table 6.8). -/
def State.swWriteReg (s : State) (r : Reg) (k i : Nat) (v : BitVec 64) : State :=
  if s.hidden r k then s
  else if r = R.TILE_TSTAT then s.clearTstat k (v.toNat % 32)
  else if r = R.TILE_SR_SEED then s.seedWrite k v
  else s.wreg r k i (r.written (s.regs.rd r k i) v)

end Sys2Proof.Machine
end

