-- ==== Sys2Proof/Machine/Scalar.lean ====
section
/-! DEFINITION. The scalar instructions (spec 03_tile_sequencer.md, R73–R78): what each row of the command table
does when context `c` (0 main, 1 handler) of tile `n` issues it. -/

namespace Sys2Proof.Machine

abbrev Res := Host.Outcome State Fault Refusal

/-- A tile row: the tile and context named must exist. -/
def onTile (n c : Nat) (s : State) : Res := if n < numTiles ∧ c < 2 then .next s else .fault .noSuchUnit

/-- The ALU function (Table 3.5, R74); codes above 0x0F do not reach here. `p` is the predicate SEL reads. -/
def aluOp (fn : Nat) (a b : Half) (p : Bool) : Half :=
  match fn with
  | 0x00 => a + b
  | 0x01 => a - b
  | 0x02 => a &&& b
  | 0x03 => a ||| b
  | 0x04 => a ^^^ b
  | 0x05 => a &&& ~~~b
  | 0x06 => a <<< (b.toNat % 64)
  | 0x07 => a >>> (b.toNat % 64)
  | 0x08 => a.sshiftRight (b.toNat % 64)
  | 0x09 => if a.slt b then a else b
  | 0x0A => if a.slt b then b else a
  | 0x0B => if a.ult b then a else b
  | 0x0C => if a.ult b then b else a
  | 0x0D => if p then a else b
  | 0x0E => BitVec.ofNat 48 (if a = 0 then 48 else 47 - Nat.log2 a.toNat)
  | _ => BitVec.ofNat 48 (((List.range 48).filter (fun i => a.getLsbD i)).length)

/-- The multiply and divide functions (Table 3.5, R74). -/
def mulOp (fn : Nat) (a b c : Half) : Half :=
  match fn with
  | 0x00 => a * b
  | 0x01 => BitVec.ofInt 48 (a.toInt * b.toInt / 2 ^ 48)
  | 0x02 => BitVec.ofNat 48 (a.toNat * b.toNat / 2 ^ 48)
  | 0x03 => if b = 0 then BitVec.allOnes 48 else a.sdiv b
  | 0x04 => if b = 0 then BitVec.allOnes 48 else a / b
  | 0x05 => if b = 0 then a else a.srem b
  | 0x06 => if b = 0 then a else a % b
  | _ => a * b + c

/-- The comparisons (Table 3.5). -/
def cmpOp (fn : Nat) (a b : Half) : Bool :=
  match fn with
  | 0 => a == b
  | 1 => a != b
  | 2 => a.slt b
  | 3 => !b.slt a
  | 4 => a.ult b
  | _ => !b.ult a

/-- The predicate operations (Table 3.5). -/
def plogOp (fn : Nat) (a b : Bool) : Bool :=
  match fn with
  | 0 => a && b
  | 1 => a || b
  | 2 => a != b
  | _ => a && !b

/-- A sign-extended 22-bit immediate as a half-word. -/
def immHalf (w : Nat) : Half := BitVec.ofInt 48 (sext (Ins.imm w) 22)

/-- ILLEGAL (R72, R73). -/
def execIllegal (n c : Nat) (s : State) : Res := onTile n c (s.issuePlain n c .illegal (fun s _ => s))

/-- ALU (R74). -/
def execAlu (n c : Nat) (s : State) : Res :=
  onTile n c (s.issuePlain n c .alu (fun s w =>
    s.setSreg n c (Ins.sd w) (aluOp (Ins.fn w) (s.sreg n c (Ins.sa w)) (s.sreg n c (Ins.sb w)) ((s.tile n).pred c (Ins.pd w)))))

/-- ALUI (R74): the second operand is the sign-extended immediate; shifts use IMM[5:0]. -/
def execAlui (n c : Nat) (s : State) : Res :=
  onTile n c (s.issuePlain n c .alui (fun s w =>
    s.setSreg n c (Ins.sd w) (aluOp (Ins.fn w) (s.sreg n c (Ins.sa w)) (immHalf w) false)))

/-- LI (Table 3.5): LIL, LIS and LIH. -/
def execLi (n c : Nat) (s : State) : Res :=
  onTile n c (s.issuePlain n c .li (fun s w =>
    let v := Ins.sa w * 2 ^ 22 + Ins.imm w
    s.setSreg n c (Ins.sd w)
      (match Ins.fn w with
       | 0 => BitVec.ofNat 48 v
       | 1 => BitVec.ofInt 48 (sext v 27)
       | _ => BitVec.ofNat 48 (Ins.imm w * 2 ^ 26 + (s.sreg n c (Ins.sd w)).toNat % 2 ^ 26))))

/-- CMP (Table 3.5). -/
def execCmp (n c : Nat) (s : State) : Res :=
  onTile n c (s.issuePlain n c .cmp (fun s w =>
    s.setPred n c (Ins.pd w) (cmpOp (Ins.fn w) (s.sreg n c (Ins.sa w)) (s.sreg n c (Ins.sb w)))))

/-- CMPI (Table 3.5): the predicate is SD[2:0]. -/
def execCmpi (n c : Nat) (s : State) : Res :=
  onTile n c (s.issuePlain n c .cmpi (fun s w =>
    s.setPred n c (Ins.sd w % 8) (cmpOp (Ins.fn w) (s.sreg n c (Ins.sa w)) (immHalf w))))

/-- PLOG (Table 3.5). -/
def execPlog (n c : Nat) (s : State) : Res :=
  onTile n c (s.issuePlain n c .plog (fun s w =>
    s.setPred n c (Ins.pd w) (plogOp (Ins.fn w) ((s.tile n).pred c (Ins.sa w % 8)) ((s.tile n).pred c (Ins.sb w % 8)))))

/-- MULDIV (R74). -/
def execMuldiv (n c : Nat) (s : State) : Res :=
  onTile n c (s.issuePlain n c .muldiv (fun s w =>
    s.setSreg n c (Ins.sd w) (mulOp (Ins.fn w) (s.sreg n c (Ins.sa w)) (s.sreg n c (Ins.sb w)) (s.sreg n c (Ins.sc w)))))

/-! Loads and stores (R75). -/

/-- The word address of a scalar access: SA plus a sign-extended offset, modulo 2^48. -/
def accAddr (s : State) (n c w off width : Nat) : Nat := (s.sreg n c (Ins.sa w) + BitVec.ofInt 48 (sext off width)).toNat
def halfAddr (s : State) (n c w : Nat) : Nat := accAddr s n c w (fld w 0 21) 21
def elemAddr (s : State) (n c w : Nat) : Nat := accAddr s n c w (fld w 0 15) 15
/-- Element width of a kind code (R75): 0 where the kind is 6 or 7. -/
def elemWidth (k : Nat) : Nat := match k with | 0 => 8 | 1 => 8 | 2 => 16 | 3 => 16 | 4 => 32 | 5 => 32 | _ => 0
/-- Whether the element kind and index of an LDE or STE exist (R75). -/
def elemOk (w : Nat) : Bool :=
  let wd := elemWidth (fld w 19 3)
  wd != 0 && decide (fld w 15 4 < 96 / wd)

/-- The fault of a scalar access at word a, none where it may proceed: ADDR_RANGE, SEG_OFF, and CODE_WP for a store (R69, R75). -/
def accFault (s : State) (n a : Nat) (store : Bool) : Option Nat :=
  if padWords ≤ a then some 3 else if !s.segOn n a then some 4 else if store && s.touchesCode n a (a + 1) then some 5 else none

/-- A scalar access is ready when it faults anyway or no hazard holds its word (R85). -/
def accReady (n a : Nat) (ok store : Bool) (s : State) : Bool :=
  !ok || (accFault s n a store).isSome || !sbHazard (s.tile n).sb a 1 store

/-- A scalar load: bits [lo + width − 1 : lo] of word a into SD, sign-extended when `sgn`; a poisoned word faults (R75, R143). -/
def loadBits (s : State) (n c w a lo width : Nat) (sgn : Bool) : State :=
  let pc := (s.ctx n c).pc - 1
  match accFault s n a false with
  | some f => s.tileFault n c f 5 pc (a % 2 ^ 19)
  | none =>
    let r := s.readWord n a 1 (s.tile n).flight
    if r.2.2 then r.1.tileFault n c 0x0A 5 pc a
    else
      let x := fld r.2.1 lo width
      r.1.setSreg n c (Ins.sd w) (if sgn then BitVec.ofInt 48 (sext x width) else BitVec.ofNat 48 x)

/-- A scalar store of SD's low bits into part of word a (R75, R145). -/
def storeBits (s : State) (n c w a lo width : Nat) : State :=
  let pc := (s.ctx n c).pc - 1
  match accFault s n a true with
  | some f => s.tileFault n c f 5 pc (a % 2 ^ 19)
  | none => s.mergeWord n a lo width (s.sreg n c (Ins.sd w)).toNat 5 (s.tile n).flight

/-- LDH (R75). -/
def execLdh (n c : Nat) (s : State) : Res :=
  onTile n c (s.issue n c .ldh (fun s w => accReady n (halfAddr s n c w) true false s)
    (fun s w => loadBits s n c w (halfAddr s n c w) (48 * fld w 21 1) 48 false))

/-- STH (R75, R145). -/
def execSth (n c : Nat) (s : State) : Res :=
  onTile n c (s.issue n c .sth (fun s w => accReady n (halfAddr s n c w) true true s)
    (fun s w => storeBits s n c w (halfAddr s n c w) (48 * fld w 21 1) 48))

/-- LDE (R75): an element kind of 6 or 7 or an index beyond the word's element count faults with ILLEGAL. -/
def execLde (n c : Nat) (s : State) : Res :=
  onTile n c (s.issue n c .lde (fun s w => accReady n (elemAddr s n c w) (elemOk w) false s)
    (fun s w =>
      let wd := elemWidth (fld w 19 3)
      if !elemOk w then s.tileFault n c 1 5 ((s.ctx n c).pc - 1) 0
      else loadBits s n c w (elemAddr s n c w) (wd * fld w 15 4) wd (fld w 19 1 == 1)))

/-- STE (R75, R145). -/
def execSte (n c : Nat) (s : State) : Res :=
  onTile n c (s.issue n c .ste (fun s w => accReady n (elemAddr s n c w) (elemOk w) true s)
    (fun s w =>
      let wd := elemWidth (fld w 19 3)
      if !elemOk w then s.tileFault n c 1 5 ((s.ctx n c).pc - 1) 0
      else storeBits s n c w (elemAddr s n c w) (wd * fld w 15 4) wd))

/-! Special registers (R77, R78, Table 3.6). -/

/-- The arithmetic status register j of Table 2.9 (R78). -/
def statusReg (j : Nat) : Reg × Nat :=
  match j with
  | 0 => (R.TILE_TSTAT, 0) | 1 => (R.TILE_IEEE_FLAGS, 0) | 2 => (R.TILE_VSTAT, 0) | 3 => (R.TILE_QCRUSH, 0)
  | 4 => (R.TILE_AMODE, 0) | 5 => (R.TILE_AMASK, 0) | 6 => (R.TILE_SR_SEED, 0) | 7 => (R.TILE_SR_SEQ, 0)
  | j => if j % 2 = 0 then (R.TILE_TFIRST_A, (j - 8) / 2) else (R.TILE_TFIRST_B, (j - 8) / 2)

def srExists (k : Nat) : Bool := decide (k ≤ 9) || (decide (0x100 ≤ k) && decide (k ≤ 0x123))
/-- Special registers below 0x100 that a program may write. -/
def srWritable (k : Nat) : Bool := k == 6

/-- The value of special register k below 0x100 (Table 3.6). -/
def srValue (s : State) (n c k : Nat) : Half :=
  let t := s.tile n
  BitVec.ofNat 48 (match k with
    | 0 => c
    | 1 => s.localTile n
    | 2 => s.localHall (n / 64)
    | 3 => ((s.partOf n).map (fun p => (s.hallsOf p).length)).getD 0
    | 4 => (s.partOf n).getD 0
    | 5 => t.flight
    | 6 => (t.ctx c).vl
    | 7 => ((s.partOf n).map (fun p => (s.regs.rd R.LAND_VERDICT p).toNat)).getD 0
    | 8 => s.now
    | _ => if c = 0 then 0 else t.budget)

/-- A read of half `hi` of a status register, clearing the RC fields it reads (R78). -/
def statusRead (s : State) (n j : Nat) (hi : Bool) : Half × State :=
  let (r, i) := statusReg j
  let v := s.regValue r n i
  let part := { r with fields := r.fields.filter (fun f => decide (48 ≤ f.lo) == hi) }
  (BitVec.ofNat 48 (if hi then v.toNat / 2 ^ 48 else v.toNat), s.wreg r n i (part.afterRead (s.regs.rd r n i)))

/-- A write of half `hi` of a status register by its field types (R78). -/
def statusWrite (s : State) (n j : Nat) (hi : Bool) (x : Half) : State :=
  let (r, i) := statusReg j
  let old := s.regs.rd r n i
  let bits := if hi then x.toNat % 2 ^ 16 * 2 ^ 48 else x.toNat
  if r = R.TILE_SR_SEED then
    s.seedWrite n (BitVec.ofNat 64 (if hi then bits + old.toNat % 2 ^ 48 else bits + old.toNat / 2 ^ 48 * 2 ^ 48))
  else if r = R.TILE_TSTAT then (if hi then s else s.clearTstat n (bits % 32))
  else if hi then s.wreg r n i (r.writtenIn old (BitVec.ofNat 64 bits) 48 64)
  else s.wreg r n i (r.writtenIn old (BitVec.ofNat 64 bits) 0 48)

/-- MFS (R77, R78); an unlisted special register faults with ILLEGAL. -/
def execMfs (n c : Nat) (s : State) : Res :=
  onTile n c (s.issuePlain n c .mfs (fun s w =>
    let k := fld w 0 12
    if !srExists k then s.tileFault n c 1 5 ((s.ctx n c).pc - 1) 0
    else if k < 0x100 then s.setSreg n c (Ins.sd w) (srValue s n c k)
    else
      let r := statusRead s n ((k - 0x100) / 2) (k % 2 == 1)
      r.2.setSreg n c (Ins.sd w) r.1))

/-- Set a context's vector length, clamped to 4,096 (R77). -/
def State.setVl (s : State) (n c x : Nat) : State := s.upCtx n c (fun y => { y with vl := min x 4096 })

/-- MTS (R77, R78); a write of a read-only special register has no effect. -/
def execMts (n c : Nat) (s : State) : Res :=
  onTile n c (s.issuePlain n c .mts (fun s w =>
    let k := fld w 0 12
    let v := s.sreg n c (Ins.sa w)
    if !srExists k then s.tileFault n c 1 5 ((s.ctx n c).pc - 1) 0
    else if k < 0x100 then (if srWritable k then s.setVl n c v.toNat else s)
    else statusWrite s n ((k - 0x100) / 2) (k % 2 == 1) v))

/-- SETVL (R77): vl := min(SA + IMM[12:0], 4,096), SA unsigned, and SD gets the new vl. -/
def execSetvl (n c : Nat) (s : State) : Res :=
  onTile n c (s.issuePlain n c .setvl (fun s w =>
    let x := (s.sreg n c (Ins.sa w)).toNat + fld w 0 13
    (s.setVl n c x).setSreg n c (Ins.sd w) (BitVec.ofNat 48 (min x 4096))))

/-! Branches (R76). OFF is a signed count; the pc is 17 bits. -/

/-- pc + OFF, modulo 2^17, so that a sum outside 17 bits names the code it wraps to. (DESIGN CHOICE, unsafe: log 179) -/
def branchTo (base : Int) (w : Nat) : Nat := ((base + sext (Ins.off w) 18) % 2 ^ 17).toNat

/-- BR (R76). -/
def execBr (n c : Nat) (s : State) : Res :=
  onTile n c (s.issuePlain n c .br (fun s w => s.setPc n c (branchTo ((s.ctx n c).pc - 1 : Nat) w)))

/-- CALL (R76). -/
def execCall (n c : Nat) (s : State) : Res :=
  onTile n c (s.issuePlain n c .call (fun s w =>
    let pc := (s.ctx n c).pc - 1
    (s.setSreg n c (Ins.sl w) (BitVec.ofNat 48 (pc + 1))).setPc n c (branchTo (pc : Nat) w)))

/-- JR (R76). -/
def execJr (n c : Nat) (s : State) : Res :=
  onTile n c (s.issuePlain n c .jr (fun s w => s.setPc n c (branchTo (s.sreg n c (Ins.csa w)).toNat w)))

/-- LOOP (R76). (DEDUCED, unsafe: log 19) -/
def execLoop (n c : Nat) (s : State) : Res :=
  onTile n c (s.issuePlain n c .loop (fun s w =>
    let v := s.sreg n c (Ins.csa w) - 1
    let s := s.setSreg n c (Ins.csa w) v
    if s.sreg n c (Ins.csa w) ≠ 0 then s.setPc n c (branchTo ((s.ctx n c).pc - 1 : Nat) w) else s))

/-- CALLR (R76): the target is read before the link is written. -/
def execCallr (n c : Nat) (s : State) : Res :=
  onTile n c (s.issuePlain n c .callr (fun s w =>
    let pc := (s.ctx n c).pc - 1
    let tgt := branchTo (s.sreg n c (Ins.csa w)).toNat w
    (s.setSreg n c (Ins.sl w) (BitVec.ofNat 48 (pc + 1))).setPc n c tgt))

end Sys2Proof.Machine
end

