-- ==== Sys2Proof/Machine/Matrix.lean ====
section
/-! DEFINITION. The matrix engine (spec 04_matrix_and_vector_engines.md, R102–R112; spec 02, R48–R53): descriptor
checks and regions, accumulator banks, K-steps, and drain. -/

namespace Sys2Proof.Machine

def ceilDiv (a b : Nat) : Nat := (a + b - 1) / b

/-! Descriptor (R103–R107). -/

/-- Formats a matrix operand may have (R104). -/
def mxFmtOk (f : Nat) : Bool := decide (2 ≤ f ∧ f ≤ 12)
/-- Elements per K-step: the smaller of the elements per word (R104). -/
def mxN (d : Nat) : Nat := min (fmtPerWord (Mx.fmtA d)) (fmtPerWord (Mx.fmtB d))
def mxK (d : Nat) : Nat := Mx.ksteps d * mxN d
/-- Drained columns: 32, 48 or none. -/
def mxCols (d : Nat) : Nat := match Mx.drain d with | 0 => 0 | 1 => 32 | _ => 48
/-- Elements of a drained row with the padding of a DSC block. -/
def mxRowElems (d : Nat) : Nat := if Mx.dsc d = 1 then 48 else mxCols d
/-- Words of a drained row (Table 4.3). -/
def mxRowWords (d : Nat) : Nat := ceilDiv (mxRowElems d) (fmtPerWord (Mx.fmtD d))
/-- The accumulator bank an instruction uses: handler instructions use bank H, number 2 (R107). -/
def mxBank (d : Nat) (handler : Bool) : Nat := if handler then 2 else Mx.bank d
/-- The operands' kind: 0 float, 1 integer. -/
def mxKind (d : Nat) : Nat := if isIntFmt (Mx.fmtA d) then 1 else 0
/-- Bank and column of drain column j (R110). -/
def mxDrainCol (d bank j : Nat) : Nat × Nat :=
  if Mx.drain d = 2 then let w := (16 * Mx.wstart d + j) % 64; (w / 32, w % 32) else (bank, j)

/-- Words from a base covered by rows: 31 strides and the last row's words; none when rows are empty. -/
def rowsSpan (base rows stride words : Nat) : Region → Region :=
  fun r => if rows = 0 ∨ words = 0 then { r with base := base, limit := base } else { r with base := base, limit := base + (rows - 1) * stride + words }

def mxPanel (addr stride k np : Nat) (transposed : Bool) : Region :=
  if transposed then rowsSpan addr k stride (if k = 0 then 0 else ceilDiv 32 np) ⟨0, 0, false⟩
  else rowsSpan addr 32 stride (k / np) ⟨0, 0, false⟩

/-- The D region: drained rows and, with DSC, scale words; or the rows INIT = 2 loads (R106). -/
def mxDRegion (d : Nat) : Region :=
  if Mx.drain d = 0 then
    (if Mx.init d = 2 then rowsSpan (Mx.dAddr d) 32 (Mx.dStride d) 11 ⟨0, 0, false⟩ else ⟨0, 0, false⟩)
  else
    let r := rowsSpan (Mx.dAddr d) 32 (Mx.dStride d) (if Mx.init d = 2 then max 11 (mxRowWords d) else mxRowWords d) ⟨0, 0, true⟩
    if Mx.dsc d = 1 then
      let b := Mx.dsAddr d + Mx.dblk d / 12
      { r with base := min r.base b, limit := max r.limit (b + 31 * Mx.dsStride d + 1) }
    else r

/-- The regions of an MX instruction, in order (R106). -/
def mxRegions (d : Nat) : List Region :=
  let k := mxK d
  [mxPanel (Mx.aAddr d) (Mx.aStride d) k (fmtPerWord (Mx.fmtA d)) (Mx.ta d == 1),
   mxPanel (Mx.bAddr d) (Mx.bStride d) k (fmtPerWord (Mx.fmtB d)) (Mx.tb d == 1)] ++
  (if Mx.sca d = 1 then [rowsSpan (Mx.saAddr d) 32 (Mx.saStride d) (ceilDiv (k / 48) 12) ⟨0, 0, false⟩] else []) ++
  (if Mx.scb d = 1 then [rowsSpan (Mx.sbAddr d) 32 (Mx.sbStride d) (ceilDiv (k / 48) 12) ⟨0, 0, false⟩] else []) ++
  (if Mx.biasen d = 1 then [rowsSpan (Mx.biasAddr d) 1 0 (ceilDiv (mxCols d) 3) ⟨0, 0, false⟩] else []) ++ [mxDRegion d]

/-- The word ranges a drain writes: rows, and scale words with DSC. -/
def mxWrites (d : Nat) : List (Nat × Nat) :=
  if Mx.drain d = 0 then []
  else (List.range 32).map (fun i => (Mx.dAddr d + i * Mx.dStride d, Mx.dAddr d + i * Mx.dStride d + mxRowWords d)) ++
    (if Mx.dsc d = 1 then (List.range 32).map (fun i =>
      (Mx.dsAddr d + i * Mx.dsStride d + Mx.dblk d / 12, Mx.dsAddr d + i * Mx.dsStride d + Mx.dblk d / 12 + 1)) else [])

/-- Kind of a bank, in issue order (keys 0–2) or as executed (3–5); an undefined kind of bank H is a free choice of the two (R107). (DESIGN CHOICE, safe: log 25) -/
def Tile.kindAt (t : Tile) (key : Nat) : Nat :=
  let k := Sparse.get 0 t.accKind key
  if k = 2 then Config.undef (if key = 2 then t.accFree else t.accExec) % 2 else k
/-- Bank H as instruction `id` of the handler context meets it: undefined since the latest handler entry before it (R107). -/
def Tile.bankHAt (t : Tile) (id : Nat) : Tile :=
  match (t.hEntries.filter (fun e => decide (e.1 ≤ id))).getLast? with
  | some e => { t with acc := Sparse.dropRange t.acc 2048 3072, accKind := Sparse.put 0 t.accKind 5 2, accExec := e.2, hEntries := t.hEntries.filter (fun x => decide (id < x.1)) }
  | none => t

/-- Whether the matrix engine refuses a descriptor (R102, R104, R107, R110, R111). (DEDUCED, unsafe: log 18) -/
def mxRefused (t : Tile) (handler : Bool) (d : Nat) : Bool :=
  let fa := Mx.fmtA d
  let fb := Mx.fmtB d
  let bank := mxBank d handler
  let kind := mxKind d
  let drained := Mx.drain d != 0
  !mxFmtOk fa || !mxFmtOk fb || (isIntFmt fa != isIntFmt fb) ||
  (Mx.sca d == 1 && (!isBlockFmt fa || Mx.ta d == 1)) || (Mx.scb d == 1 && (!isBlockFmt fb || Mx.tb d == 1)) ||
  Mx.init d == 3 || Mx.drain d == 3 || decide (4 < Mx.rm d) || Mx.fmtD d == 15 ||
  (mxK d % fmtPerWord fa != 0) || (mxK d % fmtPerWord fb != 0) ||
  ((Mx.sca d == 1 || Mx.scb d == 1) && mxK d % 48 != 0) ||
  (Mx.init d == 1 && t.kindAt bank != kind) ||
  (Mx.init d == 2 && (Mx.fmtD d != 0 || Mx.drain d == 2 || Mx.dsc d == 1 || kind == 1)) ||
  (handler && Mx.drain d == 2) ||
  (drained && Mx.biasen d == 1 && (List.range (mxCols d)).any (fun j =>
    let b := (mxDrainCol d bank j).1; (if b = bank then kind else t.kindAt b) == 1)) ||
  (drained && decide (Mx.dStride d < mxRowWords d)) ||
  (Mx.dsc d == 1 && !isBlockFmt (Mx.fmtD d)) || Mx.fmtD d == 1 || Mx.fmtD d == 14 ||
  (mxRegions d).any (fun r => decide (padWords < r.limit))

/-! Accumulators (R107, R108). -/

/-- A bank's 1,024 elements as (code, poisoned). -/
def Tile.bankGet (t : Tile) (bank : Nat) : List (Nat × Bool) :=
  (List.range 1024).map (fun e =>
    let v := Sparse.get 0 t.acc (bank * 1024 + e)
    if v = 0 then (if bank = 2 ∧ t.accExec ≠ 0 then (Config.bankH t.accExec e % 2 ^ 32, false) else (0, false))
    else ((v - 1) % 2 ^ 32, decide (2 ^ 32 ≤ v - 1)))

def Tile.bankPut (t : Tile) (bank : Nat) (l : List (Nat × Bool)) : Tile :=
  { t with acc := t.acc.filter (fun e => decide (e.1 < bank * 1024)) ++
      (l.zipIdx.map (fun p => (bank * 1024 + p.2, 1 + p.1.1 + (if p.1.2 then 2 ^ 32 else 0)))) ++
      t.acc.filter (fun e => decide (bank * 1024 + 1024 ≤ e.1)) }

/-! Operand reads. -/

/-- A word as the engine sees it after its counted read: data and poison, with no further effect. -/
def Tile.peek (t : Tile) (a : Nat) : Nat × Bool :=
  match readStored (Sparse.get 0 t.mem a) with
  | .clean d => (d, false)
  | .corrected d => (d, false)
  | _ => (0, true)

/-- Element k of row (or column) i of a panel: its code and its word's poison (R105). -/
def Tile.mxElem (t : Tile) (addr stride f i k : Nat) (transposed : Bool) : Nat × Bool :=
  let np := fmtPerWord f
  let b := fmtBits f
  if transposed then
    let w := t.peek (addr + k * stride + i / np); (fld w.1 (b * (i % np)) b, w.2)
  else
    let w := t.peek (addr + i * stride + k / np); (fld w.1 (b * (k % np)) b, w.2)

/-- The scale of block b of row i (R105). -/
def Tile.mxScale (t : Tile) (on : Bool) (addr stride i b : Nat) : Nat × Bool :=
  if on then let w := t.peek (addr + i * stride + b / 12); (fld w.1 (8 * (b % 12)) 8, w.2) else (127, false)

/-- Words a K-step reads for the first time from one panel, for its poison and error counts: the words whose first
element lies in elements [k0, k1) of a row, or the stored K rows k0 to k1 − 1 of a transposed panel. -/
def mxNewWords (addr stride f k0 k1 : Nat) (transposed : Bool) : List Nat :=
  let np := fmtPerWord f
  if transposed then (List.range (k1 - k0)).flatMap (fun k => (List.range (ceilDiv 32 np)).map (fun w => addr + (k0 + k) * stride + w))
  else (List.range 32).flatMap (fun i => ((List.range (ceilDiv k1 np)).filter (fun w => decide (k0 ≤ w * np) && decide (w * np < k1))).map
    (fun w => addr + i * stride + w))

def mxNewScales (on : Bool) (addr stride k0 : Nat) : List Nat :=
  if on && k0 % (48 * 12) == 0 then (List.range 32).map (fun i => addr + i * stride + k0 / 48 / 12) else []

/-- One K-step for output element (i, j) (R51, R52, R108): the new element, and its flags. (DEDUCED, unsafe: log 20) -/
def mxElemStep (t : Tile) (d k i j : Nat) (acc : Nat × Bool) : (Nat × Bool) × Nat :=
  let n := mxN d
  let b := k * n / 48
  let sa := t.mxScale (Mx.sca d == 1) (Mx.saAddr d) (Mx.saStride d) i b
  let sb := t.mxScale (Mx.scb d == 1) (Mx.sbAddr d) (Mx.sbStride d) j b
  let as := (List.range n).map (fun x => t.mxElem (Mx.aAddr d) (Mx.aStride d) (Mx.fmtA d) i (k * n + x) (Mx.ta d == 1))
  let bs := (List.range n).map (fun x => t.mxElem (Mx.bAddr d) (Mx.bStride d) (Mx.fmtB d) j (k * n + x) (Mx.tb d == 1))
  let nanIn := mxKind d = 0 ∧ (as.any (fun x => !x.2 && (decodeFmt (Mx.fmtA d) false x.1).isNan) || bs.any (fun x => !x.2 && (decodeFmt (Mx.fmtB d) false x.1).isNan) ||
    (!sa.2 && sa.1 == 255) || (!sb.2 && sb.1 == 255))
  if acc.2 || sa.2 || sb.2 || as.any (·.2) || bs.any (·.2) then ((0, true), if nanIn then flNAN_IN else 0)
  else if mxKind d = 1 then
    let r := kstepInt (intDecode 13 acc.1) ((as.zip bs).map (fun p => intDecode (Mx.fmtA d) p.1.1 * intDecode (Mx.fmtB d) p.2.1))
    ((intEncode 13 r.1, false), r.2)
  else
    let va := as.map (fun x => decodeFmt (Mx.fmtA d) false x.1)
    let vb := bs.map (fun x => decodeFmt (Mx.fmtB d) false x.1)
    let va := va.map (fun v => if sa.1 = 255 then Val.nan else v)
    let vb := vb.map (fun v => if sb.1 = 255 then Val.nan else v)
    let accV := fp32.decode false acc.1
    let r := kstepFloat accV ((va.zip vb).map (fun p => let m := Val.mul p.1 p.2; (m.1.scale ((sa.1 + sb.1 : Nat) - 254 : Int), m.2)))
      (decide nanIn || accV.isNan)
    ((r.1, false), r.2 ||| (if nanIn then flNAN_IN else 0))

/-- The whole K-step on a bank: the new bank and the flag events in row-major order (R55, Table 2.9). -/
def mxBankStep (t : Tile) (d bank k : Nat) (accs : List (Nat × Bool)) : List (Nat × Bool) × List FlagEv :=
  let rs := accs.zipIdx.map (fun p => mxElemStep t d k (p.2 / 32) (p.2 % 32) p.1)
  (rs.map (·.1), rs.zipIdx.filterMap (fun p => if p.1.2 = 0 then none else some ⟨p.1.2, k, bank, p.2, (p.2 / 32, p.2 % 32)⟩))

/-! Drain (R53, R110, R111). -/

/-- The rounding arguments of an instruction: RM, and OVF_NAN and the SR arguments of R44 as they stood when it dispatched. (DEDUCED, unsafe: log 163) -/
def State.roundCtx (s : State) (n : Nat) (i : EngInstr) (mode : Nat) : RoundCtx :=
  ⟨mode, i.ovfNan, i.seed, if i.handler then 1 else 0, s.localTile n, i.srq⟩

/-- Add a bias code to a float accumulator value under R43 with RNE into tensor FP32: the value and its flags (R53). -/
def biasAdd (v : Val) (code : Nat) : Val × Nat :=
  let b := fp32.decode false code
  let r := Val.add false v b
  let (c, fl) := convT ⟨0, false, 0, 0, 0, 0⟩ 0 0 r.1
  (fp32.decode false c, fl ||| (if r.2 then flINV else 0) ||| (if b.isNan then flNAN_IN else 0))

/-- Pack element codes into words; `np` per word of `b` bits, a word poisoned where one of its elements is (R108). -/
def packWords (b np base : Nat) : Nat → List (Nat × Bool) → List WordWrite
  | 0, _ => []
  | k + 1, l =>
    let h := l.take np
    ⟨base, (h.zipIdx.map (fun p => p.1.1 * 2 ^ (b * p.2))).sum, h.any (·.2), none⟩ :: packWords b np (base + 1) k (l.drop np)

/-- Perform one write: a whole word, or one byte by read and write-back (R145). -/
def State.applyWrite (s : State) (n flight : Nat) (w : WordWrite) : State :=
  match w.byte with
  | none => s.writeWord n w.addr w.data w.poison
  | some b => if w.poison then (s.readWord n w.addr 5 flight).1.writeWord n w.addr 0 true else s.mergeWord n w.addr (8 * b) 8 w.data 5 flight

/-- One drained row (R110): its words, its scale byte if any, its flag events and the number crushed. `vals` are the
exact column values with their poison after the bias, with the flags the bias raised. Every code of a block derives from its scale, so a
poisoned value poisons its whole block, which then raises no flag (R62). (DEDUCED, unsafe: log 164) -/
def drainRow (d : Nat) (rc : RoundCtx) (i : Nat) (place : Nat → Nat × Nat) (vals : List (Val × Bool × Nat)) : DrainJob :=
  let m := mxCols d
  let f := Mx.fmtD d
  let ev := fun (j fl : Nat) => (⟨fl, 0xFFFF, (place j).1, i * 32 + (place j).2, (i, j)⟩ : FlagEv)
  let base := Mx.dAddr d + i * Mx.dStride d
  let biasEvs := vals.zipIdx.filterMap (fun p => if p.1.2.2 = 0 then none else some (ev p.2 p.1.2.2))
  match Mx.dsc d, fpOf f with
  | 1, some F =>
    let xs := vals.map (fun v => if v.2.1 then Val.zero else v.1) ++ List.replicate (48 - m) Val.zero
    let q := quantise F rc 0 (i * m) xs
    let bad := vals.any (·.2.1)
    let codes := q.2.zipIdx.map (fun p => if bad && decide (p.2 < m) then (0, true) else (p.1.1, false))
    ⟨0, packWords (fmtBits f) (fmtPerWord f) base (mxRowWords d) codes ++
        [⟨Mx.dsAddr d + i * Mx.dsStride d + Mx.dblk d / 12, q.1, bad, some (Mx.dblk d % 12)⟩],
      biasEvs ++ (if bad then [] else (q.2.zip vals).zipIdx.filterMap (fun p => if p.1.1.2.1 = 0 then none else some (ev p.2 p.1.1.2.1))),
      if bad then 0 else (q.2.map (·.2.2)).sum, 0⟩
  | _, _ =>
    let rs := vals.zipIdx.map (fun p => if p.1.2.1 then ((0, 0), true) else (convT rc f (i * m + p.2) p.1.1, false))
    ⟨0, packWords (fmtBits f) (fmtPerWord f) base (mxRowWords d) (rs.map (fun r => (r.1.1, r.2))),
      biasEvs ++ rs.zipIdx.filterMap (fun p => if p.1.1.2 = 0 then none else some (ev p.2 p.1.1.2)), 0, 0⟩

/-- The drain of instruction `i`: everything it writes, computed from the banks at the end of its K-steps (R110, R112). -/
def mxDrain (s : State) (n : Nat) (i : EngInstr) : DrainJob :=
  let t := s.tile n
  let d := i.desc
  let bank := mxBank d i.handler
  let m := mxCols d
  let rc := s.roundCtx n i (Mx.rm d)
  let b0 := t.bankGet (if bank = 2 then 2 else 0)
  let b1 := t.bankGet (if bank = 2 then 2 else 1)
  let rows := (List.range 32).map (fun r =>
    drainRow d rc r (mxDrainCol d bank) ((List.range m).map (fun j =>
      let bc := mxDrainCol d bank j
      let a := ((if bc.1 = 1 then b1 else b0)[r * 32 + bc.2]?).getD (0, false)
      let v := if t.kindAt (3 + bc.1) = 1 then Val.ofInt (intDecode 13 a.1) else fp32.decode false a.1
      if Mx.biasen d = 1 then
        let w := t.peek (Mx.biasAddr d + j / 3)
        let c := fld w.1 (32 * (j % 3)) 32
        let r := biasAdd v c
        if a.2 || w.2 then (r.1, true, if !w.2 && (fp32.decode false c).isNan then flNAN_IN else 0) else (r.1, false, r.2)
      else (v, a.2, 0))))
  ⟨i.id, rows.flatMap (·.words), rows.flatMap (·.events), (rows.map (·.crushed)).sum, (t.drains.getLast?.map (fun j => 44 - j.overlap)).getD 0⟩

/-! What the rows do. -/

/-- The end of an instruction's K-steps: reads clear; it drains or completes (R109, R112). -/
def State.mxEndK (s : State) (n : Nat) (i : EngInstr) : State :=
  let s := if Mx.biasen i.desc = 1 then
      (s.readWords n 0 i.flight ((List.range (ceilDiv (mxCols i.desc) 3)).map (Mx.biasAddr i.desc + ·))).1 else s
  if Mx.drain i.desc = 0 then s.complete n i.id
  else
    let j := mxDrain s n i
    ((s.clearReads n i.id).upTile n (fun t => { t with drains := t.drains ++ [j] })).upInstr n i.id (fun i => { i with stage := .draining, since := s.now })

/-- The starting value of INIT (R103, R107): the bank set to zero, kept, or loaded from the D region. -/
def State.mxInit (s : State) (n : Nat) (i : EngInstr) : State :=
  let d := i.desc
  let bank := mxBank d i.handler
  let s := if i.handler then s.upTile n (fun t => t.bankHAt i.id) else s
  let s := if Mx.init d = 1 then s else s.upTile n (fun t => { t with accKind := Sparse.put 0 t.accKind (3 + bank) (mxKind d) })
  if Mx.init d = 0 then s.upTile n (fun t => t.bankPut bank (List.replicate 1024 (0, false)))
  else if Mx.init d = 2 then
    let s := (s.readWords n 0 i.flight ((List.range 32).flatMap (fun r => (List.range 11).map (fun w => Mx.dAddr d + r * Mx.dStride d + w)))).1
    let l := (List.range 1024).map (fun e => (s.tile n).mxElem (Mx.dAddr d) (Mx.dStride d) 0 (e / 32) (e % 32) false)
    let evs := l.zipIdx.filterMap (fun p =>
      if !p.1.2 && (fp32.decode false p.1.1).isNan then some (⟨flNAN_IN, 0xFFFF, bank, p.2, (p.2 / 32, p.2 % 32)⟩ : FlagEv) else none)
    (s.upTile n (fun t => t.bankPut bank (l.map (fun x => if x.2 then (0, true) else
      ((convT ⟨0, false, 0, 0, 0, 0⟩ 0 0 (fp32.decode false x.1)).1, false))))).raiseAll n i.flight i.iaddr 0 evs
  else s

/-- The matrix instruction at the head of the queue. -/
def Tile.mxHead (t : Tile) : Option EngInstr := t.instrs.find? (fun i => i.eng == 0 && i.stage == .queued)
/-- Whether a matrix instruction is in its K-steps. -/
def Tile.mxRunning (t : Tile) : Option EngInstr := t.instrs.find? (fun i => i.eng == 0 && i.stage == .running)

/-- MX_START (R80, R83, R103): the head starts when its dependencies have cleared and no earlier instruction is in its
K-steps. With KSTEPS = 0 its drain begins at once (R112). -/
def execMxStart (n : Nat) (s : State) : Res :=
  onTile n 0 (
    match (s.tile n).mxHead, (s.tile n).mxRunning with
    | some i, none =>
      if (s.partOf n).isSome && sbReady (s.tile n).sb i.id [] (mxRegions i.desc) then
        let s := (s.mxInit n i).upInstr n i.id (fun i => { i with stage := .running, since := s.now })
        if Mx.ksteps i.desc = 0 then s.mxEndK n i else s
      else s
    | _, _ => s)

/-- The cycles that K-steps into bank `bank` share with the drains in progress (R112): from a drain's start, or, while the drain reads that bank, from its
34th cycle. (DESIGN CHOICE, unsafe: log 165) -/
def Tile.overlapDrains (t : Tile) (bank cycles : Nat) : Tile :=
  { t with drains := t.drains.map (fun j =>
      let reads := match t.instr? j.id with
        | some i => (List.range (mxCols i.desc)).any (fun x => (mxDrainCol i.desc (mxBank i.desc i.handler) x).1 == bank)
        | none => false
      { j with overlap := min (if reads then 11 else 44) (j.overlap + cycles) }) }

/-- MX_KSTEP (R51, R52, R109): the next K-step of the running instruction; the last one ends its K-steps. (DEDUCED, unsafe: log 26) -/
def execMxKstep (n : Nat) (s : State) : Res :=
  onTile n 0 (
    match (s.tile n).mxRunning with
    | some i =>
      let d := i.desc
      let k := i.next
      let e := mxN d
      let bank := mxBank d i.handler
      let s := (s.readWords n 0 i.flight (mxNewWords (Mx.aAddr d) (Mx.aStride d) (Mx.fmtA d) (k * e) (k * e + e) (Mx.ta d == 1) ++
        mxNewWords (Mx.bAddr d) (Mx.bStride d) (Mx.fmtB d) (k * e) (k * e + e) (Mx.tb d == 1) ++
        mxNewScales (Mx.sca d == 1) (Mx.saAddr d) (Mx.saStride d) (k * e) ++
        mxNewScales (Mx.scb d == 1) (Mx.sbAddr d) (Mx.sbStride d) (k * e))).1
      let r := mxBankStep (s.tile n) d bank k ((s.tile n).bankGet bank)
      let s := ((s.upTile n (fun t => t.bankPut bank r.1)).raiseAll n i.flight i.iaddr 0 r.2).inc F.ENG_MX_KSTEPS_COUNT n 0 1
      let s := s.upTile n (fun t => t.overlapDrains bank (if e = 16 then 16 else 12))
      let s := (s.inc F.ENG_MX_BUSY_COUNT n 0 (if e = 16 then 16 else 12)).upInstr n i.id (fun i => { i with next := k + 1 })
      if k + 1 = Mx.ksteps d then s.mxEndK n i else s
    | none => s)

/-- MX_DRAIN_END (R110, R112): the oldest drain's rows and scales are written, its flags recorded, and its write
registration clears. -/
def execMxDrainEnd (n : Nat) (s : State) : Res :=
  onTile n 0 (
    match (s.tile n).drains with
    | j :: rest =>
      match (s.tile n).instr? j.id with
      | some i =>
        let s := s.upTile n (fun t => { t with drains := rest })
        let s := j.words.foldl (fun s w => s.applyWrite n i.flight w) s
        let s := (s.raiseAll n i.flight i.iaddr 0 j.events).inc F.TILE_QCRUSH_COUNT n 0 j.crushed
        (s.inc F.ENG_MX_BUSY_COUNT n 0 (44 - j.overlap)).complete n j.id
      | none => s.upTile n (fun t => { t with drains := rest })
    | [] => s)

end Sys2Proof.Machine
end

