-- ==== Sys2Proof/Machine/VectorOps.lean ====
section
/-! DEFINITION. The vector engine's operations on single elements (spec 04, R119–R123; spec 02, R32, R33, R46, R47,
R388): each takes operand codes and gives a result code and the flags of Table 2.8. -/

namespace Sys2Proof.Machine

/-- What an element operation needs beside its operands. `ieee` is the instruction's domain (R32). -/
structure OpCtx where
  ieee : Bool
  rc : RoundCtx
deriving DecidableEq, Repr

/-- Deliver an exact value in a format in the instruction's domain. -/
def OpCtx.out (o : OpCtx) (f e : Nat) (v : Val) : Nat × Nat := if o.ieee then convI o.rc.mode f v else convT o.rc f e v

/-- The flag of a division of a non-zero value by zero (Table 2.8, R33): DZ for a finite one in the IEEE domain, OVF for any in the tensor domain. -/
def OpCtx.byZero (o : OpCtx) (kind : Nat) : Nat :=
  if o.ieee then (if kind = 2 then flDZ else 0) else if kind = 2 ∨ kind = 3 then flOVF else 0

/-- The invalid-operation flag of the domain (Table 2.8). -/
def OpCtx.inv (o : OpCtx) : Nat := if o.ieee then flIV else flINV

/-- Whether a code signals (R388, CLASS). -/
def isSnan (f code : Nat) : Bool := match fpOf f with | some F => F.isSignalling code | none => false
/-- Stored sign bit of an IEEE-layout code. -/
def storedSign (f code : Nat) : Bool := match fpOf f with | some F => F.ieee && code / F.signBit % 2 == 1 | none => false

/-- Flags of reading operands: NAN_IN for a NaN, IV for a signalling NaN in the IEEE domain when `sig` (R33, Table 2.8). -/
def readFlags (o : OpCtx) (sig : Bool) (ops : List (Nat × Nat)) : Nat :=
  (if ops.any (fun p => (decodeFmt p.1 o.ieee p.2).isNan) then flNAN_IN else 0) |||
  (if o.ieee && sig && ops.any (fun p => isSnan p.1 p.2) then flIV else 0)

/-- IEEE minimum or maximum of non-NaN values: −0 lies below +0 (R33). -/
def minMax (big : Bool) (a b : Val) : Val :=
  match Val.cmp a b with
  | .lt => if big then b else a
  | .gt => if big then a else b
  | .eq => if a.sign = b.sign then a else if big then (if a.sign then b else a) else (if a.sign then a else b)

/-- Odd part and exponent of a magnitude: m · 2^e with m odd, when it is a power of two m = 1. -/
def isPow2 (m : Nat) : Bool := m != 0 && m == 2 ^ Nat.log2 m

/-- The transcendental functions and RSQRT (R123): the value, whether it is exact, and 0 no exception, 1 invalid, 2 a pole. -/
def funcVal (opc f mode : Nat) (a : Val) : Val × Bool × Nat :=
  match opc, a with
  | _, .nan => (.nan, true, 0)
  -- RSQRT
  | 0x08, .inf n => if n then (.nan, true, 1) else (.zero, true, 0)
  | 0x08, .fin n m e =>
    if m = 0 then (.inf n, true, 2) else if n then (.nan, true, 1)
    else if isPow2 m && magLog m e % 2 == 0 then (.fin false 1 (-(magLog m e) / 2), true, 0) else (funcFree opc f mode n m e, false, 0)
  -- EXP, EXP2
  | 0x13, .inf n => if n then (.zero, true, 0) else (.inf false, true, 0)
  | 0x13, .fin n m e => if m = 0 then (.one, true, 0) else (funcFree opc f mode n m e, false, 0)
  | 0x14, .inf n => if n then (.zero, true, 0) else (.inf false, true, 0)
  | 0x14, .fin n m e =>
    if m = 0 then (.one, true, 0)
    else if floorTo m e 0 * 2 ^ (-e).toNat = m * 2 ^ e.toNat then
      let x : Int := (min (floorTo m e 0) 5000 : Nat)
      (.fin false 1 (if n then -x else x), true, 0)
    else (funcFree opc f mode n m e, false, 0)
  -- LOG, LOG2
  | 0x15, .inf n => if n then (.nan, true, 1) else (.inf false, true, 0)
  | 0x15, .fin n m e =>
    if m = 0 then (.inf true, true, 2) else if n then (.nan, true, 1)
    else if isPow2 m && magLog m e == 0 then (.zero, true, 0) else (funcFree opc f mode n m e, false, 0)
  | 0x16, .inf n => if n then (.nan, true, 1) else (.inf false, true, 0)
  | 0x16, .fin n m e =>
    if m = 0 then (.inf true, true, 2) else if n then (.nan, true, 1)
    else if isPow2 m then (Val.ofInt (magLog m e), true, 0) else (funcFree opc f mode n m e, false, 0)
  -- TANH, ERF
  | 0x17, .inf n => (.fin n 1 0, true, 0)
  | 0x17, .fin n m e => if m = 0 then (.fin n 0 0, true, 0) else (funcFree opc f mode n m e, false, 0)
  | 0x19, .inf n => (.fin n 1 0, true, 0)
  | 0x19, .fin n m e => if m = 0 then (.fin n 0 0, true, 0) else (funcFree opc f mode n m e, false, 0)
  -- SIGMOID
  | 0x18, .inf n => if n then (.zero, true, 0) else (.one, true, 0)
  | 0x18, .fin n m e => if m = 0 then (.fin false 1 (-1), true, 0) else (funcFree opc f mode n m e, false, 0)
  -- SIN, COS
  | 0x1C, .fin n m e => if m = 0 then (.fin n 0 0, true, 0) else (funcFree opc f mode n m e, false, 0)
  | 0x1D, .fin n m e => if m = 0 then (.one, true, 0) else (funcFree opc f mode n m e, false, 0)
  | 0x1C, .inf _ => (.nan, true, 1)
  | 0x1D, .inf _ => (.nan, true, 1)
  -- GELU, SILU
  | _, .inf n => if n then (.fin true 0 0, true, 0) else (.inf false, true, 0)
  | _, .fin n m e => if m = 0 then (.fin n 0 0, true, 0) else (funcFree opc f mode n m e, false, 0)

/-- Whether a value lies below the smallest normal of a format and is not zero. -/
def isTiny (f : Nat) (v : Val) : Bool :=
  match v, fpOf f with
  | .fin _ m x, some F => m != 0 && magCmp m x 1 F.emin == .lt
  | _, _ => false

/-- A function result with its flags (R123): one that is not exact raises IX, and UF when it is tiny even where the internal value is representable. (DEDUCED, unsafe: log 21) -/
def funcOut (o : OpCtx) (opc f e : Nat) (a : Val) : Nat × Nat :=
  let (v, exact, ex) := funcVal opc f o.rc.mode a
  let r := o.out f e v
  (r.1, r.2 ||| (if ex = 1 then o.inv else 0) |||
    (if ex = 2 then (if o.ieee then flDZ else if opc = 8 then flOVF else 0) else 0) |||
    (if o.ieee && !exact then (if r.2 = 0 && isTiny f v then flIX + flUF else flIX) else 0))

/-- The class of a code (Table 4.7, R388). (DEDUCED, unsafe: log 22) -/
def classOf (o : OpCtx) (f code : Nat) : Nat :=
  match decodeFmt f o.ieee code with
  | .nan => if isSnan f code then 0 else 1
  | .inf n => if n then 2 else 9
  | .fin n m e =>
    let sub : Bool := match fpOf f with | some F => magCmp m e 1 F.emin == .lt | none => false
    if m = 0 then (if n then 5 else 6)
    else if sub then (if n then 4 else 7)
    else if n then 3 else 8

/-- An encoding as totalOrder ranks it within one IEEE format. -/
def encOrder (f code : Nat) : Int :=
  match fpOf f with
  | some F => if code / F.signBit % 2 = 1 then -((code % F.signBit : Nat) : Int) - 1 else (code % F.signBit : Nat)
  | none => intDecode f code

/-- The place of a decoded operand in R388's order, 1 to 8. -/
def totalPlace (f code : Nat) (v : Val) : Nat :=
  match v with
  | .nan => if storedSign f code then 1 else 8
  | .inf n => if n then 2 else 7
  | .fin n m _ => if m = 0 then (if n then 4 else 5) else if n then 3 else 6

/-- totalOrder(a, b) (R388): on the encodings of one IEEE format, else on the operands decoded under R37. -/
def totalOrder (o : OpCtx) (fa a fb b : Nat) : Bool :=
  if o.ieee && fa == fb then decide (encOrder fa a ≤ encOrder fb b)
  else
    let va := decodeFmt fa false a
    let vb := decodeFmt fb false b
    let pa := totalPlace fa a va
    let pb := totalPlace fb b vb
    if pa = pb ∧ (pa = 3 ∨ pa = 6) then Val.cmp va vb != .gt else decide (pa ≤ pb)

/-- CMP (R121): the mask bit and the flags. Predicates 0–7 are EQ, NE, LT, LE, GT, GE, unordered, totalOrder. -/
def cmpElem (o : OpCtx) (pred : Nat) (signalling : Bool) (fa a fb b : Nat) : Bool × Nat :=
  let va := decodeFmt fa o.ieee a
  let vb := decodeFmt fb o.ieee b
  let un := va.isNan || vb.isNan
  let fl := (if un then flNAN_IN else 0) |||
    (if o.ieee && pred != 7 && (isSnan fa a || isSnan fb b || (signalling && un)) then flIV else 0)
  let c := Val.cmp va vb
  (match pred with
   | 0 => !un && c == .eq
   | 1 => un || c != .eq
   | 2 => !un && c == .lt
   | 3 => !un && c != .gt
   | 4 => !un && c == .gt
   | 5 => !un && c != .lt
   | 6 => un
   | _ => totalOrder o fa a fb b, fl)

/-- A float operation on decoded operands, delivered in format f (Table 4.7, R119). RINT raises no inexact flag. (DESIGN CHOICE, unsafe: log 166) -/
def floatElem (o : OpCtx) (opc f e : Nat) (ops : List (Nat × Nat)) : Nat × Nat :=
  let vs := ops.map (fun p => decodeFmt p.1 o.ieee p.2)
  let a := vs[0]?.getD .zero
  let b := vs[1]?.getD .zero
  let c := vs[2]?.getD .zero
  let zs := o.rc.mode = 3
  let rd := readFlags o true ops
  let anyNan := vs.any Val.isNan
  let invIf := fun (x : Bool) => if x && (o.ieee || !anyNan) then o.inv else 0
  let fin := fun (v : Val) (fl : Nat) => let r := o.out f e v; (r.1, r.2 ||| fl ||| rd)
  match opc with
  | 0x00 => let r := Val.add zs a b; fin r.1 (invIf r.2)
  | 0x01 => let r := Val.add zs a b.neg; fin r.1 (invIf r.2)
  | 0x02 => let r := Val.mul a b; fin r.1 (invIf r.2)
  | 0x03 => let m := Val.mul a b; let r := Val.add zs m.1 c; fin (if m.2 then .nan else r.1) (invIf (m.2 || r.2))
  | 0x04 => let m := Val.mul a b; let r := Val.add zs m.1 c.neg; fin (if m.2 then .nan else r.1) (invIf (m.2 || r.2))
  | 0x05 => let r := Val.div a b; fin r.1 (invIf (r.2 == 1) ||| o.byZero r.2)
  | 0x06 => let r := Val.sqrt a; fin r.1 (invIf r.2)
  | 0x07 => let r := Val.div .one a; fin r.1 (invIf (r.2 == 1) ||| o.byZero r.2)
  | 0x09 => fin (if anyNan then .nan else minMax false a b) 0
  | 0x0A => fin (if anyNan then .nan else minMax true a b) 0
  | 0x0B => fin (if a.isNan then b else if b.isNan then a else minMax false a b) 0
  | 0x0C => fin (if a.isNan then b else if b.isNan then a else minMax true a b) 0
  | 0x10 => match a with
    | .fin n m x => fin (.fin n (roundAt o.rc.mode n m x 0 (o.rc.r23 e)).1 0) 0
    | v => fin v 0
  | _ => let r := funcOut o opc f e a; (r.1, r.2 ||| rd)

/-- ABS, NEG and COPYSIGN (R33, R388): bits in the IEEE domain with one format, else values. `fs` are the operand
formats with codes. -/
def signElem (o : OpCtx) (opc f e : Nat) (ops : List (Nat × Nat)) : Nat × Nat :=
  let a := ops.headD (0, 0)
  let b := ops[1]?.getD (0, 0)
  let nan := readFlags o false ops
  match fpOf a.1, (o.ieee && ops.all (fun p => p.1 == f)) with
  | some F, true =>
    let mag := a.2 % F.signBit
    let sb := match opc with | 0x0D => 0 | 0x0E => 1 - a.2 / F.signBit % 2 | _ => b.2 / F.signBit % 2
    (mag + sb * F.signBit, nan)
  | _, _ =>
    let v := decodeFmt a.1 o.ieee a.2
    let vb := decodeFmt b.1 o.ieee b.2
    let w := match opc with
      | 0x0D => v.abs
      | 0x0E => v.neg
      | _ => v.withSign (if vb.isNan then storedSign b.1 b.2 else vb.sign)
    let r := o.out f e w
    (r.1, r.2 ||| nan)

/-- An unscaled conversion (R46, R47, R122): bits unchanged between equal formats. -/
def cvtElem (o : OpCtx) (fa f e code : Nat) : Nat × Nat :=
  if fa = f then (code, 0)
  else let r := o.out f e (decodeFmt fa o.ieee code); (r.1, r.2 ||| readFlags o true [(fa, code)])

/-- Wrap an integer result, OVF on wrap (R47). -/
def wrapInt (f : Nat) (x : Int) : Nat × Nat := (intEncode f x, if x < (intRange f).1 ∨ (intRange f).2 < x then flOVF else 0)
/-- Saturate an integer result (R120). -/
def satInt (f : Nat) (x : Int) : Nat × Nat :=
  if x < (intRange f).1 then (intEncode f (intRange f).1, flOVF + flSAT)
  else if (intRange f).2 < x then (intEncode f (intRange f).2, flOVF + flSAT) else (intEncode f x, 0)

/-- The integer operations (Table 4.7, R47, R120). -/
def intElem (opc f a b : Nat) : Nat × Nat :=
  let x := intDecode f a
  let y := intDecode f b
  let w := fmtBits f
  let sh := (y % 64).toNat
  match opc with
  | 0x20 => wrapInt f (x + y)
  | 0x21 => wrapInt f (x - y)
  | 0x22 => wrapInt f (x * y)
  | 0x23 => satInt f (x + y)
  | 0x24 => satInt f (x - y)
  | 0x25 => (if x ≤ y then a else b, 0)
  | 0x26 => (if x ≤ y then b else a, 0)
  | 0x27 => wrapInt f (x.natAbs : Int)
  | 0x28 => (a &&& b, 0)
  | 0x29 => (a ||| b, 0)
  | 0x2A => (a ^^^ b, 0)
  | 0x2B => (if w ≤ sh then 0 else a * 2 ^ sh % 2 ^ w, 0)
  | 0x2C => (if w ≤ sh then 0 else a / 2 ^ sh, 0)
  | _ => (intEncode f (x / 2 ^ sh), 0)

/-- `rngbits` of R128. -/
def rngbits (key : BitVec 64) (stream r k : Nat) : Nat :=
  let z := key ^^^ (BitVec.ofNat 64 stream <<< 32) ^^^ (BitVec.ofNat 64 r <<< 12) ^^^ BitVec.ofNat 64 k
  (mix64 (mix64 z ^^^ 0x9E3779B97F4A7C15#64)).toNat

/-- RANDU's FP32 code and RANDB's INT32 code from the random bits (R128). -/
def randCode (opc bits : Nat) : Nat :=
  if opc = 0x31 then bits / 2 ^ 32 else (convI 0 0 (.fin false (bits / 2 ^ 40) (-24))).1

/-! Combining steps of reductions and scans (R59, R124, R125). -/

/-- One combining step in the result format rf: kinds 0 sum, 1 product, 2 max, 3 min, 6 sum of squares, 7 integer sum,
8 integer max, 9 integer min, 10 OR. Rounds to nearest even; `ieee` keeps subnormals. -/
def combine (o : OpCtx) (kind rf a b : Nat) : Nat × Nat :=
  if 7 ≤ kind then
    let x := intDecode 13 a
    let y := intDecode 13 b
    match kind with
    | 7 => wrapInt 13 (x + y)
    | 8 => (if x ≤ y then b else a, 0)
    | 9 => (if x ≤ y then a else b, 0)
    | _ => (a ||| b, 0)
  else
    let va := decodeFmt rf o.ieee a
    let vb := decodeFmt rf o.ieee b
    let o' : OpCtx := { o with rc := { o.rc with mode := 0 } }
    let r : Val × Bool := match kind with
      | 1 => Val.mul va vb
      | 2 => (if va.isNan || vb.isNan then .nan else minMax true va vb, false)
      | 3 => (if va.isNan || vb.isNan then .nan else minMax false va vb, false)
      | _ => Val.add false va vb
    let w := o'.out rf 0 r.1
    (w.1, w.2 ||| (if r.2 && !va.isNan && !vb.isNan then o.inv else 0))

/-- An argmax or argmin step on (value, index) pairs: whether the right pair wins (R124). -/
def argRight (big : Bool) (va vb : Val) : Bool :=
  if va.isNan then false else if vb.isNan then true
  else if big then Val.cmp va vb == .lt else Val.cmp va vb == .gt

/-- The result a reduction delivers over no active element (Table 2.11). -/
def reduceIdentity (kind rf : Nat) : Nat :=
  match kind with
  | 1 => if rf = 1 then 0x3FF0000000000000 else 0x3F800000
  | 2 => if rf = 1 then 0xFFF0000000000000 else 0xFF800000
  | 3 => if rf = 1 then 0x7FF0000000000000 else 0x7F800000
  | 4 => 0xFFFFFFFF
  | 5 => 0xFFFFFFFF
  | 8 => 0x80000000
  | 9 => 0x7FFFFFFF
  | _ => 0

/-- One level of the tree of R124 over present-or-absent nodes. -/
def treeLevel {α : Type} (op : α → α → α) : List (Option α) → List (Option α)
  | a :: b :: rest =>
    (match a, b with
     | none, y => y
     | x, none => x
     | some x, some y => some (op x y)) :: treeLevel op rest
  | l => l

/-- The combining tree of R124: a list of L nodes is padded to a power of two, so an odd last node of a level passes
through unchanged; `fuel` levels are enough when L ≤ 2^fuel. -/
def treeFold {α : Type} (op : α → α → α) : Nat → List (Option α) → Option α
  | 0, l => l.headD none
  | fuel + 1, l => match l with
    | [] => none
    | [x] => x
    | l => treeFold op fuel (treeLevel op l)

end Sys2Proof.Machine
end

