-- ==== Sys2Proof/Machine/Vector.lean ====
section
/-! DEFINITION. The vector engine (spec 04, R113–R131): descriptor checks and regions, chains, and what an
instruction or chain writes. -/

namespace Sys2Proof.Machine

/-! Descriptor. -/

/-- The classes of operations of Table 4.7. -/
inductive VxClass where
  | float | sign | cvt | cls | int | sel | rand | cmp | reduce | scan | perm | topk | sample | smstat | stash
deriving DecidableEq, Repr

/-- Class and number of operands of an operation; none for a reserved code (R119). -/
def vxClass (opc : Nat) : Option (VxClass × Nat) :=
  if opc ≤ 0x02 then some (.float, 2)
  else if opc ≤ 0x04 then some (.float, 3)
  else if opc = 0x05 then some (.float, 2)
  else if opc ≤ 0x08 then some (.float, 1)
  else if opc ≤ 0x0C then some (.float, 2)
  else if opc ≤ 0x0E then some (.sign, 1)
  else if opc = 0x0F then some (.sign, 2)
  else if opc = 0x10 then some (.float, 1)
  else if opc = 0x11 then some (.cvt, 1)
  else if opc = 0x12 then some (.cls, 1)
  else if opc ≤ 0x1D then some (.float, 1)
  else if opc ≤ 0x1F then none
  else if opc ≤ 0x26 then some (.int, 2)
  else if opc = 0x27 then some (.int, 1)
  else if opc ≤ 0x2D then some (.int, 2)
  else if opc = 0x2E then some (.sel, 2)
  else if opc = 0x2F then none
  else if opc ≤ 0x31 then some (.rand, 1)
  else match opc with
    | 0x38 => some (.cmp, 2)
    | 0x40 => some (.reduce, 1)
    | 0x41 => some (.scan, 1)
    | 0x42 => some (.perm, 2)
    | 0x43 => some (.topk, 1)
    | 0x44 => some (.sample, 3)
    | 0x45 => some (.smstat, 1)
    | 0x46 => some (.stash, 1)
    | _ => none

def vxClassOf (d : Nat) : VxClass := ((vxClass (Vx.opc d)).map (·.1)).getD .float
def vxArity (d : Nat) : Nat := ((vxClass (Vx.opc d)).map (·.2)).getD 0
/-- Operand x (0 A, 1 B, 2 C): SEL, address and format. -/
def vxSel (d x : Nat) : Nat := match x with | 0 => Vx.selA d | 1 => Vx.selB d | _ => Vx.selC d
def vxAddr (d x : Nat) : Nat := match x with | 0 => Vx.addrA d | 1 => Vx.addrB d | _ => Vx.addrC d
def vxFmt (d x : Nat) : Nat := match x with | 0 => Vx.fmtA d | 1 => Vx.fmtB d | _ => Vx.fmtC d
/-- Whether an operand is a whole key word, which has no element format (R128, R129). -/
def vxIsKey (d x : Nat) : Bool :=
  match vxClassOf d with | .rand => true | .sample => x == 2 | _ => false
/-- The operand formats that count toward the domain and the rates. -/
def vxFmts (d : Nat) : List Nat := ((List.range (vxArity d)).filter (fun x => !vxIsKey d x)).map (vxFmt d)
/-- Whether the result is a mask rather than values of FMT_D. -/
def vxIsMask (d : Nat) : Bool := vxClassOf d == .cmp
/-- IEEE domain (R32): some float format, every float one FP32 or FP64, every integer one INT32. -/
def vxIeee (d : Nat) : Bool :=
  let l := vxFmts d ++ (if vxIsMask d then [] else [Vx.fmtD d])
  l.any (fun f => f == 0 || f == 1) && l.all (fun f => f == 0 || f == 1 || f == 13)
def vxUseMask (d : Nat) : Bool := Vx.masked d == 1 || vxClassOf d == .sel
def vxScaled (d : Nat) : Bool := vxClassOf d == .cvt && Vx.aux d % 2 == 1
def vxInScaled (d : Nat) : Bool := vxScaled d && isBlockFmt (Vx.fmtA d)
def vxOutScaled (d : Nat) : Bool := vxScaled d && isBlockFmt (Vx.fmtD d)
/-- Scale row stride of a scaled CVT (Table 4.7). -/
def vxSStr (d : Nat) : Nat := Vx.aux d / 8
/-- Elements of one word, or of a word pair for FP64 (Table 2.6). -/
def vxPer (f : Nat) : Nat := if f = 1 then 3 else fmtPerWord f
/-- Words that k consecutive elements occupy. -/
def wordsFor (f k : Nat) : Nat := if f = 1 then 2 * ceilDiv k 3 else ceilDiv k (fmtPerWord f)
def redKind (d : Nat) : Nat := Vx.aux d % 16
def redAxis (d : Nat) : Nat := Vx.aux d / 16 % 2
/-- The result format of a reduction or scan (R59). -/
def redFmt (kind fa : Nat) : Nat := if 4 ≤ kind ∧ kind ≠ 6 then 13 else if fa = 1 then 1 else 0
/-- Words of a stash record's element part and of its scale part (R131). -/
def ceil16 (x : Nat) : Nat := ceilDiv x 16 * 16
def stashWB (f : Nat) : Nat := 48 / fmtPerWord f
def stashElems (d vl : Nat) : Nat := ceil16 (Vx.nrows d * ceilDiv vl 48 * stashWB (Vx.fmtD d))
def stashScales (d vl : Nat) : Nat := ceil16 (ceilDiv (Vx.nrows d * ceilDiv vl 48) 12)

/-- Words of one destination row, for operations that write rows (R113, R121, R122, R127). -/
def vxRowWords (d vl : Nat) : Nat :=
  match vxClassOf d with
  | .cmp => ceilDiv vl 96
  | .topk => ceilDiv (Vx.aux d % 128) 3
  | .smstat => 1
  | _ => if vxOutScaled d then ceilDiv vl 48 * stashWB (Vx.fmtD d) else wordsFor (Vx.fmtD d) vl
/-- The distance between destination rows. -/
def vxRowStride (d vl : Nat) : Nat :=
  match vxClassOf d with
  | .cmp => ceilDiv vl 96
  | .smstat => 1
  | _ => Vx.dstride d
/-- Packed results of REDUCE and SAMPLE: how many (R124, R129). -/
def vxPacked (d vl : Nat) : Option Nat :=
  match vxClassOf d with
  | .reduce => some (if redAxis d = 1 then vl else Vx.nrows d)
  | .sample => some (Vx.nrows d)
  | _ => none

/-- The destination range at ADDR_D, when SEL_D is 0. -/
def vxDest (d vl : Nat) : Nat × Nat :=
  let a := Vx.addrD d
  match vxPacked d vl with
  | some k => (a, a + wordsFor (Vx.fmtD d) k)
  | none =>
    if vxClassOf d = .stash then (a, a + stashElems d vl + stashScales d vl)
    else
      let rw := vxRowWords d vl
      (a, if rw = 0 then a else a + (Vx.nrows d - 1) * vxRowStride d vl + rw)

/-- Source range of operand x (Table 4.6), none from a chain register. -/
def vxSource (d vl x : Nat) : Option (Nat × Nat) :=
  let a := vxAddr d x
  let f := vxFmt d x
  let two := if f = 1 ∧ !vxIsKey d x then 2 else 1
  match vxSel d x with
  | 0 => some (a, if vl = 0 then a else a + (Vx.nrows d - 1) * Vx.sstride d + wordsFor f vl)
  | 5 => some (a, a + two)
  | 6 => some (a, a + two * Vx.nrows d)
  | _ => none

/-- The mask range (R114). -/
def vxMaskRange (d vl : Nat) : Nat × Nat := (Vx.addrM d, Vx.addrM d + Vx.nrows d * ceilDiv vl 96)

/-- The range of previous statistics of SMSTAT, of scale rows of a scaled CVT, or of TOPK's values: at ADDR_C. -/
def vxExtra (d vl : Nat) : Option Region :=
  let c := Vx.addrC d
  if vxScaled d then
    let w := ceilDiv (ceilDiv vl 48) 12
    some ⟨c, if w = 0 then c else c + (Vx.nrows d - 1) * vxSStr d + w, vxOutScaled d⟩
  else match vxClassOf d with
    | .smstat => if Vx.aux d % 2 = 1 then some ⟨c, c + Vx.nrows d, false⟩ else none
    | .topk => if Vx.aux d / 128 % 2 = 1 then some ⟨c, c + (Vx.nrows d - 1) * Vx.dstride d + ceilDiv (Vx.aux d % 128) 3, true⟩ else none
    | _ => none

/-- The regions of a VX instruction (R114, R122). -/
def vxRegions (d vl : Nat) : List Region :=
  ((List.range (vxArity d)).filterMap (fun x => (vxSource d vl x).map (fun r => ⟨r.1, r.2, false⟩))) ++
  (if vxUseMask d then [⟨(vxMaskRange d vl).1, (vxMaskRange d vl).2, false⟩] else []) ++
  (vxExtra d vl).toList ++
  (if Vx.selD d = 0 then [⟨(vxDest d vl).1, (vxDest d vl).2, true⟩] else [])

/-- The word ranges an instruction writes: its rows, not the gaps between them. -/
def vxWrites (d vl : Nat) : List (Nat × Nat) :=
  let rows := fun (a st w : Nat) => (List.range (Vx.nrows d)).map (fun r => (a + r * st, a + r * st + w))
  (if Vx.selD d ≠ 0 then []
   else match vxPacked d vl, vxClassOf d with
     | some _, _ => [vxDest d vl]
     | none, .stash => [vxDest d vl]
     | none, _ => rows (Vx.addrD d) (vxRowStride d vl) (vxRowWords d vl)) ++
  (match vxExtra d vl with
   | some e => if !e.write then [] else if vxScaled d then rows (Vx.addrC d) (vxSStr d) (ceilDiv (ceilDiv vl 48) 12)
               else rows (Vx.addrC d) (Vx.dstride d) (vxRowWords d vl)
   | none => [])

/-- A key of a range for R115's exact coincidence: address, stride and format width; broadcasts and packed results
coincide with nothing else. -/
abbrev RangeKey := Nat × Nat × Nat × Nat × Nat

/-- The source keys of an instruction: base, limit, address, stride and width. -/
def vxSrcKeys (d vl : Nat) : List RangeKey :=
  ((List.range (vxArity d)).filterMap (fun x => (vxSource d vl x).map (fun r =>
    (r.1, r.2, r.1, (if vxSel d x = 0 then Vx.sstride d else 100000 + vxSel d x), fmtBits (vxFmt d x))))) ++
  (if vxUseMask d then [((vxMaskRange d vl).1, (vxMaskRange d vl).2, Vx.addrM d, ceilDiv vl 96, 1)] else []) ++
  (match vxExtra d vl with
   | some e => if vxInScaled d then [(e.base, e.limit, e.base, vxSStr d, 8)] else if !e.write then [(e.base, e.limit, e.base, 1, 32)] else []
   | none => [])
/-- The store keys of an instruction. -/
def vxStoreKeys (d vl : Nat) : List RangeKey :=
  (if Vx.selD d = 0 then
    [((vxDest d vl).1, (vxDest d vl).2, Vx.addrD d, (if (vxPacked d vl).isSome then 200000 else vxRowStride d vl), (if vxIsMask d then 1 else fmtBits (Vx.fmtD d)))]
   else []) ++
  (match vxExtra d vl with
   | some e => if e.write then [(e.base, e.limit, e.base, (if vxScaled d then vxSStr d else Vx.dstride d), if vxScaled d then 8 else 32)] else []
   | none => [])

/-- Whether an operation may stand in a chain longer than 1 (R115): the element-wise operations. -/
def vxElementwise (d : Nat) : Bool :=
  match vxClassOf d with
  | .float => true | .sign => true | .cvt => true | .cls => true | .int => true | .sel => true | .rand => true | .cmp => true
  | _ => false

/-- Whether an operation's formats and AUX fit its kind (R119, R121, R122, R124–R131). -/
def vxKindOk (d : Nat) : Bool :=
  let fs := vxFmts d
  let fd := Vx.fmtD d
  let fa := Vx.fmtA d
  let allF := fs.all isFloatFmt
  let rk := redKind d
  let redOk := (if 7 ≤ rk then isIntFmt fa else if rk = 4 ∨ rk = 5 then isFloatFmt fa || isIntFmt fa else isFloatFmt fa) && fd == redFmt rk fa
  match vxClassOf d with
  | .float => allF && isFloatFmt fd && !((Vx.opc d == 0x1A || Vx.opc d == 0x1B) && (fa == 1 || fd == 1))
  | .sign => allF && isFloatFmt fd
  | .cls => allF && fd == 13
  | .int => isIntFmt fd && fs.all (· == fd)
  | .sel => Vx.masked d == 0 && ((allF && isFloatFmt fd) || (isIntFmt fd && fs.all (· == fd)))
  | .cmp => Vx.selD d == 0 && (allF || (fs.all isIntFmt && fs.all (· == fa)))
  | .cvt => !vxScaled d || ((vxInScaled d || vxOutScaled d) && !(vxInScaled d && decide (1 ≤ Vx.selA d ∧ Vx.selA d ≤ 4)) &&
      !(vxOutScaled d && Vx.selD d != 0))
  | .rand => Vx.selA d == 5 && fd == (if Vx.opc d = 0x30 then 0 else 13)
  | .reduce => decide (rk ≤ 10) && redOk
  | .scan => (rk == 0 || rk == 2 || rk == 3 || rk == 7 || rk == 8 || rk == 9) && redOk
  | .perm => Vx.fmtB d == 13 && (fa == fd || (isFloatFmt fa && isFloatFmt fd))
  | .topk => isFloatFmt fa && fd == 13 && decide (1 ≤ Vx.aux d % 128 ∧ Vx.aux d % 128 ≤ 64) && !(Vx.aux d / 128 % 2 == 1 && fa == 1)
  | .sample => isFloatFmt fa && fd == 13 && Vx.fmtB d == 0 && (Vx.selB d == 5 || Vx.selB d == 6) && Vx.selC d == 5
  | .smstat => isFloatFmt fa && fd == 0
  | .stash => isFloatFmt fa && isBlockFmt fd

/-- FP64 alignment (R41, R102): even addresses, and even strides where rows are strided. -/
def vxAligned (d vl : Nat) : Bool :=
  ((List.range (vxArity d)).all (fun x =>
    vxFmt d x != 1 || vxIsKey d x || decide (1 ≤ vxSel d x ∧ vxSel d x ≤ 4) ||
      (vxAddr d x % 2 == 0 && (vxSel d x != 0 || Vx.sstride d % 2 == 0)))) &&
  (vxIsMask d || Vx.fmtD d != 1 || Vx.selD d != 0 ||
    (Vx.addrD d % 2 == 0 && ((vxPacked d vl).isSome || Vx.nrows d == 1 || Vx.dstride d % 2 == 0)))

/-- Whether the vector engine refuses a descriptor, the chain rules apart (R102, R113–R131). -/
def vxRefused (handler : Bool) (d vl : Nat) : Bool :=
  let rm := Vx.rm d
  (vxClass (Vx.opc d)).isNone || Vx.fmtA d == 15 || Vx.fmtB d == 15 || Vx.fmtC d == 15 || Vx.fmtD d == 15 ||
  Vx.nrows d == 0 || decide (4 < Vx.selD d) ||
  (List.range (vxArity d)).any (fun x => vxSel d x == 7) || !vxKindOk d ||
  decide (5 < rm) || (if vxIeee d then rm == 4 else rm == 5) ||
  (!vxElementwise d && (Vx.selD d != 0 || (List.range (vxArity d)).any (fun x => decide (1 ≤ vxSel d x ∧ vxSel d x ≤ 4)))) ||
  ((vxPacked d vl).isNone && vxClassOf d != .stash && vxClassOf d != .cmp && vxClassOf d != .smstat && Vx.selD d == 0 &&
    decide (1 < Vx.nrows d) && decide (Vx.dstride d < vxRowWords d vl)) ||
  !vxAligned d vl || (vxRegions d vl).any (fun r => decide (padWords < r.limit)) ||
  (handler && (Vx.selD d != 0 || (List.range (vxArity d)).any (fun x => decide (1 ≤ vxSel d x ∧ vxSel d x ≤ 4))))

/-- The chain rules (R115): `ch` are the open chain's instructions, oldest first; main context only. -/
def vxChainRefused (ch : List EngInstr) (d vl : Nat) : Bool :=
  let reads := (List.range (vxArity d)).filterMap (fun x => if 1 ≤ vxSel d x ∧ vxSel d x ≤ 4 then some (vxSel d x, vxFmt d x) else none)
  let lastWrite := fun (reg : Nat) => (ch.reverse.find? (fun i => Vx.selD i.desc == reg)).map (fun i => Vx.fmtD i.desc)
  let srcs := ch.flatMap (fun i => vxSrcKeys i.desc i.vl) ++ vxSrcKeys d vl
  decide (16 < ch.length + 1) ||
  (match ch with | [] => false | i :: _ => Vx.nrows i.desc != Vx.nrows d || i.vl != vl) ||
  (!ch.isEmpty && !vxElementwise d) ||
  reads.any (fun p => lastWrite p.1 != some p.2) ||
  (ch.flatMap (fun i => vxStoreKeys i.desc i.vl) ++ vxStoreKeys d vl).any (fun st => srcs.any (fun sr =>
    overlaps st.1 st.2.1 sr.1 sr.2.1 && st.2.2 != sr.2.2))

/-! Evaluation. -/

/-- Element k of a row of words at `base`: its code and poison (R41). -/
def Tile.vxElemAt (t : Tile) (f base k : Nat) : Nat × Bool :=
  if f = 1 then
    let lo := t.peek (base + 2 * (k / 3))
    let hi := t.peek (base + 2 * (k / 3) + 1)
    let j := k % 3
    (fld (lo.1 + hi.1 * 2 ^ 96) (64 * j) 64, if j = 0 then lo.2 else if j = 1 then lo.2 || hi.2 else hi.2)
  else
    let w := t.peek (base + k / fmtPerWord f)
    (fld w.1 (fmtBits f * (k % fmtPerWord f)) (fmtBits f), w.2)

/-- Chain registers while a chain is evaluated: codes by element index r · vl + k. -/
abbrev ChainRegs := List (Nat × List (Nat × Bool))

/-- Operand x of element (r, k) (Table 4.6). -/
def Tile.vxOperand (t : Tile) (regs : ChainRegs) (d vl x r k : Nat) : Nat × Bool :=
  let f := vxFmt d x
  match vxSel d x with
  | 0 => t.vxElemAt f (vxAddr d x + r * Vx.sstride d) k
  | 5 => t.vxElemAt f (vxAddr d x) 0
  | 6 => t.vxElemAt f (vxAddr d x + (if f = 1 then 2 * r else r)) 0
  | sel => ((regs.find? (fun p => p.1 == sel)).bind (fun p => p.2[r * vl + k]?)).getD (0, false)

/-- Whether lane k of row r is active, and the poison of its mask word (R114). -/
def Tile.vxLane (t : Tile) (d vl r k : Nat) : Bool × Bool :=
  let w := t.peek (Vx.addrM d + r * ceilDiv vl 96 + k / 96)
  (w.1 / 2 ^ (k % 96) % 2 == 1, w.2)

/-- A result element: code, poison and flags. -/
abbrev VElem := Nat × Bool × Nat

/-- The flags that reading clean operands of an element-wise instruction raises, where another operand is poisoned: NAN_IN of every NaN read, and IV of a
signalling one where the operation signals it (R54, Table 2.8). -/
def vxReadOnly (o : OpCtx) (d : Nat) (ops : List (Nat × Nat × Bool)) : Nat :=
  let l := (ops.filter (fun p => !p.2.2)).map (fun p => (p.1, p.2.1))
  match vxClassOf d with
  | .int | .rand => 0
  | .sign | .cls => readFlags o false l
  | .cmp => if l.all (fun p => isFloatFmt p.1) then readFlags o (Vx.aux d % 8 != 7) l else 0
  | .cvt => if Vx.fmtA d = Vx.fmtD d then 0 else readFlags o true l
  | .sel => readFlags o true (l.filter (fun p => p.1 != Vx.fmtD d))
  | _ => readFlags o true l

/-- One element of an element-wise instruction (Table 4.7); a poisoned operand gives a poisoned element and no flag but those of clean NaNs read (R54, R62).
CMP of integers follows predicates 0 to 5; none is unordered, and totalOrder is ≤. (DESIGN CHOICE, unsafe: log 171) -/
def Tile.vxElement (t : Tile) (o : OpCtx) (regs : ChainRegs) (d vl r k : Nat) : VElem :=
  let e := r * vl + k
  let lane := if vxUseMask d then t.vxLane d vl r k else (true, false)
  let f := Vx.fmtD d
  let opc := Vx.opc d
  if Vx.masked d = 1 ∧ !lane.1 ∧ !lane.2 then (0, false, 0)
  else
    let ops := (List.range (vxArity d)).map (fun x => (vxFmt d x, t.vxOperand regs d vl x r k))
    let bad := lane.2 || ops.any (fun p => p.2.2)
    if vxClassOf d = .rand then
      let w := t.peek (Vx.addrA d)
      if lane.2 || w.2 then (0, true, 0)
      else (randCode opc (rngbits (BitVec.ofNat 64 w.1) (w.1 / 2 ^ 64) r k), false, 0)
    else if bad then
      (0, true, if lane.2 then 0 else vxReadOnly o d (if vxClassOf d = .sel then [ops[if lane.1 then 0 else 1]?.getD (0, 0, true)] else ops))
    else
      let cs := ops.map (fun p => (p.1, p.2.1))
      let a := cs.headD (0, 0)
      let b := cs[1]?.getD (0, 0)
      let q : Nat × Nat := match vxClassOf d with
        | .sign => signElem o opc f e cs
        | .cvt => cvtElem o a.1 f e a.2
        | .cls => (classOf o a.1 a.2, readFlags o false [a])
        | .int => intElem opc f a.2 b.2
        | .sel => let c := if lane.1 then a else b; cvtElem o c.1 f e c.2
        | .cmp =>
          if isIntFmt a.1 then
            let x := intDecode a.1 a.2
            let y := intDecode b.1 b.2
            ((match Vx.aux d % 8 with
              | 0 => decide (x = y) | 1 => decide (x ≠ y) | 2 => decide (x < y) | 3 => decide (x ≤ y)
              | 4 => decide (y < x) | 5 => decide (y ≤ x) | 6 => false | _ => decide (x ≤ y)).toNat, 0)
          else let c := cmpElem o (Vx.aux d % 8) (Vx.aux d / 8 % 2 == 1) a.1 a.2 b.1 b.2; (c.1.toNat, c.2)
        | _ => floatElem o opc f e cs
      (q.1, false, q.2)

/-- Words of a row of codes: `w` words from `base`, slots past the codes zero. -/
def vxPackRow (f base w : Nat) (l : List (Nat × Bool)) : List WordWrite :=
  if f = 1 then
    (List.range (w / 2)).flatMap (fun p =>
      let xs := (List.range 3).map (fun j => l[3 * p + j]?.getD (0, false))
      let v := (xs.zipIdx.map (fun q => q.1.1 * 2 ^ (64 * q.2))).sum
      let bad := fun (j : Nat) => (xs[j]?.getD (0, false)).2
      [⟨base + 2 * p, v % 2 ^ 96, bad 0 || bad 1, none⟩, ⟨base + 2 * p + 1, v / 2 ^ 96, bad 1 || bad 2, none⟩])
  else packWords (fmtBits f) (fmtPerWord f) base w l

/-- The flag event of lane k of output row r, whose first word lies `off` words from the output's first word (Table 2.9). (DESIGN CHOICE, unsafe: log 168) -/
def vxEvent (fl off f r k : Nat) : FlagEv :=
  let w := off + (if f = 1 then 2 * (k / 3) else k / fmtPerWord f)
  ⟨fl, w % 2 ^ 16, w / 2 ^ 16, k % vxPer f, (r, k)⟩
/-- The flag event of lane k of a mask row (R114): bit k mod 96 of word k div 96. -/
def vxMaskEvent (fl off r k : Nat) : FlagEv :=
  let w := off + k / 96
  ⟨fl, w % 2 ^ 16, w / 2 ^ 16, k % 96, (r, k)⟩

/-- What an instruction produces: words to write, flag events, elements crushed, and its chain-register codes. -/
structure VxOut where
  words : List WordWrite
  events : List FlagEv
  crushed : Nat
  codes : List (Nat × Bool)
deriving DecidableEq, Repr

def vxEventsOf (off f r : Nat) (l : List VElem) : List FlagEv :=
  l.zipIdx.filterMap (fun p => if p.1.2.2 = 0 then none else some (vxEvent p.1.2.2 off f r p.2))

/-- An element-wise instruction without scales. (DESIGN CHOICE, unsafe: log 168) -/
def Tile.vxElementwiseOut (t : Tile) (o : OpCtx) (regs : ChainRegs) (d vl : Nat) : VxOut :=
  let f := Vx.fmtD d
  let rows := (List.range (Vx.nrows d)).map (fun r => (List.range vl).map (fun k => t.vxElement o regs d vl r k))
  let rw := vxRowWords d vl
  let st := vxRowStride d vl
  let mask := vxIsMask d
  { words := if Vx.selD d ≠ 0 then [] else rows.zipIdx.flatMap (fun p =>
      let l := p.1.map (fun x => (x.1, x.2.1))
      if mask then packWords 1 96 (Vx.addrD d + p.2 * st) rw l else vxPackRow f (Vx.addrD d + p.2 * st) rw l)
    events := rows.zipIdx.flatMap (fun p =>
      if mask then p.1.zipIdx.filterMap (fun x => if x.1.2.2 = 0 then none else some (vxMaskEvent x.1.2.2 (p.2 * st) p.2 x.2))
      else vxEventsOf (p.2 * (if Vx.selD d = 0 then st else rw)) f p.2 p.1)
    crushed := 0
    codes := rows.flatMap (fun l => l.map (fun x => (x.1, x.2.1))) }

/-- The scale of block b of scale row r (R105, R122). -/
def Tile.vxScaleAt (t : Tile) (d r b : Nat) : Nat × Bool :=
  let w := t.peek (Vx.addrC d + r * vxSStr d + b / 12); (fld w.1 (8 * (b % 12)) 8, w.2)

/-- One block of 48 quantised by R50: codes and scale. Every code derives from the scale, so a poisoned element poisons the scale and the code of every lane that
writes one; its clean NaNs alone raise a flag (R54, R62). `lanes` says which lanes are active. (DEDUCED, unsafe: log 164) -/
def quantBlock (F : Fp) (rc : RoundCtx) (e0 : Nat) (xs : List (Val × Bool)) (lanes : List Bool := []) : (List VElem × Nat) × Nat × Bool :=
  let pad := 48 - xs.length
  if xs.any (·.2) then
    ((xs.zipIdx.map (fun x => if lanes[x.2]?.getD true then (0, true, if !x.1.2 && x.1.1.isNan then flNAN_IN else 0) else (0, false, 0)) ++
      List.replicate pad (0, false, 0), 0), 0, true)
  else
    let q := quantise F rc flNAN_IN e0 (xs.map (·.1) ++ List.replicate pad Val.zero)
    ((q.2.map (fun p => (p.1, false, p.2.1)), (q.2.map (·.2.2)).sum), q.1, false)

/-- A list cut into blocks of 48. -/
def blocks48 {α : Type} : Nat → List α → List (List α)
  | 0, _ => []
  | k + 1, l => l.take 48 :: blocks48 k (l.drop 48)

/-- The writes of a row of scale bytes from word `base`: whole words of 12, and bytes of a word partly filled (R122, R145). -/
def scaleWrites (base : Nat) (l : List (Nat × Bool)) : List WordWrite :=
  packWords 8 12 base (l.length / 12) l ++
  ((l.drop (l.length / 12 * 12)).zipIdx.map (fun b => ⟨base + l.length / 12, b.1.1, b.1.2, some b.2⟩))

/-- A CVT with scales (R49, R50, R122). -/
def Tile.vxScaledOut (t : Tile) (o : OpCtx) (regs : ChainRegs) (d vl : Nat) : VxOut :=
  let fa := Vx.fmtA d
  let f := Vx.fmtD d
  let nb := ceilDiv vl 48
  let bcast := Vx.selA d = 5 ∨ Vx.selA d = 6
  let val := fun (r k : Nat) =>
    let x := t.vxOperand regs d vl 0 r k
    let lane := if Vx.masked d = 1 then t.vxLane d vl r k else (true, false)
    let v := decodeFmt fa false x.1
    if vxInScaled d then
      let sc := t.vxScaleAt d (if Vx.selA d = 5 then 0 else r) (if bcast then 0 else k / 48)
      (lane.1, scaleVal v sc.1, lane.2 || (lane.1 && (x.2 || sc.2)))
    else (lane.1, v, lane.2 || (lane.1 && x.2))
  let rw := vxRowWords d vl
  let rows := (List.range (Vx.nrows d)).map (fun r => (List.range vl).map (fun k => val r k))
  match fpOf f, vxOutScaled d with
  | some F, true =>
    let outs := rows.zipIdx.map (fun p =>
      (blocks48 nb p.1).zipIdx.map (fun b => quantBlock F o.rc (p.2 * vl + 48 * b.2) (b.1.map (fun x => if x.1 then (x.2.1, x.2.2) else (Val.zero, x.2.2))) (b.1.map (fun x => x.1 || x.2.2))))
    { words := outs.zipIdx.flatMap (fun p =>
        vxPackRow f (Vx.addrD d + p.2 * Vx.dstride d) rw (p.1.flatMap (fun b => b.1.1.map (fun x => (x.1, x.2.1)))) ++
        scaleWrites (Vx.addrC d + p.2 * vxSStr d) (p.1.map (·.2)))
      events := outs.zipIdx.flatMap (fun p => vxEventsOf (p.2 * Vx.dstride d) f p.2 (p.1.flatMap (fun b => b.1.1)))
      crushed := ((outs.flatten).map (fun b => b.1.2)).sum
      codes := [] }
  | _, _ =>
    let es := rows.zipIdx.map (fun p => p.1.zipIdx.map (fun x =>
      if x.1.2.2 then (0, true, 0) else if !x.1.1 then (0, false, 0)
      else let q := convT o.rc f (p.2 * vl + x.2) x.1.2.1; (q.1, false, q.2 ||| (if x.1.2.1.isNan then flNAN_IN else 0))))
    { words := if Vx.selD d ≠ 0 then [] else es.zipIdx.flatMap (fun p => vxPackRow f (Vx.addrD d + p.2 * Vx.dstride d) rw (p.1.map (fun x => (x.1, x.2.1))))
      events := es.zipIdx.flatMap (fun p => vxEventsOf (p.2 * Vx.dstride d) f p.2 p.1)
      crushed := 0
      codes := es.flatMap (fun l => l.map (fun x => (x.1, x.2.1))) }

/-- The active source elements of operand A as (row, lane) reads: none where masked off. -/
def Tile.vxActive (t : Tile) (d vl r k : Nat) : Option (Nat × Bool) :=
  let x := t.vxOperand [] d vl 0 r k
  if Vx.masked d = 1 then
    let l := t.vxLane d vl r k
    if l.2 then some (x.1, true) else if l.1 then some x else none
  else some x

/-- Widen an element to the result format, squared for kind 6 (R59, R124): code and flags. An FP64 element of SMSTAT is rounded to FP32, with the flags of that. (DESIGN CHOICE, unsafe: log 170) -/
def redWiden (o : OpCtx) (kind fa rf code : Nat) : Nat × Nat :=
  if 7 ≤ kind then (intEncode 13 (intDecode fa code), 0)
  else
    let v := decodeFmt fa o.ieee code
    let o' : OpCtx := { o with rc := { o.rc with mode := 0 } }
    let rd := readFlags o true [(fa, code)]
    let r := o'.out rf 0 (if kind = 6 then (Val.mul v v).1 else v)
    (r.1, r.2 ||| rd)

/-- A combining step on elements with their poison and flags: a step of a poisoned element gives a poisoned one and raises nothing of its own (R59, R62). -/
def stepElem (o : OpCtx) (kind rf : Nat) (a b : VElem) : VElem :=
  if a.2.1 || b.2.1 then (0, true, a.2.2 ||| b.2.2)
  else let r := combine o kind rf a.1 b.1; (r.1, false, a.2.2 ||| b.2.2 ||| r.2)
/-- An element widened for a reduction; a poisoned one raises nothing (R62). -/
def widenElem (o : OpCtx) (kind fa rf : Nat) (y : Nat × Bool) : VElem :=
  if y.2 then (0, true, 0) else let r := redWiden o kind fa rf y.1; (r.1, false, r.2)
/-- The clean elements of a list that are present. -/
def cleanOf (fa : Nat) (l : List (Option (Nat × Bool))) : List (Nat × Nat) :=
  l.filterMap (fun x => x.bind (fun y => if y.2 then none else some (fa, y.1)))
/-- Whether a present element of a list is poisoned. -/
def anyPoison (l : List (Option (Nat × Bool))) : Bool := l.any (fun x => x.any (·.2))

/-- A reduction over a list of elements, absent where masked off (R124): code, poison and flags. -/
def reduceList (o : OpCtx) (kind fa rf : Nat) (l : List (Option (Nat × Bool))) : VElem :=
  if l.all Option.isNone then (reduceIdentity kind rf, false, flEMPTY)
  else if kind = 4 ∨ kind = 5 then
    let fl := if isFloatFmt fa then readFlags o true (cleanOf fa l) else 0
    let nodes := l.zipIdx.map (fun p => p.1.map (fun y => (decodeFmt fa o.ieee y.1, p.2)))
    if anyPoison l then (0, true, fl)
    else match treeFold (fun a b => if argRight (kind == 4) a.1 b.1 then b else a) 14 nodes with
    | some r => (r.2, false, fl)
    | none => (0, false, fl)
  else (treeFold (stepElem o kind rf) 14 (l.map (fun x => x.map (widenElem o kind fa rf)))).getD (0, false, 0)

/-- Packed results from ADDR_D (R124, R129). -/
def vxPackedOut (d : Nat) (l : List VElem) : VxOut :=
  let f := Vx.fmtD d
  { words := vxPackRow f (Vx.addrD d) (wordsFor f l.length) (l.map (fun x => (x.1, x.2.1)))
    events := vxEventsOf 0 f 0 l, crushed := 0, codes := [] }

/-- REDUCE (R124). -/
def Tile.vxReduce (t : Tile) (o : OpCtx) (d vl : Nat) : VxOut :=
  let f := fun (l : List (Option (Nat × Bool))) => reduceList o (redKind d) (Vx.fmtA d) (Vx.fmtD d) l
  vxPackedOut d (if redAxis d = 0 then (List.range (Vx.nrows d)).map (fun r => f ((List.range vl).map (fun k => t.vxActive d vl r k)))
    else (List.range vl).map (fun k => f ((List.range (Vx.nrows d)).map (fun r => t.vxActive d vl r k))))

/-- The running value after one more element, with the flags of that step alone. -/
def scanStep (o : OpCtx) (kind fa rf : Nat) (run : Option VElem) (x : Option (Nat × Bool)) : Option VElem :=
  match x, run with
  | none, r => r.map (fun r => (r.1, r.2.1, 0))
  | some y, none => some (widenElem o kind fa rf y)
  | some y, some r => some (stepElem o kind rf (r.1, r.2.1, 0) (widenElem o kind fa rf y))
/-- One row of an inclusive scan (R125): `run` is the running value so far. -/
def scanIncl (o : OpCtx) (kind fa rf : Nat) : List (Option (Nat × Bool)) → Option VElem → List VElem
  | [], _ => []
  | x :: rest, run =>
    let r := scanStep o kind fa rf run x
    r.getD (reduceIdentity kind rf, false, 0) :: scanIncl o kind fa rf rest r
/-- One row of a scan (R125). An exclusive scan is the identity and the inclusive scan of all elements but the last: the step that takes in element k raises its
flags at output element k + 1. (DEDUCED, unsafe: log 169) -/
def scanRow (o : OpCtx) (kind fa rf : Nat) (excl : Bool) (l : List (Option (Nat × Bool))) : List VElem :=
  if !excl then scanIncl o kind fa rf l none
  else match l with
    | [] => []
    | _ => (reduceIdentity kind rf, false, 0) :: scanIncl o kind fa rf l.dropLast none

/-- SCAN (R125, R59): a row with no active element writes nothing and sets EMPTY. -/
def Tile.vxScan (t : Tile) (o : OpCtx) (d vl : Nat) : VxOut :=
  let rf := Vx.fmtD d
  let rows := (List.range (Vx.nrows d)).map (fun r => (List.range vl).map (fun k => t.vxActive d vl r k))
  let outs := rows.map (fun l => if l.all Option.isNone then none else some (scanRow o (redKind d) (Vx.fmtA d) rf (Vx.aux d / 32 % 2 == 1) l))
  { words := outs.zipIdx.flatMap (fun p => match p.1 with
      | some l => vxPackRow rf (Vx.addrD d + p.2 * Vx.dstride d) (vxRowWords d vl) (l.map (fun x => (x.1, x.2.1)))
      | none => [])
    events := outs.zipIdx.flatMap (fun p => match p.1 with
      | some l => vxEventsOf (p.2 * Vx.dstride d) rf p.2 l
      | none => [vxEvent flEMPTY (p.2 * Vx.dstride d) rf p.2 0])
    crushed := 0, codes := [] }

/-- PERM (R126). -/
def Tile.vxPerm (t : Tile) (o : OpCtx) (d vl : Nat) : VxOut :=
  let fa := Vx.fmtA d
  let f := Vx.fmtD d
  let rows := (List.range (Vx.nrows d)).map (fun r => (List.range vl).map (fun k =>
    let lane := if Vx.masked d = 1 then t.vxLane d vl r k else (true, false)
    let b := t.vxOperand [] d vl 1 r k
    if lane.2 || (lane.1 && b.2) then (0, true, 0)
    else if !lane.1 then (0, false, 0)
    else if vl ≤ b.1 then (0, false, flRANGE)
    else
      let a := t.vxOperand [] d vl 0 r b.1
      if a.2 then (0, true, 0) else let q := cvtElem o fa f (r * vl + k) a.1; (q.1, false, q.2)))
  { words := rows.zipIdx.flatMap (fun p => vxPackRow f (Vx.addrD d + p.2 * Vx.dstride d) (vxRowWords d vl) (p.1.map (fun x => (x.1, x.2.1))))
    events := rows.zipIdx.flatMap (fun p => vxEventsOf (p.2 * Vx.dstride d) f p.2 p.1), crushed := 0, codes := [] }

/-- The best of the remaining (index, value) pairs of TOPK, the lower index on ties (R127). -/
def topBest (low : Bool) : List (Nat × Val) → Option (Nat × Val)
  | [] => none
  | x :: rest => match topBest low rest with
    | none => some x
    | some y => if argRight (!low) x.2 y.2 then some y else some x

/-- The k best in order. -/
def topList (low : Bool) : Nat → List (Nat × Val) → List (Nat × Val)
  | 0, _ => []
  | k + 1, l => match topBest low l with
    | none => []
    | some x => x :: topList low k (l.filter (fun y => y.1 != x.1))

/-- TOPK (R127): a row's flags are raised at element 0 of its results. (DESIGN CHOICE, unsafe: log 168) -/
def Tile.vxTopk (t : Tile) (o : OpCtx) (d vl : Nat) : VxOut :=
  let k := Vx.aux d % 128
  let low := Vx.aux d / 256 % 2 == 1
  let fa := Vx.fmtA d
  let rw := ceilDiv k 3
  let rows := (List.range (Vx.nrows d)).map (fun r =>
    let act := (List.range vl).filterMap (fun i => (t.vxActive d vl r i).map (fun x => (i, x)))
    let bad := act.any (fun x => x.2.2)
    let best := topList low k (act.map (fun x => (x.1, decodeFmt fa o.ieee x.2.1)))
    let fill := k - best.length
    (bad, best.map (·.1) ++ List.replicate fill 0xFFFFFFFF,
     best.map (fun x => (convI 0 0 x.2).1) ++ List.replicate fill (if low then 0x7F800000 else 0xFF800000),
     (if act.length < k then flEMPTY else 0) ||| readFlags o true (cleanOf fa (act.map (fun x => some x.2)))))
  { words := rows.zipIdx.flatMap (fun p =>
      packWords 32 3 (Vx.addrD d + p.2 * Vx.dstride d) rw (p.1.2.1.map (fun c => (c, p.1.1))) ++
      (if Vx.aux d / 128 % 2 = 1 then packWords 32 3 (Vx.addrC d + p.2 * Vx.dstride d) rw (p.1.2.2.1.map (fun c => (c, p.1.1))) else []))
    events := rows.zipIdx.filterMap (fun p => if p.1.2.2.2 = 0 then none else some (vxEvent p.1.2.2.2 (p.2 * Vx.dstride d) 13 p.2 0))
    crushed := 0, codes := [] }

/-- The score of a logit in SAMPLE (R129): the device's FP32 LOG twice, then an IEEE FP32 FMA. -/
def sampleScore (o : OpCtx) (greedy : Bool) (fa x invT bits : Nat) : Val :=
  if greedy then decodeFmt fa o.ieee x
  else
    let i : OpCtx := ⟨true, { o.rc with mode := 0 }⟩
    let u := Val.fin false (2 * (bits / 2 ^ 40) + 1) (-25)
    let lg := fun (v : Val) => decodeFmt 0 true (funcOut i 0x15 0 0 v).1
    let g := (lg (lg u).neg).neg
    decodeFmt 0 true (floatElem i 0x03 0 0 [(0, (convI 0 0 (decodeFmt fa o.ieee x)).1), (0, invT), (0, (convI 0 0 g).1)]).1

/-- SAMPLE of one row (R129). -/
def Tile.vxSampleRow (t : Tile) (o : OpCtx) (d vl r : Nat) : VElem :=
  let greedy := Vx.aux d % 2 == 1
  let fa := Vx.fmtA d
  let key := t.peek (Vx.addrC d)
  let b := t.vxOperand [] d vl 1 r 0
  let act := (List.range vl).filterMap (fun k => (t.vxActive d vl r k).map (fun x => (k, x)))
  let nanB := !greedy && !b.2 && (decodeFmt 0 true b.1).isNan
  if act.any (fun x => x.2.2) || (!greedy && (key.2 || b.2)) then
    (0, true, (if nanB || act.any (fun x => !x.2.2 && (decodeFmt fa o.ieee x.2.1).isNan) then flNAN_IN else 0))
  else match act.find? (fun x => (decodeFmt fa o.ieee x.2.1).isNan) with
    | some x => (x.1, false, flNAN_IN)
    | none =>
      let ok := match decodeFmt 0 true b.1 with | .fin n m _ => !n && m != 0 | _ => false
      if !greedy && !ok then (0xFFFFFFFF, false, if nanB then flINV + flNAN_IN else flINV)
      else
        let best := act.foldl (fun (acc : Option (Nat × Val)) x =>
          let sc := sampleScore o greedy fa x.2.1 b.1 (rngbits (BitVec.ofNat 64 key.1) (key.1 / 2 ^ 64) r x.1)
          match acc with
          | none => some (x.1, sc)
          | some y => if Val.cmp sc y.2 = .gt then some (x.1, sc) else acc) none
        match best with
        | some y => (y.1, false, 0)
        | none => (0xFFFFFFFF, false, flEMPTY)

/-- SMSTAT of one row (R130): m_new, l_new and f as FP32 codes. -/
def Tile.vxSmstatRow (t : Tile) (o : OpCtx) (d vl r : Nat) : List VElem :=
  let fa := Vx.fmtA d
  let o := { o with rc := { o.rc with mode := 0 } }
  let w := t.peek (Vx.addrC d + r)
  let (mo, lo, pb) := if Vx.aux d % 2 = 1 then (fld w.1 0 32, fld w.1 32 32, w.2) else (0xFF800000, 0, false)
  let act := (List.range vl).filterMap (fun k => t.vxActive d vl r k)
  if pb || act.any (fun x => x.2) then
    [(0, true, readFlags o true ((if pb then [] else [(0, mo), (0, lo)]) ++ cleanOf fa (act.map some))), (0, true, 0), (0, true, 0)]
  else
    let wide := act.map (fun x => redWiden o 0 fa 0 x.1)
    let mx := wide.foldl (fun acc x => let c := combine o 2 0 acc.1 x.1; (c.1, acc.2 ||| x.2 ||| c.2)) (mo, readFlags o true [(0, mo), (0, lo)])
    if mx.1 = 0xFF800000 then [(mx.1, false, 0), (lo, false, 0), (0x3F800000, false, 0)]
    else
      let expOf := fun (c : Nat) => let s1 := floatElem o 0x01 0 0 [(0, c), (0, mx.1)]; let e := floatElem o 0x13 0 0 [(0, s1.1)]; (e.1, s1.2 ||| e.2)
      let f := expOf mo
      let terms := (List.range vl).map (fun k => (t.vxActive d vl r k).map (fun x => expOf (redWiden o 0 fa 0 x.1).1))
      let sum := (treeFold (fun a b => let c := combine o 0 0 a.1 b.1; (c.1, a.2 ||| b.2 ||| c.2)) 14 terms).getD (0, 0)
      let p := floatElem o 0x02 0 0 [(0, lo), (0, f.1)]
      let l := floatElem o 0x00 0 0 [(0, p.1), (0, sum.1)]
      [(mx.1, false, mx.2), (l.1, false, p.2 ||| l.2 ||| sum.2), (f.1, false, f.2)]

/-- STASH (R131). -/
def Tile.vxStash (t : Tile) (o : OpCtx) (d vl : Nat) : VxOut :=
  let f := Vx.fmtD d
  let nb := ceilDiv vl 48
  let wb := stashWB f
  let ew := stashElems d vl
  let base := Vx.addrD d
  match fpOf f with
  | none => ⟨[], [], 0, []⟩
  | some F =>
    let outs := (List.range (Vx.nrows d)).map (fun r =>
      (blocks48 nb ((List.range vl).map (fun k =>
        match t.vxActive d vl r k with
        | some x => ((decodeFmt (Vx.fmtA d) false x.1, x.2), true)
        | none => ((Val.zero, false), false)))).zipIdx.map (fun b => quantBlock F o.rc (r * vl + 48 * b.2) (b.1.map (·.1)) (b.1.map (·.2))))
    let bl := outs.flatten
    { words := (bl.zipIdx.flatMap (fun p => vxPackRow f (base + p.2 * wb) wb (p.1.1.1.map (fun x => (x.1, x.2.1))))) ++
        ((List.range (ew - bl.length * wb)).map (fun j => ⟨base + bl.length * wb + j, 0, false, none⟩)) ++
        packWords 8 12 (base + ew) (stashScales d vl) (bl.map (fun b => (b.2.1, b.2.2)))
      events := bl.zipIdx.flatMap (fun p => (vxEventsOf (p.2 * wb) f (p.2 / max nb 1) p.1.1.1).map (fun e => { e with pos := (e.pos.1, 48 * (p.2 % max nb 1) + e.pos.2) }))
      crushed := (bl.map (fun b => b.1.2)).sum, codes := [] }

/-- What one instruction of a chain produces. -/
def Tile.vxRun (t : Tile) (o : OpCtx) (regs : ChainRegs) (d vl : Nat) : VxOut :=
  match vxClassOf d with
  | .reduce => t.vxReduce o d vl
  | .scan => t.vxScan o d vl
  | .perm => t.vxPerm o d vl
  | .topk => t.vxTopk o d vl
  | .sample => vxPackedOut d ((List.range (Vx.nrows d)).map (t.vxSampleRow o d vl))
  | .smstat =>
    let rows := (List.range (Vx.nrows d)).map (t.vxSmstatRow o d vl)
    { words := rows.zipIdx.flatMap (fun p => packWords 32 3 (Vx.addrD d + p.2) 1 (p.1.map (fun x => (x.1, x.2.1))))
      events := rows.zipIdx.flatMap (fun p => vxEventsOf p.2 0 p.2 p.1), crushed := 0, codes := [] }
  | .stash => t.vxStash o d vl
  | _ => if vxScaled d then t.vxScaledOut o regs d vl else t.vxElementwiseOut o regs d vl

/-- Every scratchpad word an instruction reads, once each (R144). -/
def vxReadList (d vl : Nat) : List Nat :=
  let span := fun (r : Nat × Nat) => (List.range (r.2 - r.1)).map (r.1 + ·)
  (List.range (vxArity d)).flatMap (fun x =>
    if vxSel d x = 0 then (List.range (Vx.nrows d)).flatMap (fun r => (List.range (wordsFor (vxFmt d x) vl)).map (fun w => vxAddr d x + r * Vx.sstride d + w))
    else ((vxSource d vl x).map span).getD []) ++
  (if vxUseMask d then span (vxMaskRange d vl) else []) ++
  (if vxInScaled d then (List.range (Vx.nrows d)).flatMap (fun r => (List.range (ceilDiv (ceilDiv vl 48) 12)).map (fun w => Vx.addrC d + r * vxSStr d + w)) else []) ++
  (if vxClassOf d = .smstat ∧ Vx.aux d % 2 = 1 then (List.range (Vx.nrows d)).map (Vx.addrC d + ·) else [])

/-- Elements per hall cycle (Table 4.6a, R125, R129). -/
def vxRate (d : Nat) : Nat :=
  let w := (vxFmts d ++ (if vxIsMask d then [] else [Vx.fmtD d])).foldl (fun a f => max a (fmtBits f)) 0
  let slow := (vxClassOf d == .float) && (decide (Vx.opc d = 0x05 ∨ Vx.opc d = 0x06 ∨ Vx.opc d = 0x07 ∨ Vx.opc d = 0x08) || decide (0x13 ≤ Vx.opc d))
  if slow then (if w = 64 then 3 else 12)
  else if vxClassOf d = .scan ∧ redKind d = 0 then 8
  else if vxClassOf d = .sample ∧ Vx.aux d % 2 = 0 then 12
  else if vxClassOf d = .sample then 48
  else if w = 64 then 12 else if w = 32 then 48 else if w = 16 then 96
  else if vxClassOf d = .cvt then (if w = 4 then 384 else 192) else if vxClassOf d = .cmp then 192 else 96

/-! Rows. -/

/-- The main-context chain at the head of the vector queue: up to its store; none while it has no store. -/
def vxMainChain : List EngInstr → Option (List EngInstr)
  | [] => none
  | i :: rest => if Vx.selD i.desc = 0 then some [i] else (vxMainChain rest).map (i :: ·)

def Tile.vxQueued (t : Tile) (handler : Bool) : List EngInstr := t.instrs.filter (fun i => i.eng == 1 && i.stage == .queued && i.handler == handler)
def Tile.vxRunning (t : Tile) (handler : Bool) : List EngInstr := t.instrs.filter (fun i => i.eng == 1 && i.stage == .running && i.handler == handler)

/-- What VX_START would start (R80, R116, R117): for the main context its head chain, when no handler instruction is queued before the
chain's end and the engine is free; for the handler context its head instruction, once it has reached the head of the queue: what is
queued before it stands in the chain buffer, and that chain is still open. -/
def Tile.vxCandidate (t : Tile) (c : Nat) : Option (List EngInstr) :=
  let m := t.vxQueued false
  let h := t.vxQueued true
  if c = 0 then
    match vxMainChain m with
    | some ch => if (t.vxRunning false).isEmpty && (t.vxRunning true).isEmpty && h.all (fun i => (ch.getLast?.map (fun x => decide (x.id < i.id))).getD false) then some ch else none
    | none => none
  else
    match h with
    | i :: _ => if (t.vxRunning true).isEmpty && (m.filter (fun x => decide (x.id < i.id))).all (fun x => t.chainBuf.contains x.id && Vx.selD x.desc != 0) then some [i] else none
    | [] => none

/-- VX_START (R116): starts once the dependencies of every instruction of the chain have cleared. -/
def execVxStart (n c : Nat) (s : State) : Res :=
  onTile n c (
    match (s.tile n).vxCandidate c with
    | some ch =>
      let ids := ch.map (·.id)
      if (s.partOf n).isSome && ch.all (fun i => sbReady (s.tile n).sb i.id ids (vxRegions i.desc i.vl)) then
        ids.foldl (fun s id => s.upInstr n id (fun i => { i with stage := .running, since := s.now })) s
      else s
    | none => s)

/-- Run a chain's instructions in order: each sees the chain registers written so far; writes and flags are gathered. -/
def vxChainRun (s : State) (n : Nat) : List EngInstr → ChainRegs → List (EngInstr × VxOut)
  | [], _ => []
  | i :: rest, regs =>
    let o : OpCtx := ⟨vxIeee i.desc, s.roundCtx n i (Vx.rm i.desc)⟩
    let r := (s.tile n).vxRun o regs i.desc i.vl
    let regs := if Vx.selD i.desc = 0 then regs else (Vx.selD i.desc, r.codes) :: regs.filter (fun p => p.1 != Vx.selD i.desc)
    (i, r) :: vxChainRun s n rest regs

/-- When an event of an instruction arises (R55, R116, R118, R125): its strip, in bands of 8 rows and from left to right in a band; for a float-sum SCAN, which takes one
element of 8 rows at a time, its band and lane; results that stand for whole rows or columns arise together. (DESIGN CHOICE, unsafe: log 167) -/
def vxMoment (width : Nat) (d vl : Nat) (e : FlagEv) : Nat :=
  match vxClassOf d with
  | .scan => if redKind d = 0 then e.pos.1 / 8 * vl + e.pos.2 else e.pos.1 / 8 * ceilDiv vl width + e.pos.2 / width
  | .reduce | .topk | .sample | .smstat => 0
  | _ => e.pos.1 / 8 * ceilDiv vl width + e.pos.2 / width
/-- A list with an entry put before the first of a later moment; entries of one moment keep their order. -/
def insertByMoment {α : Type} (x : Nat × α) : List (Nat × α) → List (Nat × α)
  | [] => [x]
  | y :: l => if x.1 ≤ y.1 then x :: y :: l else y :: insertByMoment x l
/-- The events of a chain in the order in which they arise (R55): by strip, then by instruction, row and column. -/
def vxOrdered (outs : List (EngInstr × VxOut)) : List (Nat × EngInstr × FlagEv) :=
  let width := if outs.any (fun p => (vxFmts p.1.desc).contains 1) then 24 else 48
  (outs.flatMap (fun p => p.2.events.map (fun e => (vxMoment width p.1.desc p.1.vl e, p.1, e)))).foldr insertByMoment []

/-- VX_DONE (R113–R131): the running instruction or chain of context c reads its sources, writes its results, raises its
flags and completes. (DEDUCED, unsafe: log 27) -/
def execVxDone (n c : Nat) (s : State) : Res :=
  onTile n c (
    let ch := (s.tile n).vxRunning (c == 1)
    let s := ch.foldl (fun s i => (s.readWords n 0 i.flight (vxReadList i.desc i.vl)).1) s
    let outs := vxChainRun s n ch []
    let s := (vxOrdered outs).foldl (fun s e => s.raise n e.2.1.flight e.2.1.iaddr 1 e.2.2) s
    outs.foldl (fun s p =>
      let (i, r) := p
      let e := Vx.nrows i.desc * i.vl
      let s := (r.words.foldl (fun s w => s.applyWrite n i.flight w) s).inc F.TILE_QCRUSH_COUNT n 0 r.crushed
      let s := (s.inc F.ENG_VX_ELEMS_COUNT n 0 e).inc F.ENG_VX_BUSY_COUNT n 0 (ceilDiv e (vxRate i.desc))
      s.complete n i.id) s)

end Sys2Proof.Machine
end

