-- ==== Sys2Proof/Machine/Stream.lean ====
section
/-! DEFINITION. The stream engine's descriptor, runs and conversions (spec 04, R132–R134; spec 02, R63, R64). -/

namespace Sys2Proof.Machine

/-- Element width of an MX type (Table 2.12, in order). -/
def mxtBits (k : Nat) : Nat := match k with | 0 => 8 | 1 => 8 | 2 => 6 | 3 => 6 | 4 => 4 | _ => 8

/-- Decode an MX element exactly (Table 2.12). -/
def mxtDecode (k code : Nat) : Val :=
  let plain := fun (eb mb bias : Nat) =>
    let neg := code / 2 ^ (eb + mb) % 2 == 1
    let E := code / 2 ^ mb % 2 ^ eb
    let M := code % 2 ^ mb
    if E = 0 then (if M = 0 then Val.zero else .fin neg M (1 - (bias : Int) - mb)) else .fin neg (2 ^ mb + M) ((E : Int) - bias - mb)
  match k with
  | 0 => if code % 128 = 127 then .nan else plain 4 3 7
  | 1 => (⟨5, 2, 15, true⟩ : Fp).decode true code
  | 2 => plain 3 2 3
  | 3 => plain 2 3 1
  | 4 => plain 2 1 1
  | _ => let x := intDecode 9 code; .fin (decide (x < 0)) x.natAbs (-6)

/-- Byte-side element width. -/
def stBitsB (d : Nat) : Nat := if St.layout d = 2 then mxtBits (St.mxtype d) else fmtBits (St.fmtB d)
/-- Whether scales are kept in the scratchpad (R132, R133). -/
def stKept (d : Nat) : Bool := St.layout d != 0 && isBlockFmt (St.fmtS d)
def stN1 (d : Nat) : Nat := if St.shape d = 0 then 1 else St.n1 d
def stN2 (d : Nat) : Nat := if St.shape d = 2 then St.n2 d else 1
def stRuns (d : Nat) : Nat := stN1 d * stN2 d
/-- Elements of one run (R132). -/
def stE (d : Nat) : Nat := St.l0 d * 1536 / stBitsB d
/-- Whether the elements of g byte-side word groups make whole scratchpad words and whole blocks (R132). -/
def stFits (d g : Nat) : Bool :=
  let k := g * 1536 / stBitsB d
  (g * 1536 % stBitsB d == 0) && (k * fmtBits (St.fmtS d) % 96 == 0) &&
  (match St.layout d with
   | 0 => true
   | 1 => k % 48 == 0
   | _ => if stKept d then k % 96 == 0 else k % 32 == 0)
/-- Word groups converted together: the fewest that fit. (DEDUCED, unsafe: log 28) -/
def stChunk (d : Nat) : Nat := ((List.range 64).find? (fun g => stFits d (g + 1))).getD 0 + 1
def stChunksPerRun (d : Nat) : Nat := St.l0 d / stChunk d
def stChunks (d : Nat) : Nat := stRuns d * stChunksPerRun d
def stChunkElems (d : Nat) : Nat := stChunk d * 1536 / stBitsB d
def stChunkWords (d : Nat) : Nat := stChunkElems d * fmtBits (St.fmtS d) / 96
def stRunWords (d : Nat) : Nat := stE d * fmtBits (St.fmtS d) / 96
/-- Elements of a byte-side scale (R63, R133). -/
def stScaleUnit (d : Nat) : Nat := if St.layout d = 2 then 32 else 48

/-- Scratchpad base of run q (R132). -/
def stSbase (d q : Nat) : Nat := St.saddr d + q % stN1 d * St.tstride1 d + q / stN1 d * St.tstride2 d

/-- Whether the formats fit the layout (R133, Table 2.12). -/
def stFmtOk (d : Nat) : Bool :=
  let fs := St.fmtS d
  let fb := St.fmtB d
  match St.layout d with
  | 0 => fs == fb || (if St.dir d = 0 then isFloatFmt fs && (isFloatFmt fb || isIntFmt fb) else isFloatFmt fb && (isFloatFmt fs || isIntFmt fs))
  | 1 => (isBlockFmt fb && isFloatFmt fs) || (isBlockFmt fs && isFloatFmt fb)
  | _ => St.dir d == 0 && (fs == 0 || fs == 2 || fs == 3 || (isBlockFmt fs && St.mxtype d != 5))

/-- The regions of an ST instruction (R132). -/
def stRegions (d : Nat) : List Region :=
  let lim := St.saddr d + (stN1 d - 1) * St.tstride1 d + (stN2 d - 1) * St.tstride2 d + stRunWords d
  let load := St.dir d == 0
  [⟨St.saddr d, lim, load⟩] ++
  (if stKept d then [⟨St.tscale d, St.tscale d + (stN1 d - 1) * St.tsstride d + ceilDiv (stE d / 48) 12, load⟩] else []) ++
  (if St.shape d = 3 then [⟨St.idx d, St.idx d + ceilDiv (stN1 d) 3, false⟩] else [])

def stWrites (d : Nat) : List (Nat × Nat) :=
  if St.dir d ≠ 0 then []
  else (List.range (stRuns d)).map (fun q => (stSbase d q, stSbase d q + stRunWords d)) ++
    (if stKept d then (List.range (stN1 d)).map (fun q => (St.tscale d + q * St.tsstride d, St.tscale d + q * St.tsstride d + ceilDiv (stE d / 48) 12)) else [])

/-- Whether the stream engine refuses a descriptor (R7, R35, R42, R102, R132, R133). -/
def stRefused (d : Nat) : Bool :=
  decide (1 < St.dir d) || decide (1 < St.tgt d) || St.fmtS d == 15 || (St.layout d != 2 && St.fmtB d == 15) ||
  decide (4 < St.rm d) || St.layout d == 3 || decide (5 < St.mxtype d) || !stFmtOk d ||
  St.baddr d % 64 != 0 || St.scbase d % 64 != 0 || St.l0 d == 0 || stN1 d == 0 || stN2 d == 0 ||
  !stFits d (St.l0 d) || (St.shape d == 2 && stKept d) ||
  (St.fmtS d == 1 && (St.saddr d % 2 != 0 || (St.shape d != 0 && St.tstride1 d % 2 != 0) || (St.shape d == 2 && St.tstride2 d % 2 != 0))) ||
  (stRegions d).any (fun r => decide (padWords < r.limit))

/-- The index of run q with SHAPE 3, an INT32 (R40, R132); none for a hole, and 0 for other shapes. -/
def Tile.stIndex (t : Tile) (d q : Nat) : Option Int :=
  if St.shape d = 3 then
    let w := t.peek (St.idx d + q / 3)
    let x := if w.2 then Config.undef (St.idx d + q) % 2 ^ 32 else fld w.1 (32 * (q % 3)) 32
    if x = 0xFFFFFFFF then none else some (sext x 32)
  else some 0

/-- A byte address computed with a signed index: one below 0 lies beyond every byte that exists. (DESIGN CHOICE, unsafe: log 173) -/
def byteAddr (x : Int) : Nat := (x % 2 ^ 64).toNat
/-- Byte base of run q (R132). -/
def stBbase (d q : Nat) (idx : Int) : Nat :=
  if St.shape d = 3 then byteAddr (St.baddr d + 64 * idx)
  else St.baddr d + 64 * (q % stN1 d * St.bstride1 d + q / stN1 d * St.bstride2 d)
/-- Byte-side scale base of run q (R133). -/
def stScBase (d q : Nat) (idx : Int) : Nat := byteAddr (St.scbase d + (if St.shape d = 3 then idx else q) * (stE d / stScaleUnit d : Nat))

/-- Whether byte-side scales exist (R48, R63, R133). -/
def stByteScales (d : Nat) : Bool := St.layout d == 2 || (St.layout d == 1 && isBlockFmt (St.fmtB d))

/-- The line addresses chunk c of a load needs: data lines, then scale lines (R133). -/
def Tile.stLines (t : Tile) (d c : Nat) : List Nat :=
  let q := c / stChunksPerRun d
  let j := c % stChunksPerRun d
  match t.stIndex d q with
  | none => []
  | some idx =>
    let b := stBbase d q idx + j * stChunk d * 192
    let u := stScaleUnit d
    let s0 := stScBase d q idx + j * stChunkElems d / u
    let s1 := s0 + stChunkElems d / u
    ((List.range (3 * stChunk d)).map (fun i => b + 64 * i)) ++
    (if stByteScales d then (List.range (s1 / 64 + 1 - s0 / 64)).filterMap (fun i =>
      let a := (s0 / 64 + i) * 64; if a < s1 then some a else none) else [])

/-- Byte a of the lines a load was served, with its line's poison. -/
def lineByte (l : List LineResp) (id a : Nat) : Nat × Bool :=
  match l.find? (fun r => r.id == id && r.addr == a / 64 * 64) with
  | some r => (r.line.data.toNat / 2 ^ (8 * (a % 64)) % 256, r.line.poison)
  | none => (0, false)

/-- Consecutive bytes as one number, with their poison by byte. -/
def bytesAt (l : List LineResp) (id a k : Nat) : Nat × List Bool :=
  let bs := (List.range k).map (fun i => lineByte l id (a + i))
  ((bs.zipIdx.map (fun p => p.1.1 * 2 ^ (8 * p.2))).sum, bs.map (·.2))

/-- Whether any of bits [lo, lo + w) lies in a poisoned byte. -/
def bitsPoison (p : List Bool) (lo w : Nat) : Bool := (List.range ((lo + w + 7) / 8 - lo / 8)).any (fun i => p[lo / 8 + i]?.getD false)

/-- What a chunk of a load writes: words, flag events and elements crushed (R133, R134, R64). `off` is the output word
offset of the chunk for the first-event record. -/
def Tile.stLoadChunk (t : Tile) (rc : RoundCtx) (id d c : Nat) : VxOut :=
  let q := c / stChunksPerRun d
  let j := c % stChunksPerRun d
  let fs := St.fmtS d
  let base := stSbase d q + j * stChunkWords d
  let off := base - St.saddr d
  let ke := stChunkElems d
  let row := St.tscale d + q % stN1 d * St.tsstride d
  let scaleAt := fun (b : Nat) (x : Nat) (bad : Bool) => (⟨row + b / 12, x, bad, some (b % 12)⟩ : WordWrite)
  match t.stIndex d q with
  | none =>
    ⟨(List.range (stChunkWords d)).map (fun w => ⟨base + w, 0, false, none⟩) ++
      (if stKept d then (List.range (ke / 48)).map (fun b => scaleAt (j * (ke / 48) + b) 0 false) else []), [], 0, []⟩
  | some idx =>
    let data := bytesAt t.lineResp id (stBbase d q idx + j * stChunk d * 192) (stChunk d * 192)
    let u := stScaleUnit d
    let sb := stScBase d q idx + j * (ke / u)
    let sc := fun (b : Nat) => lineByte t.lineResp id (sb + b)
    let wb := stBitsB d
    let code := fun (i : Nat) => fld data.1 (wb * i) wb
    let bad := fun (i : Nat) => bitsPoison data.2 (wb * i) wb || (stByteScales d && (sc (i / u)).2)
    if fs = St.fmtB d ∧ St.layout d ≠ 2 then
      -- words and scales move unchanged
      ⟨(List.range (stChunkWords d)).map (fun w => ⟨base + w, fld data.1 (96 * w) 96, bitsPoison data.2 (96 * w) 96, none⟩) ++
        (if stKept d then (List.range (ke / 48)).map (fun b => scaleAt (j * (ke / 48) + b) (sc b).1 (sc b).2) else []), [], 0, []⟩
    else
      let val := fun (i : Nat) =>
        if St.layout d = 2 then scaleVal (mxtDecode (St.mxtype d) (code i)) (sc (i / u)).1
        else if stByteScales d then scaleVal (decodeFmt (St.fmtB d) false (code i)) (sc (i / u)).1
        else decodeFmt (St.fmtB d) false (code i)
      let e0 := q * stE d + j * ke
      match fpOf fs, stKept d with
      | some F, true =>
        let bl := (List.range (ke / 48)).map (fun b => quantBlock F rc (e0 + 48 * b) ((List.range 48).map (fun i => (val (48 * b + i), bad (48 * b + i)))))
        let es := bl.flatMap (fun b => b.1.1)
        ⟨vxPackRow fs base (stChunkWords d) (es.map (fun x => (x.1, x.2.1))) ++
          bl.zipIdx.map (fun p => scaleAt (j * (ke / 48) + p.2) p.1.2.1 p.1.2.2), vxEventsOf off fs 0 es, (bl.map (fun b => b.1.2)).sum, []⟩
      | _, _ =>
        let es : List VElem := (List.range ke).map (fun i =>
          if bad i then (0, true, if !bitsPoison data.2 (wb * i) wb && (decodeFmt (St.fmtB d) false (code i)).isNan && St.layout d != 2 then flNAN_IN else 0)
          else let v := val i; let r := convT rc fs (e0 + i) v; (r.1, false, r.2 ||| (if v.isNan then flNAN_IN else 0)))
        ⟨vxPackRow fs base (stChunkWords d) (es.map (fun x => (x.1, x.2.1))), vxEventsOf off fs 0 es, 0, []⟩

/-- One run of a store as bytes: its data with poison, its byte-side scales with poison, its flag events and elements
crushed (R133, R134). An event's word offset counts from the run's scratchpad base less SADDR. (DESIGN CHOICE, unsafe: log 168) -/
def Tile.stStoreRun (t : Tile) (rc : RoundCtx) (d q : Nat) : List (Nat × Bool) × List (Nat × Bool) × List FlagEv × Nat :=
  let fs := St.fmtS d
  let fb := St.fmtB d
  let base := stSbase d q
  let ke := stE d
  let row := St.tscale d + q % stN1 d * St.tsstride d
  let panel := fun (b : Nat) => let w := t.peek (row + b / 12); (fld w.1 (8 * (b % 12)) 8, w.2)
  let wordBytes := fun (l : List WordWrite) => l.flatMap (fun w => (List.range 12).map (fun k => (fld w.data (8 * k) 8, w.poison)))
  if fs = fb then
    (wordBytes ((List.range (stRunWords d)).map (fun w => let x := t.peek (base + w); (⟨0, x.1, x.2, none⟩ : WordWrite))),
      if stKept d then (List.range (ke / 48)).map panel else [], [], 0)
  else
    let val := fun (i : Nat) =>
      let x := t.vxElemAt fs base i
      if stKept d then let s := panel (i / 48); (scaleVal (decodeFmt fs false x.1) s.1, x.2 || s.2) else (decodeFmt fs false x.1, x.2)
    match fpOf fb, stByteScales d with
    | some F, true =>
      let bl := (List.range (ke / 48)).map (fun b => quantBlock F rc (q * ke + 48 * b) ((List.range 48).map (fun i => val (48 * b + i))))
      let es := bl.flatMap (fun b => b.1.1)
      (wordBytes (vxPackRow fb 0 (ke * fmtBits fb / 96) (es.map (fun x => (x.1, x.2.1)))), bl.map (fun b => (b.2.1, b.2.2)),
        vxEventsOf (base - St.saddr d) fb 0 es, (bl.map (fun b => b.1.2)).sum)
    | _, _ =>
      let es : List VElem := (List.range ke).map (fun i =>
        let v := val i
        if v.2 then (0, true, 0) else let r := convT rc fb (q * ke + i) v.1; (r.1, false, r.2 ||| (if v.1.isNan then flNAN_IN else 0)))
      (wordBytes (vxPackRow fb 0 (ke * fmtBits fb / 96) (es.map (fun x => (x.1, x.2.1)))), [], vxEventsOf (base - St.saddr d) fb 0 es, 0)

/-- Cut bytes placed from byte address a into line writes of an instruction. -/
def linesOf (id : Nat) : Nat → Nat → List (Nat × Bool) → List LineOut
  | 0, _, _ => []
  | fuel + 1, a, bs =>
    match bs with
    | [] => []
    | _ =>
      let k := 64 - a % 64
      let h := bs.take k
      ⟨id, a / 64 * 64, BitVec.ofNat 512 ((h.zipIdx.map (fun p => p.1.1 * 2 ^ (8 * (a % 64 + p.2)))).sum),
        BitVec.ofNat 64 ((h.zipIdx.map (fun p => 2 ^ (a % 64 + p.2))).sum), h.any (·.2), false, none, false⟩ :: linesOf id fuel (a + h.length) (bs.drop k)

/-- Everything a store writes, in run order (R132, R133): line writes, flag events, elements crushed, word groups. -/
def Tile.stStoreAll (t : Tile) (rc : RoundCtx) (id d : Nat) : List LineOut × List FlagEv × Nat × Nat :=
  let rs := (List.range (stRuns d)).filterMap (fun q => (t.stIndex d q).map (fun idx => (q, idx, t.stStoreRun rc d q)))
  (rs.flatMap (fun p => linesOf id (p.2.2.1.length + 1) (stBbase d p.1 p.2.1) p.2.2.1 ++
      linesOf id (p.2.2.2.1.length + 1) (stScBase d p.1 p.2.1) p.2.2.2.1),
    rs.flatMap (fun p => p.2.2.2.2.1), (rs.map (fun p => p.2.2.2.2.2)).sum, rs.length * St.l0 d)

/-- Every scratchpad word a stream instruction reads at its start, once each: the index list, and for a store its runs
and kept scales (R144). -/
def Tile.stReadList (t : Tile) (d : Nat) : List Nat :=
  (if St.shape d = 3 then (List.range (ceilDiv (stN1 d) 3)).map (St.idx d + ·) else []) ++
  (if St.dir d = 0 then [] else ((List.range (stRuns d)).filter (fun q => (t.stIndex d q).isSome)).flatMap (fun q =>
    (List.range (stRunWords d)).map (stSbase d q + ·) ++
    (if stKept d then (List.range (ceilDiv (stE d / 48) 12)).map (fun w => St.tscale d + q * St.tsstride d + w) else [])))

/-- The byte-space bounding range of a descriptor, data and scales (R88), with the index list as it stands. -/
def Tile.stByteRange (t : Tile) (d : Nat) : List (Nat × Nat) :=
  let qs := (List.range (stRuns d)).filterMap (fun q => (t.stIndex d q).map (fun i => (q, i)))
  let ext := fun (f : Nat × Int → Nat) (len : Nat) => match qs with
    | [] => (0, 0)
    | x :: rest => (rest.foldl (fun a p => min a (f p)) (f x), rest.foldl (fun a p => max a (f p)) (f x) + len)
  ext (fun p => stBbase d p.1 p.2) (St.l0 d * 192) ::
  (if stByteScales d then [ext (fun p => stScBase d p.1 p.2) (stE d / stScaleUnit d)] else [])

end Sys2Proof.Machine
end

