-- ==== Sys2Proof/Machine/Alcove.lean ====
section
/-! DEFINITION. Alcoves (spec 05, R147–R151): opening and closing, the check of a remote access, and deliveries. -/

namespace Sys2Proof.Machine

/-- The other partition of an agreed share, seen from partition p. -/
def State.sharePeer (s : State) (p id : Nat) : Option Nat :=
  match s.shares.find? (fun x => x.id == id && x.parts.contains p) with
  | some x => if x.parts.all (fun q => x.offers.contains q) then x.parts.find? (· != p) else none
  | none => none

/-- Whether a peer context is registered for a partition. -/
def State.peerFor (s : State) (p ctx : Nat) : Bool := (Sparse.find? s.peers ctx).map (·.lpart) == some p
/-- Whether a peer group is registered for a partition. -/
def State.groupFor (s : State) (p g : Nat) : Bool := s.groups.any (fun x => x.part == p && x.id == g)

/-- Alcove k's descriptor, of the latest open (R164). -/
def State.alcDesc (s : State) (n k : Nat) : Nat := s.g F.TILE_ALC_A_DESC_LO n k + s.g F.TILE_ALC_B_DESC_HI n k * 2 ^ 64
def State.alcIsOpen (s : State) (n k : Nat) : Bool := s.g F.TILE_ALC_OPEN_OPEN n / 2 ^ k % 2 == 1

/-- Whether an open of descriptor d is refused (R148). -/
def State.alcRefused (s : State) (n d : Nat) : Bool :=
  let b := Alc.base d
  let l := Alc.limit d
  let p := (s.partOf n).getD 8
  !(decide (b < l) && decide (l ≤ padWords)) || s.touchesCode n b l || !s.rangeOn n b l || Alc.scope d == 3 ||
  (Alc.wr d == 0 && Alc.rd d == 0) || Alc.cls d == 0 || Alc.kind d == 0 ||
  (Alc.scope d == 1 && !s.groupFor p (Alc.group d)) || (Alc.scope d == 2 && (s.sharePeer p (Alc.group d)).isNone)

/-- Close alcove k to accesses not yet accepted (R149). -/
def State.alcShut (s : State) (n k : Nat) : State :=
  if s.alcIsOpen n k then s.w F.TILE_ALC_OPEN_OPEN n 0 (s.g F.TILE_ALC_OPEN_OPEN n - 2 ^ k) else s

/-- Open alcove k with descriptor d (R147, R164). -/
def State.alcSet (s : State) (n k d : Nat) : State :=
  let s := ((s.alcShut n k).w F.TILE_ALC_A_DESC_LO n k d).w F.TILE_ALC_B_DESC_HI n k (d / 2 ^ 64)
  s.w F.TILE_ALC_OPEN_OPEN n 0 (s.g F.TILE_ALC_OPEN_OPEN n + 2 ^ k)

/-- The descriptor of an alcove with the given fields (Table 5.3). -/
def alcPack (base limit scope wr rd cls group kind : Nat) : Nat :=
  base + limit * 2 ^ 19 + scope * 2 ^ 38 + wr * 2 ^ 40 + rd * 2 ^ 41 + cls * 2 ^ 42 + group * 2 ^ 46 + kind * 2 ^ 58

/-- The loader alcove (R148). -/
def loaderAlcove : Nat := alcPack 0 padWords 0 1 0 4 0 8

/-- Who a remote access comes from: a partition of this device, or a peer context; and its packet's partition tag (R23). -/
structure Src where
  part : Option Nat
  ctx : Option Nat
  tag : Nat
deriving DecidableEq, Repr

/-- `admits` of R150. -/
def State.alcAdmits (s : State) (n d : Nat) (src : Src) : Bool :=
  let own := s.partOf n
  (src.part.isSome && src.part == own) ||
  (Alc.scope d == 1 && (match src.ctx with
    | some c => s.groups.any (fun g => some g.part == own && g.id == Alc.group d && g.ctxs.contains c)
    | none => false)) ||
  (Alc.scope d == 2 && (match own, src.part with
    | some p, some q => s.sharePeer p (Alc.group d) == some q
    | _, _ => false))

/-- The reason alcove d gives for words [a, a + len) it covers, 0 for acceptance (R150). Operation: `write` or read;
kinds 0 exchange, 1 message, 2 collective, 3 host. -/
def State.alcReason (s : State) (n d : Nat) (write : Bool) (kind cls : Nat) (src : Src) : Nat :=
  if !(if write then Alc.wr d == 1 else Alc.rd d == 1) then 2
  else if Alc.kind d / 2 ^ kind % 2 = 0 then 3
  else if Alc.cls d / 2 ^ cls % 2 = 0 then 4
  else if !s.alcAdmits n d src then 5 else 0

/-- `alcove_check` of R150 over the open alcoves that cover the range, in order: the accepting alcove, or the reason
and the first covering alcove. -/
def alcScan (reason : Nat → Nat) : List Nat → Option (Nat × Nat) → Except (Nat × Nat) Nat
  | [], none => .error (1, 0)
  | [], some (k, r) => .error (r, k)
  | k :: rest, first =>
    if reason k = 0 then .ok k
    else alcScan reason rest (match first with | some x => some x | none => some (k, reason k))

def State.alcoveCheck (s : State) (n a len : Nat) (write : Bool) (kind cls : Nat) (src : Src) : Except (Nat × Nat) Nat :=
  alcScan (fun k => s.alcReason n (s.alcDesc n k) write kind cls src)
    ((List.range 16).filter (fun k => s.alcIsOpen n k && decide (Alc.base (s.alcDesc n k) ≤ a) && decide (a + len ≤ Alc.limit (s.alcDesc n k))))
    none

/-- A refused access: it is counted and recorded, and unless a host made it the tile contributes the fault bit at its next landing (R151, R168). -/
def State.alcViolation (s : State) (n a : Nat) (write : Bool) (kind cls : Nat) (src : Src) (reason alc : Nat) : State :=
  let s := s.inc F.TILE_ALCOVE_VIOL_COUNT n 0 1
  let s := ((((((s.w F.TILE_VIOL_LAST_ADDR n 0 a).w F.TILE_VIOL_LAST_REASON n 0 reason).w F.TILE_VIOL_LAST_ALC n 0 alc).w
    F.TILE_VIOL_LAST_CLASS n 0 cls).w F.TILE_VIOL_LAST_KIND n 0 kind).w F.TILE_VIOL_LAST_SRCPART n 0 src.tag).w
    F.TILE_VIOL_LAST_OP n 0 (if write then 0 else 1)
  if kind = 3 then s else s.pendFault n (s.tile n).flight

/-- Write delivered words from word a; each poisoned word counts and raises the fault bit (R144, R145). -/
def State.deliver (s : State) (n a : Nat) : List (Nat × Bool) → State
  | [] => s
  | (d, p) :: rest =>
    let s := s.writeWord n a d p
    (if p then s.poisonCount n (s.tile n).flight else s).deliver n (a + 1) rest

/-- Whether accesses accepted into alcove k have words still to write (R149). -/
def Tile.alcBusy (t : Tile) (k : Nat) : Bool := t.accepted.any (fun x => x.1 == k)

end Sys2Proof.Machine
end

