-- ==== Sys2Proof/Machine/Engine.lean ====
section
/-! DEFINITION. The dispatch of an engine instruction (spec 03_tile_sequencer.md, R79–R81): its descriptor, its three
conditions, its checks, and what a dispatched instruction registers. -/

namespace Sys2Proof.Machine

/-- Words of a descriptor (Tables 4.1, 4.5, 4.9, 6.3, 7.1). Engines: 0 matrix, 1 vector, 2 stream, 3 exchange, 4 message. -/
def descWords (eng func : Nat) : Nat :=
  match eng with
  | 0 => 3 | 1 => 2 | 2 => 4 | 3 => 2
  | _ => if func = 1 ∨ func = 2 then 2 else 1

/-- The regions an instruction registers (R82, R106, R113, R132, R176, R199). -/
def engRegions (eng func d vl : Nat) : List Region :=
  match eng with
  | 0 => mxRegions d
  | 1 => vxRegions d vl
  | 2 => stRegions d
  | 3 => [⟨Xc.list d, Xc.list d + Xc.nent d, false⟩, ⟨Xc.sbase d, Xc.slimit d, false⟩, ⟨Xc.rbase d, Xc.rlimit d, true⟩]
  | _ => if func = 0 then [⟨Snd.saddr d, Snd.saddr d + Snd.len d, false⟩] else []

/-- The word ranges an engine itself writes, which may not touch the code region (R69). -/
def engWrites (eng d vl : Nat) : List (Nat × Nat) :=
  match eng with
  | 0 => mxWrites d
  | 1 => vxWrites d vl
  | 2 => stWrites d
  | _ => []

/-- Landing numbers an AFTER field may name: from the flight number − 3 to the flight number (R171, R176). -/
def waitable (flight a : Nat) : Bool := decide (diff32 a flight ≤ 0) && decide (-4 < diff32 a flight)

/-- Whether the exchange engine refuses a descriptor at issue (R176). -/
def xcRefused (flight d : Nat) : Bool :=
  decide (4096 < Xc.nent d) || decide (padWords < Xc.list d + Xc.nent d) ||
  decide (Xc.slimit d < Xc.sbase d) || decide (padWords < Xc.slimit d) ||
  decide (Xc.rlimit d < Xc.rbase d) || decide (padWords < Xc.rlimit d) ||
  decide ((Xc.rlimit d - Xc.rbase d) * 4608 < Xc.expect d) ||
  (Xc.after d != 0 && !waitable flight (Xc.after d))

/-- A ring's size and place (R196). -/
def ringBad (base size : Nat) : Bool := decide (size < 64) || decide (65536 < size) || decide (padWords < base + size)

/-- Whether a share or peer context named by a channel is registered for a partition (R196). -/
def State.chanTarget (s : State) (p kind target : Nat) : Bool :=
  match kind with
  | 0 => true
  | 1 => (s.sharePeer p target).isSome
  | 2 => s.peerFor p target
  | _ => false

/-- Whether the fields of a spill-mode OPEN_IN break a condition of R211. -/
def State.spillFieldsBad (s : State) (n d : Nat) : Bool :=
  decide (1 < Oi.skind d) || Oi.cls d != 1 || decide (36 < (s.hallsOf ((s.partOf n).getD 8)).length) ||
  decide (padWords < Oi.retbuf d + 256) || s.touchesCode n (Oi.retbuf d) (Oi.retbuf d + 256) ||
  overlaps (Oi.retbuf d) (Oi.retbuf d + 256) (Oi.rbase d) (Oi.rbase d + Oi.rsize d) || (Oi.spsize d != 0 && Oi.spbase d % 64 != 0)

/-- Whether the message engine refuses a descriptor's fields at dispatch (R195–R197, R199, R211, Tables 7.1–7.4). -/
def State.msgRefused (s : State) (n c func d : Nat) : Bool :=
  let p := (s.partOf n).getD 8
  match func with
  | 0 => Snd.len d == 0 || decide (256 < Snd.len d) || decide (padWords < Snd.saddr d + Snd.len d)
  | 1 => c == 1 || ringBad (Oo.rbase d) (Oo.rsize d) || Oo.maxlen d == 0 || decide (256 < Oo.maxlen d) ||
      decide (Oo.rsize d < 2 * Oo.maxlen d) || decide (1 < Oo.cls d) || Oo.dkind d == 3 ||
      (Oo.dkind d == 0 && decide (s.tileCount p ≤ Oo.dtile d)) || !s.chanTarget p (Oo.dkind d) (Oo.target d) ||
      (Oo.reply d == 1 && Oo.rgrant d != 0)
  | 2 => c == 1 || ringBad (Oi.rbase d) (Oi.rsize d) || s.touchesCode n (Oi.rbase d) (Oi.rbase d + Oi.rsize d) ||
      Oi.hbase d == 0 || decide (255 < Oi.hbase d + Oi.hspanm1 d) || Oi.skind d == 3 || !s.chanTarget p (Oi.skind d) (Oi.source d) ||
      (Oi.mode d == 1 && s.spillFieldsBad n d)
  | 3 => c == 1
  | 4 => c == 1
  | _ => true

/-- Whether an engine refuses a descriptor (R79). -/
def State.engRefused (s : State) (n c eng func d vl : Nat) : Bool :=
  match eng with
  | 0 => mxRefused (s.tile n) (c == 1) d
  | 1 => vxRefused (c == 1) d vl || (c == 0 && vxChainRefused ((s.tile n).chain.filterMap (s.tile n).instr?) d vl)
  | 2 => stRefused d
  | 3 => xcRefused (s.tile n).flight d
  | _ => s.msgRefused n c func d

/-- Whether a descriptor rounds stochastically, so that its issue takes a sequence number (R44). -/
def usesSr (eng d : Nat) : Bool :=
  match eng with
  | 0 => Mx.rm d == 4 | 1 => Vx.rm d == 4 | 2 => St.rm d == 4 | _ => false

/-- The order class a message instruction joins (R199): a SEND takes the CLASS of the latest OPEN_OUT of its channel
dispatched before it; OPEN and CLOSE join class 1. -/
def State.msgClass (s : State) (n func d : Nat) : Nat :=
  if func ≠ 0 then 1
  else
    let j := Snd.outch d
    match (s.tile n).instrs.reverse.find? (fun i => i.eng == 4 && (i.func == 1 || i.func == 3) && !i.handler && fld i.desc 0 6 == j) with
    | some i => if i.func = 1 then Oo.cls i.desc else 1
    | none => if s.g F.CHO_CFG_OPEN n j = 1 then s.g F.CHO_CFG_CLASS n j else 1

/-- What an accepted instruction leaves behind (R44, R45, R79, R82): its seed and overflow policy, its registrations, its queue entry, and what its engine notes at issue. -/
def State.accept (s : State) (n c iaddr eng func d vl : Nat) : State :=
  let t := s.tile n
  let id := t.nextId
  let sb := sbRegister t.sb id (engRegions eng func d vl)
  let i : EngInstr := ⟨id, eng, c == 1, iaddr, t.flight, func, d, vl, (t.ctx c).srq, if eng = 4 then s.msgClass n func d else 0, .queued,
    0, false, 0, s.now, s.regs.rd R.TILE_SR_SEED n 0, s.g F.TILE_AMODE_OVF_NAN n == 1, []⟩
  let s := (s.upTile n (fun t => { t with nextId := id + 1, sb := sb, instrs := t.instrs ++ [i] })).hwm F.SEQ_SBOCC_HWM n 0 sb.length
  let s := if usesSr eng d then s.upCtx n c (fun x => { x with srq := (x.srq + 1) % 2 ^ 28 }) else s
  if eng = 0 ∧ Mx.init d ≠ 1 then
    s.upTile n (fun t => { t with accKind := Sparse.put 0 t.accKind (mxBank d (c == 1)) (mxKind d) })
  else if eng = 1 ∧ c = 0 then
    s.upTile n (fun t => { t with chain := if Vx.selD d ≠ 0 then t.chain ++ [id] else [] })
  else s

/-- A descriptor's words as one number. -/
def joinWords : List (Nat × Bool) → Nat
  | [] => 0
  | w :: rest => w.1 + 2 ^ 96 * joinWords rest

/-- The words of a descriptor at `a` without the effects of a read. -/
def Tile.peekDesc (t : Tile) (a k : Nat) : List (Nat × Bool) := (List.range k).map (fun i => t.peek (a + i))

/-- The descriptor address SB + DOFF (R79). -/
def descAddr (s : State) (n c w : Nat) : Nat := ((s.sreg n c (Ins.dsb w)).toNat + Ins.doff w) % 2 ^ 48

/-- An instruction that cannot dispatch (R80): with TRY it clears p[PD]; otherwise its context stalls at it. -/
def State.blocked (s : State) (n c pc w why : Nat) : State :=
  if Ins.tryBit w = 1 then s.setPred n c (Ins.dpd w) false
  else (s.setPc n c pc).setWait n c (.dispatch why w)

/-- The checks of a descriptor read that fault the tile (R79, R102, R138, R143): cause, engine code and word address. -/
def State.descFault (s : State) (n eng a k : Nat) : Option (Nat × Nat × Nat) :=
  if padWords ≤ a then some (3, 5, a)
  else if padWords < a + k then some (6, eng, 0)
  else if !s.rangeOn n a (a + k) then some (4, 5, a)
  else none

/-- The dispatch of engine instruction `w` issued at `pc` (R79, R80). Order: a free queue entry, a descriptor no writer
holds, scoreboard entries; then the faults of the descriptor's address, its poison, its refusal, and its regions. (DESIGN CHOICE, unsafe: log 174) -/
def State.dispatch (s : State) (n c w eng : Nat) : State :=
  let pc := ((s.ctx n c).pc + 2 ^ 17 - 1) % 2 ^ 17
  let a := descAddr s n c w
  let func := if eng = 4 then fld (Ins.aux w) 7 3 else 0
  let k := descWords eng func
  let t := s.tile n
  let vl := (t.ctx c).vl
  if !t.queueFree eng c then s.blocked n c pc w 0
  else if sbHazard t.sb a k false then s.blocked n c pc w 2
  else
    match s.descFault n eng a k with
    | some (cause, e, wa) => s.tileFault n c cause e pc wa
    | none =>
      let ws := t.peekDesc a k
      let d := joinWords ws
      if !ws.any (·.2) && decide (48 < (sbRegister t.sb t.nextId (engRegions eng func d vl)).length) then s.blocked n c pc w 1
      else
        let s := (s.readWords n 2 t.flight ((List.range k).map (a + ·))).1
        match ws.findIdx? (·.2) with
        | some i => s.tileFault n c 0x0A 5 pc (a + i)
        | none =>
          if s.engRefused n c eng func d vl then s.tileFault n c 6 eng pc 0
          else
            match (engRegions eng func d vl).find? (fun r => !s.rangeOn n r.base r.limit) with
            | some r => s.tileFault n c 4 eng pc r.base
            | none =>
              match (engWrites eng d vl).find? (fun r => s.touchesCode n r.1 r.2) with
              | some r => s.tileFault n c 5 eng pc r.1
              | none => (s.accept n c pc eng func d vl).setPred n c (Ins.dpd w) true

/-! ALC (R81, R147–R149). -/

/-- A close: the alcove shuts; the context waits while accepted accesses still write, and then opens `reopen` if given. -/
def State.alcCloseWait (s : State) (n c k : Nat) (reopen : Option Word) : State :=
  let s := s.alcShut n k
  if (s.tile n).alcBusy k then s.setWait n c (.alcClose k reopen)
  else match reopen with
    | some d => s.alcSet n k d.toNat
    | none => s

/-- The effect of an ALC open (R81, R148): a descriptor held by a writer blocks it; a refused open changes nothing. -/
def State.alcOpenIssue (s : State) (n c w : Nat) : State :=
  let pc := ((s.ctx n c).pc + 2 ^ 17 - 1) % 2 ^ 17
  let a := descAddr s n c w
  let k := fld (Ins.aux w) 6 4
  if sbHazard (s.tile n).sb a 1 false then s.blocked n c pc w 2
  else
    match s.descFault n 5 a 1 with
    | some (cause, e, wa) => s.tileFault n c cause e pc wa
    | none =>
      let r := s.readWord n a 2 (s.tile n).flight
      if r.2.2 then r.1.tileFault n c 0x0A 5 pc a
      else if r.1.alcRefused n r.2.1 then r.1.tileFault n c 6 5 pc 0
      else (r.1.setPred n c (Ins.dpd w) true).alcCloseWait n c k (some (BitVec.ofNat 96 r.2.1))

/-- The effect of an ALC close (R81, R149). -/
def State.alcCloseIssue (s : State) (n c w : Nat) : State :=
  (s.setPred n c (Ins.dpd w) true).alcCloseWait n c (fld (Ins.aux w) 6 4) none

/-! The dispatch rows. -/

/-- MX (R79, R103). -/
def execMx (n c : Nat) (s : State) : Res := onTile n c (s.issuePlain n c .mx (fun s w => s.dispatch n c w 0))
/-- VX (R79, R113). -/
def execVx (n c : Nat) (s : State) : Res := onTile n c (s.issuePlain n c .vx (fun s w => s.dispatch n c w 1))
/-- ST (R79, R132). -/
def execSt (n c : Nat) (s : State) : Res := onTile n c (s.issuePlain n c .st (fun s w => s.dispatch n c w 2))
/-- ALC open (R81, R148). -/
def execAlcOpen (n c : Nat) (s : State) : Res := onTile n c (s.issuePlain n c .alcOpen (fun s w => s.alcOpenIssue n c w))
/-- ALC close (R81, R149). -/
def execAlcClose (n c : Nat) (s : State) : Res := onTile n c (s.issuePlain n c .alcClose (fun s w => s.alcCloseIssue n c w))

/-- ALCOVE_CLOSE_RETIRE (R149): every access accepted into the alcove has written its last word. -/
def execAlcoveCloseRetire (n c : Nat) (s : State) : Res :=
  onTile n c (
    match (s.ctx n c).wait with
    | .alcClose k reopen =>
      if s.alive n && !(s.tile n).alcBusy k then
        let s := s.setWait n c .run
        match reopen with
        | some d => s.alcSet n k d.toNat
        | none => s
      else s
    | _ => s)

end Sys2Proof.Machine
end

