-- ==== Sys2Proof/Machine/StreamEngine.lean ====
section
/-! DEFINITION. The stream engine's rows (spec 03, R87, R88; spec 04, R132–R134): the start of a descriptor, the arrival of
loaded word groups, and the acknowledgement of writes. Lines themselves are served in Lines.lean. -/

namespace Sys2Proof.Machine

/-- Stream instructions of a tile that have not completed, oldest first. -/
def Tile.streams (t : Tile) : List EngInstr := t.instrs.filter (fun i => i.eng == 2)

/-- Two lists of byte ranges overlap somewhere. -/
def bytesOverlap (a b : List (Nat × Nat)) : Bool := a.any (fun x => b.any (fun y => overlaps x.1 x.2 y.1 y.2))

/-- Whether the index list of a queued SHAPE 3 descriptor still waits for its writer (R83): its range is not known yet. -/
def Tile.stIndexPending (t : Tile) (j : EngInstr) : Bool :=
  j.stage == .queued && St.shape j.desc == 3 && !sbReady t.sb j.id [] [⟨St.idx j.desc, St.idx j.desc + ceilDiv (stN1 j.desc) 3, false⟩]

/-- Whether an older descriptor of the same byte space overlaps this one, or may, and either writes (R88). -/
def Tile.stBlocked (t : Tile) (i : EngInstr) : Bool :=
  t.streams.any (fun j => decide (j.id < i.id) && (St.tgt j.desc == St.tgt i.desc) && (St.dir j.desc == 1 || St.dir i.desc == 1) &&
    (t.stIndexPending j || bytesOverlap (if j.stage == .queued then t.stByteRange j.desc else j.range) (t.stByteRange i.desc))) ||
  t.lineOut.any (fun l => decide (l.id < i.id) && bytesOverlap [(l.addr, l.addr + 64)] (t.stByteRange i.desc))

/-- Whether line a of load `i` is on its way, or waits to be converted. -/
def State.stAsked (s : State) (n : Nat) (i : EngInstr) (a : Nat) : Bool :=
  (s.tile n).lineResp.any (fun r => r.id == i.id && r.addr == a) || s.waits.contains ⟨n, i.id, a⟩

/-- The chunks of load `i` that the window holds (R87): those of which a line has been asked for that the chunk before does not need. -/
def State.stOpen (s : State) (n : Nat) (i : EngInstr) : List Nat :=
  let t := s.tile n
  (List.range (max 1 (64 / stChunk i.desc))).filter (fun k => decide (i.next + k < stChunks i.desc) &&
    (t.stLines i.desc (i.next + k)).any (fun a => s.stAsked n i a && (k == 0 || !(t.stLines i.desc (i.next + k - 1)).contains a)))

/-- Word groups outstanding for the tile (R87): those of the chunks being read, and three lines a group of the writes not yet
acknowledged, with `more` lines to come. (DESIGN CHOICE, unsafe: log 176) -/
def State.stOutstanding (s : State) (n more : Nat) : Nat :=
  let t := s.tile n
  ((t.streams.filter (fun i => i.stage == .running && St.dir i.desc == 0)).map (fun i => (s.stOpen n i).length * stChunk i.desc)).sum +
    ceilDiv ((t.lineOut.filter (·.issued)).length + more) 3

/-- Whether load `i` of tile n may ask for line a now (R87): it has not, and the line belongs to a chunk that the window holds or
has room for. -/
def State.stMayRead (s : State) (n : Nat) (i : EngInstr) (a : Nat) : Bool :=
  i.stage == .running && St.dir i.desc == 0 && !(s.tile n).lineResp.any (fun r => r.id == i.id && r.addr == a) &&
  (s.waits.contains ⟨n, i.id, a⟩ ||
    (List.range (max 1 (64 / stChunk i.desc))).any (fun k => decide (i.next + k < stChunks i.desc) && ((s.tile n).stLines i.desc (i.next + k)).contains a &&
      ((s.stOpen n i).contains k || decide (s.stOutstanding n 0 + stChunk i.desc ≤ 64))))

/-- Whether the window takes a further line write (R87). -/
def State.stMayWrite (s : State) (n : Nat) : Bool := decide (s.stOutstanding n 1 ≤ 64)

/-- Count the cycles with 64 word groups outstanding (ENG.ST_WINDOW, R135), after whatever may have changed the window. -/
def State.stWindow (s : State) (n : Nat) : State :=
  match (s.tile n).winSince, decide (64 ≤ s.stOutstanding n 0) with
  | none, true => s.upTile n (fun t => { t with winSince := some s.now })
  | some t0, false => (s.inc F.ENG_ST_WINDOW_COUNT n 0 (s.cyclesSince (n / 64) t0)).upTile n (fun t => { t with winSince := none })
  | _, _ => s

/-- ST_START (R83, R88, R132): the queued stream descriptor `id` starts. A store reads and converts its source now and hands
its line writes to the stairwell. -/
def execStStart (n id : Nat) (s : State) : Res :=
  onTile n 0 (
    match (s.tile n).instr? id with
    | some i =>
      let t := s.tile n
      if i.eng = 2 ∧ i.stage = .queued ∧ (s.partOf n).isSome ∧ sbReady t.sb id [] (stRegions i.desc) ∧ !t.stBlocked i then
        let s := ((s.readWords n 0 i.flight (t.stReadList i.desc)).1).upInstr n id (fun i => { i with stage := .running, since := s.now, range := t.stByteRange i.desc })
        if St.dir i.desc = 0 then s
        else
          let r := (s.tile n).stStoreAll (s.roundCtx n i (St.rm i.desc)) id i.desc
          let s := (s.clearReads n id).upTile n (fun t => { t with lineOut := t.lineOut ++ r.1 })
          let s := ((s.raiseAll n i.flight i.iaddr 2 r.2.1).inc F.TILE_QCRUSH_COUNT n 0 r.2.2.1).inc F.ENG_ST_WG_COUNT n 0 r.2.2.2
          if r.1.isEmpty then s.complete n id else s
      else s
    | none => s)

/-- ST_WORD_GROUP_ARRIVAL (R87, R133, R134): every line of the next word groups of load `id` has arrived; they are converted and
written. The last ones complete the instruction. -/
def execStWordGroupArrival (n id : Nat) (s : State) : Res :=
  onTile n 0 (
    match (s.tile n).instr? id with
    | some i =>
      let t := s.tile n
      let d := i.desc
      if i.eng = 2 ∧ i.stage = .running ∧ St.dir d = 0 ∧ (t.stLines d i.next).all (fun a => t.lineResp.any (fun r => r.id == id && r.addr == a)) then
        let o := t.stLoadChunk (s.roundCtx n i (St.rm d)) id d i.next
        let keep := t.stLines d (i.next + 1)
        let s := o.words.foldl (fun s w => s.applyWrite n i.flight w) s
        let s := if o.words.any (·.poison) then s.pendFault n i.flight else s
        let s := (s.raiseAll n i.flight i.iaddr 2 o.events).inc F.TILE_QCRUSH_COUNT n 0 o.crushed
        let s := s.inc F.ENG_ST_WG_COUNT n 0 (if (t.stIndex d (i.next / stChunksPerRun d)).isNone then 0 else stChunk d)
        let s := s.upTile n (fun t => { t with lineResp := t.lineResp.filter (fun r => r.id != id || (decide (i.next + 1 < stChunks d) && keep.contains r.addr)) })
        (if i.next + 1 < stChunks d then s.upInstr n id (fun i => { i with next := i.next + 1, since := s.now }) else s.complete n id).stWindow n
      else s
    | none => s)

/-- A line written by a tile and acknowledged joins the queue of its partition's host-output region when it lies there (R344). -/
def State.outputLine (s : State) (n a : Nat) : State :=
  match s.partOf n with
  | some p => { s with hostOut := Sparse.modify s.hostOut p (fun o => if o.obase ≤ a ∧ a < o.obase + o.olen then { o with queue := o.queue ++ [a] } else o) }
  | none => s
/-- ST_WRITE_ACK (R87, R90, R344): the stairwell or slice acknowledges the oldest issued line write of the tile. -/
def execStWriteAck (n : Nat) (s : State) : Res :=
  onTile n 0 (
    match (s.tile n).lineOut.find? (fun l => l.issued && l.peer.isNone && !l.held) with
    | some l => ((s.upTile n (fun t => { t with lineOut := t.lineOut.eraseP (fun l => l.issued && l.peer.isNone && !l.held) })).outputLine n l.addr).stWindow n
    | none => s)

end Sys2Proof.Machine
end

