-- ==== Sys2Proof/Machine/Peer.lean ====
section
/-! DEFINITION. The sending half of the Stairway Transport (spec 12_ethernet_ports.md, R325–R332): the header, the integrity
check, link choice, and the queueing and sending of a peer context's packets. -/

namespace Sys2Proof.Machine

/-! The integrity check (R332). -/

/-- One byte into the reflected CRC-32C register. -/
def crcBits : Nat → Nat → Nat
  | 0, c => c
  | k + 1, c => crcBits k (if c % 2 = 1 then c / 2 ^^^ 0x82F63B78 else c / 2)
def crcByte (c b : Nat) : Nat := crcBits 8 (c ^^^ b)
/-- CRC-32C of a byte list (R332). -/
def crc32c (l : List Nat) : Nat := l.foldl crcByte 0xFFFFFFFF ^^^ 0xFFFFFFFF

/-- A number as `k` bytes, most significant first. -/
def beBytes (k x : Nat) : List Nat := (List.range k).map (fun i => x / 2 ^ (8 * (k - 1 - i)) % 256)
/-- A number as `k` bytes, byte 0 lowest, as byte space holds it (R6). -/
def leBytes (k x : Nat) : List Nat := (List.range k).map (fun i => x / 2 ^ (8 * i) % 256)
/-- Bytes as a number, byte 0 lowest. -/
def leVal (l : List Nat) : Nat := l.foldr (fun b a => b + 256 * a) 0
/-- The k bytes at offset o as a number, byte 0 lowest. -/
def parAt (b : List Nat) (o k : Nat) : Nat := leVal ((b.drop o).take k)

/-! The header (Table 12.5). -/

def swtHeader (typ cls : Nat) (enc : Bool) (keyid : Nat) (retx : Bool) (plen dctx sctx seq aux addr pmask : Nat) : List Nat :=
  [16 + typ, cls * 64 + (if enc then 32 else 0) + keyid * 16 + (if retx then 8 else 0)] ++ beBytes 2 plen ++ beBytes 2 dctx ++ beBytes 2 sctx ++
  beBytes 4 (seq % 2 ^ 32) ++ beBytes 4 aux ++ beBytes 8 addr ++ beBytes 8 pmask

/-- The GCM initialisation vector (R332): SALT, the space code (4 for ACK), the 61 low bits of the extended sequence number. -/
def gcmIv (salt space seq : Nat) : Nat := salt * 2 ^ 64 + space * 2 ^ 61 + seq % 2 ^ 61

/-! Links (R331). -/

/-- Whether sub-port index 2p + s is up. -/
def State.linkUp (s : State) (x : Nat) : Bool := s.g F.LINK_STATUS_UP (x / 2) (x % 2) == 1
/-- The context's link list: its up sub-ports, ascending. -/
def State.peerLinks (s : State) (c : PeerCtx) : List Nat := (List.range 64).filter (fun x => c.spray / 2 ^ x % 2 == 1 && s.linkUp x)
/-- Each link as often as its line rate in units of 400 Gb/s. -/
def State.weighted (s : State) (l : List Nat) : List Nat := l.flatMap (fun x => if s.g F.PORT_CFG_MODE (x / 2) = 1 then [x, x] else [x])
/-- The link a packet takes: pinned for classes 0 and 1, round-robin by line rate for classes 2 and 3. -/
def State.pickLink (s : State) (ctx cls : Nat) (c : PeerCtx) : Option Nat :=
  let l := s.peerLinks c
  if cls < 2 then l[ctx % max l.length 1]? else let w := s.weighted l; w[c.rr % max w.length 1]?


/-! Sending. -/

/-- The outer headers of a packet (R312, R315, R326): acknowledgements use the values of class 0; every packet is sent ECT(0). -/
def State.ipHead (s : State) (ctx link : Nat) (c : PeerCtx) (p : SwtPkt) : IpHead :=
  let q := s.qos (link / 2) (if p.typ = 11 then 0 else p.cls)
  ⟨Config.ipAddr (link / 2) (link % 2) (if c.raddr / 2 ^ 32 = 0xFFFF then 0 else 1), c.raddr, c.rport, 0xC000 ||| (if p.cls < 2 then ctx else p.seq % 2 ^ 14), q.1, 2, q.2⟩

def State.peer? (s : State) (ctx : Nat) : Option PeerCtx := Sparse.find? s.peers ctx
def State.upPeer (s : State) (ctx : Nat) (f : PeerCtx → PeerCtx) : State := { s with peers := Sparse.modify s.peers ctx f }

/-- The key and salt a slot holds for a direction. -/
def PeerCtx.txKey (c : PeerCtx) (k : Nat) : Option (Nat × Nat) := (Sparse.find? c.keys k).bind (·.tx)
def PeerCtx.rxKey (c : PeerCtx) (k : Nat) : Option (Nat × Nat) := (Sparse.find? c.keys k).bind (·.rx)
/-- Whether the context may send with a key slot: an encrypted one needs its key. (DEDUCED, unsafe: log 90) -/
def PeerCtx.canSend (c : PeerCtx) (k : Nat) : Bool := !c.enc || (c.txKey k).isSome

/-- Put one packet on a link: encrypt it if the context does, check it, and count it. -/
def State.swtEmit (s : State) (ctx link : Nat) (retx : Bool) (c : PeerCtx) (p : SwtPkt) : State :=
  let h := swtHeader p.typ p.cls c.enc p.keyid retx p.plen c.rctx ctx p.seq p.aux p.addr p.pmask
  let k := (c.txKey p.keyid).getD (0, 0)
  let ct := if c.enc then Config.gcmSeal k.1 (gcmIv k.2 (if p.typ = 11 then 4 else p.cls) p.seq) h p.plen p.payload else (p.payload, 0)
  let crc := crc32c (h ++ leBytes p.plen ct.1 ++ (if c.enc then beBytes 16 ct.2 else []))
  let s := (s.emit (.swt link (s.ipHead ctx link c p) h p.plen ct.1 (if c.enc then some ct.2 else none) crc)).inc F.PT_TX_PKTS (link / 2) 0 1
  let s := s.inc F.LINK_TX_FRAMES_COUNT (link / 2) (link % 2) 1
  let s := if retx then s.inc F.PT_RETX_PKTS (link / 2) 0 1 else s
  s.upPeer ctx (fun c => { c with lastTx := s.now, rr := c.rr + (if 2 ≤ p.cls then 1 else 0) })

/-- Packets of a space sent and not acknowledged. -/
def PeerCtx.inFlight (c : PeerCtx) (cls : Nat) : Nat := (c.unacked.filter (fun p => p.cls == cls && p.sent)).length
/-- Packets a space may have in flight (R329, R333). -/
def PeerCtx.window (c : PeerCtx) (cls : Nat) : Nat := if cls < 2 then 4096 else min 4096 (Sparse.get 256 c.cwnd cls)

/-- Whether a packet still to be sent may go now: its space's window is open, and the link it would take is not pausing its
priority and the context has a key for it; with no link at all it is taken up as well, so that the silence starts to count (R315, R329,
R331, R332). -/
def State.peerReady (s : State) (ctx : Nat) (c : PeerCtx) (p : SwtPkt) : Bool :=
  !p.sent && decide (c.inFlight p.cls < c.window p.cls) &&
    (match s.pickLink ctx p.cls c with | some l => !s.pausedAt l p.cls && c.canSend p.keyid | none => true)

/-- Send the waiting packets that the windows, the pauses and the links allow, oldest first (R315, R329, R331). `fuel` bounds the sends. -/
def State.peerPump (ctx : Nat) : Nat → State → State
  | 0, s => s
  | k + 1, s =>
    match s.peer? ctx with
    | some c =>
      match c.unacked.find? (s.peerReady ctx c) with
      | some p =>
        match s.pickLink ctx p.cls c with
        | some l =>
          let s := s.swtEmit ctx l false c p
          (s.upPeer ctx (fun c => { c with unacked := c.unacked.map (fun q =>
            if q.cls = p.cls ∧ q.seq = p.seq then { q with sent := true, sentAt := s.now, link := l } else q) })).peerPump ctx k
        | none => s.upPeer ctx (fun c => { c with emptyAt := some (c.emptyAt.getD s.now) })
      | none => s
    | none => s

/-- Queue a sequenced packet on an UP context and send what may be sent: its sequence number, 0 when the context is down
(R327, R328). -/
def State.peerSend (s : State) (ctx typ cls aux addr pmask plen payload : Nat) (pend : Nat → Option PeerPend) : State :=
  match s.peer? ctx with
  | some c =>
    if c.up then
      let q := Sparse.get 0 c.txSeq cls
      let p : SwtPkt := ⟨cls, q, typ, aux, addr, pmask, plen, payload, c.keyid, s.now, false, 0, 0, false, 0⟩
      let tx := Sparse.put 0 c.txSeq cls (q + 1)
      let s := s.upPeer ctx (fun c => { c with txSeq := tx, unacked := c.unacked ++ [p], pend := c.pend ++ (pend q).toList })
      s.peerPump ctx (c.unacked.length + 1)
    else s
  | none => s

/-- The sequence number the next packet of a space will take. -/
def State.peerNext (s : State) (ctx cls : Nat) : Nat := match s.peer? ctx with | some c => Sparse.get 0 c.txSeq cls | none => 0

/-- Whether a context is registered and UP. -/
def State.peerUp (s : State) (ctx : Nat) : Bool := ((s.peer? ctx).map (·.up)).getD false

end Sys2Proof.Machine
end

