-- ==== Sys2Proof/Machine/Mesh.lean ====
section
/-! DEFINITION. The mesh and the banister (spec 01_organisation.md, R21–R24): routes, packets in flight, partition tags, and
banister events. -/

namespace Sys2Proof.Machine

/-! Routes (R14, R21, R22, Table 6.6). -/

def hallRow (h : Nat) : Nat := h / 12
def hallCol (h : Nat) : Nat := h % 12
/-- The corridors of each grid row (R21). -/
def corridors : List (Nat × Nat) := [(0, 5), (3, 8), (6, 11)]

/-- The next column of a row leg from c toward ct (R22). -/
def nextCol (corr : Bool) (c ct : Nat) : Nat :=
  if c < ct then
    match corridors.find? (fun p => corr && p.1 == c && decide (p.2 ≤ ct)) with
    | some p => p.2
    | none => c + 1
  else
    match corridors.find? (fun p => corr && p.2 == c && decide (ct ≤ p.1)) with
    | some p => p.1
    | none => c - 1
/-- The next row of a column leg. -/
def nextRow (r rt : Nat) : Nat := if r < rt then r + 1 else r - 1

/-- The next hall on a route (R22): hints 0 and 2 take the row leg first, 1 and 3 the column leg; 2 and 3 use no corridor. -/
def nextHop (route h ht : Nat) : Nat :=
  let corr := decide (route < 2)
  let col := (hallRow h) * 12 + nextCol corr (hallCol h) (hallCol ht)
  let row := nextRow (hallRow h) (hallRow ht) * 12 + hallCol h
  if route % 2 = 0 then (if hallCol h = hallCol ht then row else col)
  else (if hallRow h = hallRow ht then col else row)

/-- Hops of the route without a hint from h to ht; 16 hops reach any hall. -/
def routeHops : Nat → Nat → Nat → Nat
  | 0, _, _ => 0
  | k + 1, h, ht => if h = ht then 0 else 1 + routeHops k (nextHop 0 h ht) ht

/-- The hall on a router's link: 0 row − 1, 1 row + 1, 2 column − 1, 3 column + 1, 4 its corridor (R21, R179). -/
def linkHall (h k : Nat) : Option Nat :=
  match k with
  | 0 => if hallRow h = 0 then none else some (h - 12)
  | 1 => if hallRow h = 5 then none else some (h + 12)
  | 2 => if hallCol h = 0 then none else some (h - 1)
  | 3 => if hallCol h = 11 then none else some (h + 1)
  | _ => (corridors.find? (fun p => p.1 == hallCol h || p.2 == hallCol h)).map (fun p =>
      hallRow h * 12 + (if p.1 = hallCol h then p.2 else p.1))

/-! Packets in flight. -/

/-- Put a packet on the mesh at hall `src` for hall `dst`. -/
def State.sendPkt (s : State) (tag src dst route cls : Nat) (body : Body) : State :=
  { s with net := s.net ++ [⟨s.nextPkt, tag, src, dst, route, src, cls, false, none, body⟩], nextPkt := s.nextPkt + 1 }

/-- A packet that a router hands to its own hall, past its tag check. -/
def State.handPkt (s : State) (tag src hall cls : Nat) (body : Body) : State :=
  { s with net := s.net ++ [⟨s.nextPkt, tag, src, hall, 0, hall, cls, true, none, body⟩], nextPkt := s.nextPkt + 1 }

def State.dropPkt (s : State) (id : Nat) : State := { s with net := s.net.filter (fun p => p.id != id) }
def State.upPkt (s : State) (id : Nat) (f : Packet → Packet) : State := { s with net := s.net.map (fun p => if p.id = id then f p else p) }

/-- Whether packet p is the first of its flow at its place: packets of one source and one destination on one route and class keep
their order (R22). -/
def State.firstOfFlow (s : State) (p : Packet) : Bool :=
  s.net.all (fun q => !(decide (q.id < p.id) && q.srcHall == p.srcHall && q.dstHall == p.dstHall && q.route == p.route &&
    q.cls == p.cls && q.here == p.here && q.arrived == p.arrived))

/-- The tile a packet's body is for, in device numbers; none for a multicast still on its tree. -/
def Body.tile? : Body → Option Nat
  | .exch _ _ _ dst _ _ => some dst
  | .mcast .. => none
  | .red _ _ _ dst .. => some dst
  | .redOut dst .. => some dst
  | .msg dst .. => some dst
  | .coll dst .. => some dst

/-! Banister events (R24). -/

def State.sendBan (s : State) (src dst : Nat) (m : BanMsg) : State := { s with ban := s.ban ++ [⟨src, dst, m⟩] }

/-- The `idx`-th event in flight, when no earlier one has its source and destination (R24). -/
def State.banAt (s : State) (idx : Nat) : Option Ban :=
  match s.ban[idx]? with
  | some b => if (s.ban.take idx).any (fun q => q.src == b.src && q.dst == b.dst) then none else some b
  | none => none

def State.dropBan (s : State) (idx : Nat) : State := { s with ban := s.ban.eraseIdx idx }

/-- Banister sources that are not tiles. -/
def banRouter (h : Nat) : Nat := 5000 + h
def banController (h : Nat) : Nat := 6000 + h
def banPort : Nat := 7000
def banHub : Nat := 7100

/-! Reports of lost exchange (R184). -/

/-- EXCHANGE_LOST, at most once per partition per flight. -/
def State.exchangeLost (s : State) (src instr entry reason : Nat) : State :=
  match s.partOf src with
  | some p =>
    let fl := (((s.tile src).instr? instr).map (·.flight)).getD (s.tile src).flight
    if ((s.part? p).map (·.lost)).getD [] |>.contains fl then s
    else (s.event (some p) 0x8109 [(s.localTile src, 2), (entry, 2), (reason, 1), (fl, 4)]).upPart p (fun x => { x with lost := fl :: x.lost })
  | none => s

/-- The acknowledgement of a message or WRAP marker for tile n (R151, R205, R207, R327): on the banister to the sending tile, or by DACK to
the peer. -/
def State.msgReply (s : State) (from_ n : Nat) (hdr : MsgHdr) (src reason : Nat) : State :=
  if hdr.xdev then s.peerSend hdr.peer 4 hdr.cls reason ((src - 20000) % 2 ^ 32 + hdr.cls * 2 ^ 32) 0 0 0 (fun _ => none)
  else s.sendBan from_ src (.msgAck hdr.soutch (if hdr.wrap then 256 + hdr.seq else hdr.seq) reason (s.localTile n) (s.g F.CHI_STATE_RBASE n hdr.inch + hdr.off))

/-- A notice of bucket b has its answer (R255). -/
def State.noticeDone (s : State) (p b : Nat) : State :=
  { s with coll := Sparse.modify s.coll p (fun c => { c with runs := c.runs.map (fun r => if r.bucket = b then { r with notices := r.notices - 1 } else r) }) }

/-- A router drops a packet by its tag (R23): counted, and answered to the sender's status record with reason 7. A notice so refused
is answered as R151 and R255 have it. -/
def State.tagDrop (s : State) (p : Packet) : State :=
  let h := p.dstHall
  let s := (((s.dropPkt p.id).inc F.HALL_XPART_DROP_COUNT h 0 1).w F.HALL_XPART_DROP_LAST_TAG h 0 p.tag).w F.HALL_XPART_DROP_LAST_SRC h 0 p.srcHall
  match p.body with
  | .exch src i e dst a _ => (s.sendBan (banRouter h) src (.exAck i e 7 (s.localTile dst) a none)).exchangeLost src i e 7
  | .mcast src i e _ a _ _ => (s.sendBan (banRouter h) src (.exAck i e 7 0 a none)).exchangeLost src i e 7
  | .red src i e dst a .. => (s.sendBan (banRouter h) src (.exAck i e 7 (s.localTile dst) a none)).exchangeLost src i e 7
  | .msg dst hdr src _ => s.msgReply (banRouter h) dst hdr src 7
  | .coll _ q b _ _ _ => if p.cls = 3 then s.partFault q else s.noticeDone q b
  | .redOut .. => s

/-- The tile a packet is for, with the words [a, l) of it that the packet's access covers: a message's lie in the ring of its inbound channel, and
none are known while that channel is closed. (DESIGN CHOICE, unsafe: log 182) -/
def State.destRange (s : State) (b : Body) : Option (Nat × Option (Nat × Nat)) :=
  match b with
  | .exch _ _ _ dst a w | .red _ _ _ dst a _ _ _ w | .redOut dst a w _ | .coll dst _ _ a _ w => some (dst, some (a, a + w.length))
  | .msg dst h _ _ =>
    let a := s.g F.CHI_STATE_RBASE dst h.inch + h.off
    some (dst, if s.g F.CHI_CFG_OPEN dst h.inch = 1 then some (a, a + h.len) else none)
  | .mcast .. => none

/-- Whether a router delivers a packet into its hall (R23): its tag matches the hall's owner, or its destination lies in an
open alcove of a share agreed with the sending partition. -/
def State.tagOk (s : State) (p : Packet) : Bool :=
  s.ownerOf p.dstHall == some p.tag ||
  (match s.destRange p.body, s.ownerOf p.dstHall with
   | some (t, r), some o => (List.range 16).any (fun k => s.alcIsOpen t k && Alc.scope (s.alcDesc t k) == 2 &&
       s.sharePeer o (Alc.group (s.alcDesc t k)) == some p.tag &&
       r.all (fun x => decide (Alc.base (s.alcDesc t k) ≤ x.1) && decide (x.2 ≤ Alc.limit (s.alcDesc t k))))
   | _, _ => false)

end Sys2Proof.Machine
end

