-- ==== Sys2Proof/Machine/Exchange.lean ====
section
/-! DEFINITION. Compiled exchange (spec 06_flights_landings_exchange.md, R176–R184): the exchange engine, multicast and
in-network reduction by the routers, deliveries, and acknowledgements; and the movement of mesh packets (R22, R23). -/

namespace Sys2Proof.Machine

/-! The exchange instruction's two sides (R180, R183). -/

/-- An exchange instruction completes when its receive side is complete and every entry has been sent and acknowledged. -/
def State.xcFinish (s : State) (n id : Nat) : State :=
  match (s.tile n).instr? id with
  | some i => if i.eng == 3 && i.recvDone && i.stage == .sent && !(s.tile n).xcUnack.any (fun u => u.id == id) then s.complete n id else s
  | none => s

/-- The receive sides that XC.RECV now satisfies, oldest first (R180): each subtracts its EXPECT and clears its write. -/
def State.xcRecv (n : Nat) : List EngInstr → State → State
  | [], s => s
  | i :: rest, s =>
    if i.recvDone then s.xcRecv n rest
    else
      let e := Xc.expect i.desc
      let r := s.g F.XC_RECV_WORDS n
      if e ≤ r then
        ((((s.w F.XC_RECV_WORDS n 0 (r - e)).clearWrites n i.id).upInstr n i.id (fun i => { i with recvDone := true })).xcFinish n i.id).xcRecv n rest
      else s

/-- The exchange instructions of a tile, oldest first. -/
def Tile.exchanges (t : Tile) : List EngInstr := t.instrs.filter (fun i => i.eng == 3)

def State.xcRecvCheck (s : State) (n : Nat) : State := s.xcRecv n (s.tile n).exchanges

/-- XC (R79, R176): its receive side runs from issue (R177). -/
def execXc (n c : Nat) (s : State) : Res :=
  onTile n c (s.issuePlain n c .xc (fun s w => (s.dispatch n c w 3).xcRecvCheck n))

/-- The landing an exchange instruction's sends wait for (R177). -/
def xcAfter (i : EngInstr) : Nat := if Xc.after i.desc = 0 then i.flight else Xc.after i.desc

/-- Whether a landing of the tile's partition has completed; the launch counts as landing 0. -/
def State.landed (s : State) (n l : Nat) : Bool :=
  match s.partOf n with
  | some p => decide (diff32 l (s.g F.LAND_NUM_DONE p) ≤ 0)
  | none => false

/-- The end of an instruction's sends: its source reads clear (R84, R180). -/
def State.xcSent (s : State) (n id : Nat) : State :=
  ((s.clearReads n id).upInstr n id (fun i => { i with stage := .sent })).xcFinish n id

/-- Whether landing l completed with FAULT: the partition stopped at it, so no later one has completed (R172). -/
def State.landFaulted (s : State) (n l : Nat) : Bool :=
  match s.partOf n with
  | some p => (s.tile n).stopped && decide (0 ≤ diff32 l (s.g F.LAND_NUM_DONE p))
  | none => false

/-- XC_START (R172, R177): the head starts when no older one is still sending, its dependencies have cleared, and the landing it names has
completed, but not with FAULT. -/
def execXcStart (n : Nat) (s : State) : Res :=
  onTile n 0 (
    match (s.tile n).exchanges.find? (fun i => i.stage == .queued) with
    | some i =>
      if (s.partOf n).isSome && !s.landFaulted n (xcAfter i) && (s.tile n).exchanges.all (fun j => !(j.stage == .running)) &&
          sbReady (s.tile n).sb i.id [] (engRegions 3 0 i.desc 0) && s.landed n (xcAfter i) then
        let s := s.upInstr n i.id (fun i => { i with stage := .running, since := s.now })
        if Xc.nent i.desc = 0 then s.xcSent n i.id else s
      else s
    | none => s)

/-- Whether an entry is refused when it is read (R178). -/
def State.xeRefused (s : State) (n d e : Nat) : Bool :=
  Xe.len e == 0 || decide (1024 < Xe.len e) || decide (Xe.saddr e < Xc.sbase d) || decide (Xc.slimit d < Xe.saddr e + Xe.len e) ||
  (Xe.mc e == 0 && decide (s.tileCount ((s.partOf n).getD 8) ≤ Xe.dest e)) || (Xe.mc e == 1 && decide (4096 ≤ Xe.dest e)) ||
  (Xe.mc e == 1 && Xe.rop e != 0) || (Xe.rop e != 0 && decide (64 ≤ Xe.cidx e))

/-- A refusal with reason 6 by the router of hall h (R179, R181, R184). -/
def State.refuse6 (s : State) (h rid src instr entry : Nat) : State :=
  (((s.inc F.HALL_RED_REFUSED_COUNT h 0 1).w F.HALL_RED_REFUSED_LAST_RID h 0 rid).sendBan (banRouter h) src (.exAck instr entry 6 0 0 none)).exchangeLost
    src instr entry 6

/-- Send entry e of instruction i (R178, R179, R181): its packet leaves for its tile, its group's root hall or its
reduction's router. -/
def State.xcSend (s : State) (n : Nat) (i : EngInstr) (e : Nat) (words : List (Nat × Bool)) : State :=
  let p := (s.partOf n).getD 8
  let h := n / 64
  if Xe.mc e = 1 then
    match Sparse.find? (s.hall h).groups (Xe.dest e) with
    | some g => s.sendPkt p h ((s.hallsOf p)[g.rootHall]?.getD h) (Xe.route e) 1 (.mcast n i.id i.next (Xe.dest e) (Xe.daddr e) false words)
    | none => s.refuse6 h (Xe.dest e) n i.id i.next
  else
    let dst := s.devTile p (Xe.dest e)
    s.sendPkt p h (dst / 64) (Xe.route e) 1
      (if Xe.rop e = 0 then .exch n i.id i.next dst (Xe.daddr e) words
       else .red n i.id i.next dst (Xe.daddr e) (Xe.rid e) (Xe.cidx e) (Xe.rop e) words)

/-- XC_ENTRY_SEND (R178, R183): the next entry of the sending instruction is read, checked and sent, while fewer than 64 entries
are unacknowledged. A refused entry faults the tile. -/
def execXcEntrySend (n : Nat) (s : State) : Res :=
  onTile n 0 (
    match (s.tile n).exchanges.find? (fun i => i.stage == .running) with
    | some i =>
      if 64 ≤ (s.tile n).xcUnack.length ∨ (s.partOf n).isNone then s
      else
        let r := s.readWord n (Xc.list i.desc + i.next) 0 i.flight
        let e := r.2.1
        if r.2.2 || r.1.xeRefused n i.desc e then
          (r.1.upInstr n i.id (fun i => { i with stage := .draining })).tileFault n 0 6 3 i.iaddr 0
        else
          let q := r.1.readWords n 0 i.flight ((List.range (Xe.len e)).map (Xe.saddr e + ·))
          let u : XcUnack := ⟨i.id, i.next, if Xe.mc e = 1 then none else some 1, 0⟩
          let s := (q.1.inc F.XC_SENT_WORDS n 0 (Xe.len e)).upTile n (fun t => { t with xcUnack := t.xcUnack ++ [u] })
          let s := (s.xcSend n i e q.2).upInstr n i.id (fun i => { i with next := i.next + 1 })
          if i.next + 1 = Xc.nent i.desc then s.xcSent n i.id else s
    | none => s)

/-! Multicast (R179). -/

/-- A router replicates a multicast packet along its tree and into its hall (R179); each copy beyond the first is counted
in units of 8 words (HALL.MC_REPL). -/
def State.replicate (s : State) (tag src hall cls : Nat) (g : GroupEntry) (mk : Nat → Body) (tree : Body) (len : Nat) : State :=
  let links := (List.range 5).filterMap (fun k => if g.fwd / 2 ^ k % 2 = 1 then linkHall hall k else none)
  let copies := links.length + (if g.deliver = 0 then 0 else 1)
  let s := s.inc F.HALL_MC_REPL_COUNT hall 0 ((copies - 1) * ceilDiv len 8)
  let s := links.foldl (fun s h => s.sendPkt tag hall h 0 cls tree) s
  ((List.range 64).filter (fun t => g.deliver.getLsbD t)).foldl (fun s t => s.handPkt tag src hall cls (mk (hall * 64 + t))) s

/-- What a router of the tree does with an arrived multicast packet. (DEDUCED, unsafe: log 39) -/
def State.mcastAt (s : State) (p : Packet) (src instr entry group daddr : Nat) (words : List (Nat × Bool)) : State :=
  match Sparse.find? (s.hall p.dstHall).groups group with
  | some g => (s.dropPkt p.id).replicate p.tag p.srcHall p.dstHall p.cls g (fun dst => .exch src instr entry dst daddr words)
      (.mcast src instr entry group daddr true words) words.length
  | none => s.dropPkt p.id

/-- MULTICAST_ROOT (R179, R183): packet `idx` reaches its root router, which tells the sender the destination count and
replicates it, or refuses it when the group has no valid root entry there. -/
def execMulticastRoot (idx : Nat) (s : State) : Res :=
  .next (
    match s.net[idx]? with
    | some p =>
      match p.body with
      | .mcast src instr entry group daddr false words =>
        if !(p.arrived && s.firstOfFlow p) then s
        else
          match Sparse.find? (s.hall p.dstHall).groups group with
          | some g =>
            if g.root then (s.sendBan (banRouter p.dstHall) src (.exCount instr entry g.dests)).mcastAt p src instr entry group daddr words
            else (s.dropPkt p.id).refuse6 p.dstHall group src instr entry
          | none => (s.dropPkt p.id).refuse6 p.dstHall group src instr entry
      | _ => s
    | none => s)

/-- MESH_PACKET (R22, R23): packet `idx` moves one hop of its route; at its destination router it is delivered into the hall or
dropped by its tag; a multicast on its tree is replicated there. -/
def execMeshPacket (idx : Nat) (s : State) : Res :=
  .next (
    match s.net[idx]? with
    | some p =>
      if p.arrived || !s.firstOfFlow p then s
      else if p.here != p.dstHall then s.upPkt p.id (fun p => { p with here := nextHop p.route p.here p.dstHall })
      else if !s.tagOk p then s.tagDrop p
      else
        match p.body with
        | .mcast src instr entry group daddr true words => s.mcastAt p src instr entry group daddr words
        | _ => s.upPkt p.id (fun p => { p with arrived := true })
    | none => s)

/-! Deliveries (R150, R151, R180). -/

/-- Whether a held message stops packet p at the delivery port: whatever of its class comes to the tile after it waits behind it (R206). -/
def State.portHeld (s : State) (p : Packet) (dst : Nat) : Bool :=
  s.net.any (fun q => q.held.isSome && q.cls == p.cls && q.id != p.id && q.body.tile? == some dst)

/-- Check, write and count one exchange access at tile dst; answers the reason, 0 when accepted (R12, R150, R180). -/
def State.exchAccess (s : State) (tag dst daddr : Nat) (words : List (Nat × Bool)) : State × Nat :=
  let k := words.length
  match s.alcoveCheck dst daddr k true 0 1 ⟨some tag, none, tag⟩ with
  | .ok _ => ((((s.deliver dst daddr words).inc F.XC_RECEIVED_WORDS dst 0 k).inc F.XC_RECV_WORDS dst 0 k).xcRecvCheck dst, 0)
  | .error (why, alc) => (((s.alcViolation dst daddr true 0 1 ⟨some tag, none, tag⟩ why alc).inc F.XC_RECV_WORDS dst 0 k).xcRecvCheck dst, why)

/-- EXCHANGE_DELIVERY (R180, R181, R183): packet `idx`, an exchange entry or a combined reduction, meets the alcove check of its tile. -/
def execExchangeDelivery (idx : Nat) (s : State) : Res :=
  .next (
    match s.net[idx]? with
    | some p =>
      match p.body with
      | .exch src instr entry dst daddr words =>
        if !(p.arrived && s.firstOfFlow p) || s.portHeld p dst then s
        else
          let r := (s.dropPkt p.id).exchAccess p.tag dst daddr words
          r.1.sendBan dst src (.exAck instr entry r.2 (s.localTile dst) daddr none)
      | .redOut dst daddr words from_ =>
        if !(p.arrived && s.firstOfFlow p) || s.portHeld p dst then s
        else
          let r := (s.dropPkt p.id).exchAccess p.tag dst daddr words
          if r.2 = 0 then r.1 else from_.foldl (fun s f => s.sendBan dst f.1 (.exAck f.2.1 f.2.2.1 r.2 (s.localTile dst) daddr (some f.2.2.2))) r.1
      | _ => s
    | none => s)

/-! In-network reduction (R181, Table 6.5). -/

/-- The order key of a binary32 code that is no NaN. -/
def f32Key (c : Nat) : Int := if c / 2 ^ 31 % 2 = 1 then -((c % 2 ^ 31 : Nat) : Int) - 1 else (c % 2 ^ 31 : Nat)
def f32Nan (c : Nat) : Bool := decide (0x7F800000 < c % 2 ^ 31)

/-- One router operation on a 32-bit element (Table 6.5). -/
def routerOp (rop a b : Nat) : Nat :=
  match rop with
  | 1 => routerAdd32 a b
  | 2 => (a + b) % 2 ^ 32
  | 3 => if f32Nan a || f32Nan b then 0x7FC00000 else if f32Key a < f32Key b then b else a
  | 4 => if f32Nan a || f32Nan b then 0x7FC00000 else if f32Key b < f32Key a then b else a
  | 5 => if sext a 32 < sext b 32 then b else a
  | 6 => if sext b 32 < sext a 32 then b else a
  | _ => a ||| b

/-- A router operation on words: three elements, or all 96 bits for OR; a poisoned word poisons the result (R22). -/
def routerWord (rop : Nat) (a b : Nat × Bool) : Nat × Bool :=
  if a.2 || b.2 then (0, true)
  else if rop = 7 then (a.1 ||| b.1, false)
  else (((List.range 3).map (fun k => routerOp rop (fld a.1 (32 * k) 32) (fld b.1 (32 * k) 32) * 2 ^ (32 * k))).sum, false)

/-- The combination of N contributions in ascending CIDX with the function tree of R124. -/
def routerCombine (rop : Nat) (l : List (List (Nat × Bool))) (len : Nat) : List (Nat × Bool) :=
  (List.range len).map (fun w => (treeFold (routerWord rop) 7 (l.map (fun x => x[w]?))).getD (0, false))

/-- Store words in a router's reduction buffer from word a (R181). -/
def Hall.bufStore (x : Hall) (a : Nat) (words : List (Nat × Bool)) : Hall :=
  { x with redBuf := words.zipIdx.foldl (fun m v => Sparse.put (0, false) m (a + v.2) v.1) x.redBuf }
/-- `len` words of a router's reduction buffer from word a. -/
def Hall.bufWords (x : Hall) (a len : Nat) : List (Nat × Bool) := (List.range len).map (fun w => Sparse.get (0, false) x.redBuf (a + w))

/-- REDUCTION_CONTRIBUTION (R181, R183): packet `idx` reaches the router of its destination tile and is stored, refused with reason 6,
or completes its reduction, which the router combines and delivers once. (DEDUCED, unsafe: log 38) -/
def execReductionContribution (idx : Nat) (s : State) : Res :=
  .next (
    match s.net[idx]? with
    | some p =>
      match p.body with
      | .red src instr entry dst daddr rid cidx rop words =>
        if !(p.arrived && s.firstOfFlow p) then s
        else
          let h := p.dstHall
          let s := s.dropPkt p.id
          match Sparse.find? (s.hall h).reds rid with
          | none => s.refuse6 h rid src instr entry
          | some d =>
            let pr := Sparse.get ⟨dst, daddr, rop, []⟩ (s.hall h).pending rid
            if words.length ≠ d.len ∨ d.n ≤ cidx ∨ pr.got.any (fun g => g.cidx == cidx) ∨ pr.tile ≠ dst ∨ pr.daddr ≠ daddr ∨ pr.rop ≠ rop then
              s.refuse6 h rid src instr entry
            else
              let fl := (((s.tile src).instr? instr).map (·.flight)).getD (s.tile src).flight
              let pr := { pr with got := pr.got ++ [⟨cidx, src, instr, entry, fl⟩] }
              let s := (s.sendBan (banRouter h) src (.exAck instr entry 0 0 daddr none)).upHall h (fun x => x.bufStore (d.buf + cidx * d.len) words)
              if pr.got.length < d.n then s.upHall h (fun x => { x with pending := Sparse.insert x.pending rid pr })
              else
                let l := (List.range d.n).map (fun c => (s.hall h).bufWords (d.buf + c * d.len) d.len)
                let s := (s.upHall h (fun x => { x with pending := Sparse.erase x.pending rid })).inc F.HALL_RED_DONE_COUNT h 0 1
                s.handPkt p.tag h h 1 (.redOut dst daddr (routerCombine rop l d.len) (pr.got.map (fun g => (g.src, g.instr, g.entry, g.flight))))
      | _ => s
    | none => s)

/-! Acknowledgements (R183, R184). -/

/-- An unacknowledged entry that has all it needs is dropped, and its instruction may complete. -/
def State.xcSettle (s : State) (n instr : Nat) : State :=
  (s.upTile n (fun t => { t with xcUnack := t.xcUnack.filter (fun u => u.need.all (fun k => decide (u.got < k))) })).xcFinish n instr

/-- XC_ACK (R183, R184): the acknowledgement or destination count that is event `idx` reaches the sending tile. -/
def execXcAck (idx : Nat) (s : State) : Res :=
  .next (
    match s.banAt idx with
    | some b =>
      match b.msg with
      | .exCount instr entry k =>
        ((s.dropBan idx).upTile b.dst (fun t => { t with xcUnack := t.xcUnack.map (fun u =>
          if u.id = instr ∧ u.entry = entry then { u with need := some k } else u) })).xcSettle b.dst instr
      | .exAck instr entry reason dtile _ late =>
        let n := b.dst
        let fl := late.getD ((((s.tile n).instr? instr).map (·.flight)).getD (s.tile n).flight)
        let s := s.dropBan idx
        let s := if reason = 0 then s else
          ((((s.inc F.XC_NACK_COUNT n 0 1).w F.XC_NACK_LAST_ENTRY n 0 entry).w F.XC_NACK_LAST_DTILE n 0 (if reason = 6 then 0 else dtile)).w
            F.XC_NACK_LAST_REASON n 0 reason).w F.XC_NACK_LAST_FLIGHT n 0 fl
        if late.isSome then s
        else
          let s := if reason = 6 ∨ reason = 7 then s.pendFault n (s.tile n).flight else s
          (s.upTile n (fun t => { t with xcUnack := t.xcUnack.map (fun u =>
            if u.id = instr ∧ u.entry = entry then
              { u with got := u.got + 1, need := if reason = 6 ∨ reason = 7 then some (u.got + 1) else u.need }
            else u) })).xcSettle n instr
      | _ => s
    | none => s)

end Sys2Proof.Machine
end

