-- ==== Sys2Proof/Machine/Pages.lean ====
section
/-! DEFINITION. The page map and its access check (spec 08_global_memory.md, R218–R220). -/

namespace Sys2Proof.Machine

/-! Fields of a page-map entry (Table 8.1). -/
namespace Pm
def valid (e : BitVec 64) : Nat := bitsAt e 0 1
def owner (e : BitVec 64) : Nat := bitsAt e 1 3
def rs (e : BitVec 64) : Nat := bitsAt e 4 1
def shadow (e : BitVec 64) : Nat := bitsAt e 5 1
def hold (e : BitVec 64) : Nat := bitsAt e 6 1
def retire (e : BitVec 64) : Nat := bitsAt e 7 1
def frame (e : BitVec 64) : Nat := bitsAt e 8 19
def copyf (e : BitVec 64) : Nat := bitsAt e 27 19
def copyv (e : BitVec 64) : Nat := bitsAt e 46 1
def wsc (e : BitVec 64) : Nat := bitsAt e 47 1
def setRs (e : BitVec 64) (x : Nat) : BitVec 64 := setBitsAt e 4 1 x
def setShadow (e : BitVec 64) (x : Nat) : BitVec 64 := setBitsAt e 5 1 x
def setHold (e : BitVec 64) (x : Nat) : BitVec 64 := setBitsAt e 6 1 x
def setRetire (e : BitVec 64) (x : Nat) : BitVec 64 := setBitsAt e 7 1 x
def setFrame (e : BitVec 64) (x : Nat) : BitVec 64 := setBitsAt e 8 19 x
def setCopyf (e : BitVec 64) (x : Nat) : BitVec 64 := setBitsAt e 27 19 x
def setCopyv (e : BitVec 64) (x : Nat) : BitVec 64 := setBitsAt e 46 1 x
def setWsc (e : BitVec 64) (x : Nat) : BitVec 64 := setBitsAt e 47 1 x
/-- A new entry: valid, owner, frame, read-shared. -/
def mk (owner frame rs : Nat) : BitVec 64 := BitVec.ofNat 64 (1 + owner % 8 * 2 + rs % 2 * 16 + frame % 2 ^ 19 * 256)
end Pm

/-- The page, the block and the line within the page of a byte address (R218). -/
def pageOf (a : Nat) : Nat := a / 2 ^ 23 % 2 ^ 19
def blockOf (a : Nat) : Nat := a / 2 ^ 16 % 2 ^ 26
def pageLine (a : Nat) : Nat := a / 64 % 131072

def State.page (s : State) (e : Nat) : BitVec 64 := Sparse.get 0 s.pageMap e
def State.setPage (s : State) (e : Nat) (v : BitVec 64) : State := { s with pageMap := Sparse.put 0 s.pageMap e v }

/-- The reason an access by partition p to page e is refused, 0 when it proceeds (R220, HALL.SW_FAULT.REASON). -/
def State.pageReason (s : State) (p e : Nat) (write : Bool) : Nat :=
  let v := s.page e
  if Pm.valid v = 0 then 1 else if Pm.owner v ≠ p then 2 else if write && Pm.rs v == 1 then 3 else 0

/-- Whether every page of the non-empty byte range [a, a + k) lies in the map and is owned by p, read-write when `rw`. -/
def State.pagesOwned (s : State) (p a k : Nat) (rw : Bool) : Bool :=
  decide (a + k ≤ 2 ^ 42) && (List.range ((a + k - 1) / 2 ^ 23 + 1 - a / 2 ^ 23)).all (fun i => s.pageReason p (a / 2 ^ 23 + i) rw == 0)

end Sys2Proof.Machine
end

