-- ==== Sys2Proof/Machine/Channels.lean ====
section
/-! DEFINITION. Message channels at the sending tile (spec 07_message_channels.md, R194–R204, R213): opening and closing, the
orders of the message engine, sending, and what returns to the sender. -/

namespace Sys2Proof.Machine

def OutCh.shut : OutCh := ⟨0, 0, 0, 0, [], [], none, none⟩
def InCh.shut : InCh := ⟨0, 0, [], 0, 0, 0, 0, none, false, [], []⟩
def State.outC (s : State) (n j : Nat) : OutCh := Sparse.get OutCh.shut (s.tile n).outCh j
def State.upOut (s : State) (n j : Nat) (f : OutCh → OutCh) : State := s.upTile n (fun t => { t with outCh := Sparse.upd OutCh.shut t.outCh j f })
def State.inC (s : State) (n k : Nat) : InCh := Sparse.get InCh.shut (s.tile n).inCh k
def State.upIn (s : State) (n k : Nat) (f : InCh → InCh) : State := s.upTile n (fun t => { t with inCh := Sparse.upd InCh.shut t.inCh k f })

/-- Hold a credit entry for a remote sender at the port stop (R202). -/
def State.holdCredit (s : State) (ctx tile ch words : Nat) (opening : Bool) : State :=
  s.upPeer ctx (fun c => { c with credits := c.credits ++ [(tile, ch, words, opening)] })

/-- The device tile at the other end of a channel of tile n (R194): kind 0 its own partition, 1 the share's other partition. -/
def State.chanTile (s : State) (n kind target lt : Nat) : Option Nat :=
  let p := (s.partOf n).getD 8
  match (if kind = 0 then some p else if kind = 1 then s.sharePeer p target else none) with
  | some q => if lt < s.tileCount q then some (s.devTile q lt) else none
  | none => none

/-- Give words back to a message's sender as its header names it, where no inbound channel is joined to it (R198, R202). -/
def State.toHeader (s : State) (n : Nat) (h : MsgHdr) (src words : Nat) : State :=
  if h.xdev then s.holdCredit h.peer h.stile h.soutch words false else s.sendBan n src (.credit h.soutch words)

/-- Give words or an opening grant to the sender of inbound channel k of tile n (R197, R202). -/
def State.toSender (s : State) (n k words : Nat) (opening : Bool) : State :=
  let kind := s.g F.CHI_CFG_SKIND n k
  let src := s.g F.CHI_CFG_SOURCE n k
  let lt := s.g F.CHI_CFG_STILE n k
  let ch := s.g F.CHI_CFG_SOUTCH n k
  if kind = 2 then s.holdCredit src lt ch words opening
  else match s.chanTile n kind src lt with
    | some m => s.sendBan n m (if opening then .opening ch words else .credit ch words)
    | none => s

/-! Opening (R196, R197). -/

/-- The state checks of OPEN_OUT. -/
def State.openOutBad (s : State) (n d : Nat) : Bool :=
  s.g F.CHO_CFG_OPEN n (Oo.outch d) == 1 ||
  (Oo.rgrant d != 0 && !(s.g F.CHI_CFG_OPEN n (Oo.pair d) == 1 && s.g F.CHI_CFG_REPLYIN n (Oo.pair d) == 1))

/-- An accepted OPEN_OUT: WP 0; CRED stays. The channel is joined to its tile now (R194). -/
def State.openOut (s : State) (n d : Nat) : State :=
  let j := Oo.outch d
  let s := s.wreg R.CHO_CFG n j (setFields 0 [(F.CHO_CFG_OPEN, 1), (F.CHO_CFG_DKIND, Oo.dkind d), (F.CHO_CFG_DTILE, Oo.dtile d),
    (F.CHO_CFG_TARGET, Oo.target d), (F.CHO_CFG_CLASS, Oo.cls d), (F.CHO_CFG_REPLY, Oo.reply d), (F.CHO_CFG_MAXLEN, Oo.maxlen d),
    (F.CHO_CFG_RSIZE, Oo.rsize d), (F.CHO_CFG_INCH, Oo.inch d)])
  let s := ((s.w F.CHO_STATE_WP n j 0).w F.CHO_STATE_RBASE n j (Oo.rbase d)).w F.CHO_STATE_BROKEN n j 0
  s.upOut n j (fun c => { c with pair := Oo.pair d, rgrant := Oo.rgrant d, seq := 0, stall := none, dest := s.chanTile n (Oo.dkind d) (Oo.target d) (Oo.dtile d) })

/-- The conditions of spill mode that hold of the tile's state and not of the descriptor's fields (R195, R211). (DEDUCED, unsafe: log 185) -/
def State.spillBad (s : State) (n d : Nat) : Bool :=
  !s.rangeOn n (Oi.retbuf d) (Oi.retbuf d + 256) || (Oi.spsize d != 0 && !s.pagesOwned ((s.partOf n).getD 8) (Oi.spbase d) (192 * Oi.spsize d) true)

/-- The state checks of OPEN_IN. -/
def State.openInBad (s : State) (n d : Nat) : Bool :=
  s.g F.CHI_CFG_OPEN n (Oi.inch d) == 1 ||
  !(List.range 16).any (fun k =>
    let a := s.alcDesc n k
    s.alcIsOpen n k && decide (Alc.base a ≤ Oi.rbase d) && decide (Oi.rbase d + Oi.rsize d ≤ Alc.limit a) && Alc.wr a == 1 &&
    Alc.kind a / 2 % 2 == 1 && Alc.cls a / 2 ^ Oi.cls d % 2 == 1) ||
  (Oi.mode d == 1 && s.spillBad n d)

/-- An accepted OPEN_IN: the ring is empty, and the sender gets its opening grant or the reply space is set. -/
def State.openIn (s : State) (n d : Nat) : State :=
  let k := Oi.inch d
  let s := s.wreg R.CHI_CFG n k (setFields 0 [(F.CHI_CFG_OPEN, 1), (F.CHI_CFG_SKIND, Oi.skind d), (F.CHI_CFG_STILE, Oi.stile d),
    (F.CHI_CFG_SOURCE, Oi.source d), (F.CHI_CFG_SOUTCH, Oi.soutch d), (F.CHI_CFG_HBASE, Oi.hbase d), (F.CHI_CFG_HSPANM1, Oi.hspanm1 d),
    (F.CHI_CFG_MODE, Oi.mode d), (F.CHI_CFG_REPLYIN, Oi.replyin d), (F.CHI_CFG_CLASS, Oi.cls d), (F.CHI_CFG_RPLCH, Oi.rplch d)])
  let s := s.wreg R.CHI_STATE n k (setFields 0 [(F.CHI_STATE_RBASE, Oi.rbase d), (F.CHI_STATE_RSIZE, Oi.rsize d)])
  let s := s.upIn n k (fun c => { c with rspace := if Oi.replyin d = 1 then Oi.rsize d else 0, padnext := 0, msgs := [], spbase := Oi.spbase d, spsize := Oi.spsize d,
                                         retbuf := Oi.retbuf d, spmark := Oi.spmark d, inRet := none, closing := false })
  if Oi.replyin d = 1 then s else s.toSender n k (Oi.rsize d) true

/-! The orders (R199). -/

/-- The entries of an order, oldest first: context and class. (DEDUCED, unsafe: log 33) -/
def Tile.order (t : Tile) (h : Bool) (cls : Nat) : List EngInstr := t.instrs.filter (fun i => i.eng == 4 && i.inQueue && i.handler == h && i.cls == cls)

/-- A refusal at the head of an order: the tile faults and the entry leaves (R195, R199). -/
def State.msgFail (s : State) (n : Nat) (i : EngInstr) (cause : Nat) : State :=
  (s.complete n i.id).tileFault n (if i.handler then 1 else 0) cause 4 i.iaddr 0

/-- What the head OPEN or CLOSE of the main context's class-1 order does (R196–R198); a close that must wait stays, marked running. -/
def State.chanHead (s : State) (n : Nat) (i : EngInstr) : State :=
  let d := i.desc
  let ch := fld d 0 6
  match i.func with
  | 1 => if s.openOutBad n d then s.msgFail n i 6 else (s.openOut n d).complete n i.id
  | 2 => if s.openInBad n d then s.msgFail n i 6 else (s.openIn n d).complete n i.id
  | 3 => if s.g F.CHO_CFG_OPEN n ch = 0 then s.complete n i.id
    else s.upInstr n i.id (fun i => { i with stage := .running, since := s.now })
  | _ =>
    if (List.range 64).any (fun j => s.g F.CHO_CFG_OPEN n j == 1 && (s.outC n j).rgrant != 0 && (s.outC n j).pair == ch) then s.msgFail n i 6
    else if s.g F.CHI_CFG_OPEN n ch = 0 then s.complete n i.id
    else (s.upIn n ch (fun c => { c with closing := true })).upInstr n i.id (fun i => { i with stage := .running, since := s.now })

/-- Let the heads of the main context's class-1 order that are OPEN or CLOSE take effect, once every earlier class-0 entry has
left the queue (R199). `fuel` bounds the entries. -/
def State.msgSettle (n : Nat) : Nat → State → State
  | 0, s => s
  | k + 1, s =>
    match (s.tile n).order false 1 with
    | i :: _ =>
      if i.func = 0 ∨ i.stage = .running ∨ ((s.tile n).order false 0).any (fun j => decide (j.id < i.id)) then s
      else (s.chanHead n i).msgSettle n k
    | [] => s

/-- The words a SEND of `len` words skips in its ring (R200). -/
def State.sendPad (s : State) (n j len : Nat) : Nat :=
  let wp := s.g F.CHO_STATE_WP n j
  let rs := s.g F.CHO_CFG_RSIZE n j
  if rs < wp + len then rs - wp else 0

/-- The cause with which a SEND is refused at the head of its order, if any (R95, R199, R213). -/
def State.sendCause (s : State) (n : Nat) (i : EngInstr) : Option Nat :=
  let j := Snd.outch i.desc
  let len := Snd.len i.desc
  let reply := s.g F.CHO_CFG_REPLY n j == 1
  if s.g F.CHO_CFG_OPEN n j = 0 ∨ s.g F.CHO_STATE_BROKEN n j = 1 ∨ s.g F.CHO_CFG_MAXLEN n j < len ∨ (!i.handler ∧ reply) then some 6
  else if i.handler ∧ (!reply ∨ s.g F.CHO_STATE_CRED n j < len + s.sendPad n j len) then some 0x0C
  else none

/-- A handler's SEND that has come to the head of its order is judged at that moment (R213), once: `next` 1 says that it was let through. -/
def State.handHead (s : State) (n cls : Nat) : State :=
  match (s.tile n).order true cls with
  | i :: _ =>
    if i.func ≠ 0 ∨ i.next ≠ 0 then s
    else match s.sendCause n i with
      | some cause => s.msgFail n i cause
      | none => s.upInstr n i.id (fun i => { i with next := 1 })
  | [] => s

/-- What happens of itself at the heads of the orders: the main context's OPEN and CLOSE take effect, the handler's SENDs are judged. -/
def State.msgServe (s : State) (n : Nat) : State := ((s.msgSettle n ((s.tile n).instrs.length + 1)).handHead n 0).handHead n 1

/-! The MSG rows (R79, R195). -/

def State.msgIssue (s : State) (n c w : Nat) : State := (s.dispatch n c w 4).msgServe n

/-- SEND, and the reserved MSG functions, which are refused (R195, R199). -/
def execSend (n c : Nat) (s : State) : Res := onTile n c (s.issuePlain n c .send (fun s w => s.msgIssue n c w))
/-- OPEN_OUT (R196). -/
def execOpenOut (n c : Nat) (s : State) : Res := onTile n c (s.issuePlain n c .openOut (fun s w => s.msgIssue n c w))
/-- OPEN_IN (R197). -/
def execOpenIn (n c : Nat) (s : State) : Res := onTile n c (s.issuePlain n c .openIn (fun s w => s.msgIssue n c w))
/-- CLOSE_OUT (R198). -/
def execCloseOut (n c : Nat) (s : State) : Res := onTile n c (s.issuePlain n c .closeOut (fun s w => s.msgIssue n c w))
/-- CLOSE_IN (R198). -/
def execCloseIn (n c : Nat) (s : State) : Res := onTile n c (s.issuePlain n c .closeIn (fun s w => s.msgIssue n c w))

/-- The CLOSE instruction of a kind that waits at the head of its order. -/
def Tile.closeWaiting (t : Tile) (func : Nat) : Option EngInstr := (t.order false 1).head?.filter (fun i => i.func == func && i.stage == .running)

/-- CLOSE_OUT_RETIRE (R198): every message acknowledged and OUTW 0: WP and CRED become 0 and the channel is closed. -/
def execCloseOutRetire (n : Nat) (s : State) : Res :=
  onTile n 0 (
    match (s.tile n).closeWaiting 3 with
    | some i =>
      let j := fld i.desc 0 6
      let c := s.outC n j
      if c.unacked.isEmpty ∧ c.outw = 0 then
        ((((s.w F.CHO_CFG_OPEN n j 0).w F.CHO_STATE_WP n j 0).w F.CHO_STATE_CRED n j 0).complete n i.id).msgServe n
      else s
    | none => s)

/-- Whether a message of channel k that passed its checks is held at tile n's port (R206). -/
def State.chanHeld (s : State) (n k : Nat) : Bool :=
  s.net.any (fun q => q.held.isSome && match q.body with | .msg m h _ _ => m == n && h.inch == k | _ => false)

/-- CLOSE_IN_RETIRE (R198): every accepted message released and every spill record freed; RSPACE is reset (R204). A pad whose message has
not come returns to the sender. (DESIGN CHOICE, unsafe: log 187) -/
def execCloseInRetire (n : Nat) (s : State) : Res :=
  onTile n 0 (
    match (s.tile n).closeWaiting 4 with
    | some i =>
      let k := fld i.desc 0 6
      if (s.inC n k).msgs.isEmpty ∧ !s.chanHeld n k ∧ !(s.tile n).spills.any (fun r => r.chan == k) then
        let pad := (s.inC n k).padnext
        let s := if pad = 0 ∨ s.g F.CHI_CFG_REPLYIN n k = 1 then s else s.toSender n k pad false
        (((s.upIn n k (fun c => { c with closing := false, rspace := 0, padnext := 0 })).w F.CHI_CFG_OPEN n k 0).complete n i.id).msgServe n
      else s
    | none => s)

/-! Sending (R199–R201). -/

/-- The words of a message as an SWT payload, 12 bytes each (R327). -/
def wordsVal (l : List (Nat × Bool)) : Nat := (l.zipIdx.map (fun p => p.1.1 * 2 ^ (96 * p.2))).sum

/-- Header word 0 (Table 7.5). -/
def MsgHdr.word0 (h : MsgHdr) : Nat :=
  h.stile + h.spart * 2 ^ 13 + h.soutch * 2 ^ 16 + h.inch * 2 ^ 22 + h.off * 2 ^ 28 + h.len * 2 ^ 44 + h.sub * 2 ^ 53 + h.cls * 2 ^ 57 +
  (if h.wrap then 2 ^ 59 else 0) + (if h.reply then 2 ^ 60 else 0) + h.seq * 2 ^ 61 + h.grant * 2 ^ 69 + h.pair * 2 ^ 78 + (if h.xdev then 2 ^ 84 else 0)

/-- Put a message or WRAP marker on its way: onto the mesh, or through the peer context's port stop. One whose channel found no tile when it opened
is answered with reason 7. Class-0 flits of 8 words pass the hall crossbar (HALL.XB_C0). (DESIGN CHOICE, unsafe: log 186) -/
def State.msgLaunch (s : State) (n j : Nat) (h : MsgHdr) (words : List (Nat × Bool)) : State :=
  let p := (s.partOf n).getD 8
  let kind := s.g F.CHO_CFG_DKIND n j
  let tgt := s.g F.CHO_CFG_TARGET n j
  if kind = 2 then
    let w := h.word0
    s.peerSend tgt 3 h.cls (w % 2 ^ 32) (w / 2 ^ 32 % 2 ^ 64) 0 (12 * h.len) (wordsVal words) (fun q => some (.msg h.cls q n j h.seq h.wrap))
  else match (s.outC n j).dest with
    | some m =>
      let s := if h.cls = 0 then s.inc F.HALL_XB_C0_COUNT (n / 64) 0 (ceilDiv h.len 8) else s
      let s := s.sendPkt p (n / 64) (m / 64) 0 h.cls (.msg m h n words)
      if h.wrap then s else s.sendBan n m (.bell h.inch h.seq n)
    | none => s.sendBan banHub n (.msgAck j (if h.wrap then 256 + h.seq else h.seq) 7 (s.g F.CHO_CFG_DTILE n j) 0)

/-- The marker word (R201). -/
def wrapWord (pad : Nat) : Nat := pad + 0x5752 * 2 ^ 80

/-- Send the message of entry i on channel j with `pad` words skipped (R200). -/
def State.msgSend (s : State) (n : Nat) (i : EngInstr) (j pad : Nat) : State :=
  let len := Snd.len i.desc
  let c := s.outC n j
  let reply := s.g F.CHO_CFG_REPLY n j == 1
  let s := match c.stall with
    | some t0 => (s.inc F.CHO_STALL_CYCLES n j (s.cyclesSince (n / 64) t0)).upOut n j (fun c => { c with stall := none })
    | none => s
  let r := s.readWords n 0 i.flight ((List.range len).map (Snd.saddr i.desc + ·))
  let s := (if c.rgrant = 0 then r.1 else r.1.upIn n c.pair (fun x => { x with rspace := x.rspace - c.rgrant })).clearReads n i.id
  let h0 : MsgHdr := ⟨s.localTile n, (s.partOf n).getD 0, j, s.g F.CHO_CFG_INCH n j, s.g F.CHO_STATE_WP n j, 1, Snd.sub i.desc, s.g F.CHO_CFG_CLASS n j,
    true, reply, c.seq, 0, c.pair, false, 0⟩
  let s := if pad = 0 then s else ((s.msgLaunch n j h0 [(wrapWord pad, false)]).inc F.CHO_STALL_WRAPS n j 1).w F.CHO_STATE_WP n j 0
  let wp := s.g F.CHO_STATE_WP n j
  let s := s.msgLaunch n j { h0 with off := wp, len := len, wrap := false, grant := c.rgrant } r.2
  let s := ((s.w F.CHO_STATE_CRED n j (s.g F.CHO_STATE_CRED n j - (len + pad))).w F.CHO_STATE_WP n j ((wp + len) % s.g F.CHO_CFG_RSIZE n j)).inc F.CHO_TRAFFIC_MSGS n j 1
  let s := (s.inc F.CHO_TRAFFIC_WORDS n j len).upOut n j (fun c => { c with
    seq := (c.seq + 1) % 256, outw := c.outw + (if reply then 0 else len + pad), unacked := c.unacked ++ [(c.seq, len, c.rgrant, i.id)]
    pads := if pad = 0 then c.pads else c.pads ++ [(c.seq, pad)] })
  (s.w F.CHO_STATE_UNACK n j (s.outC n j).unacked.length).upInstr n i.id (fun i => { i with stage := .sent, seq := c.seq })

/-- What the SEND at the head of an order does (R199, R200, R213). -/
def State.sendHead (s : State) (n : Nat) (i : EngInstr) : State :=
  let j := Snd.outch i.desc
  let len := Snd.len i.desc
  let t := s.tile n
  if !i.handler && (t.order false 1).any (fun x => decide (x.id < i.id) && (x.func == 1 || x.func == 3) && fld x.desc 0 6 == j) then s
  else
    match (if i.handler ∧ i.next ≠ 0 then none else s.sendCause n i) with
    | some cause => s.msgFail n i cause
    | none =>
      if 64 ≤ t.unackMsgs then s
      else if !sbReady t.sb i.id [] (engRegions 4 0 i.desc 0) then s
      else
        let pad := s.sendPad n j len
        let c := s.outC n j
        if len + pad ≤ s.g F.CHO_STATE_CRED n j ∧ (c.rgrant = 0 ∨ c.rgrant ≤ (s.inC n c.pair).rspace) then s.msgSend n i j pad
        else s.upOut n j (fun c => { c with stall := some (c.stall.getD s.now) })

/-- MESSAGE_SEND (R199–R201): the head of the order of context c and class `cls` is checked and sent. -/
def execMessageSend (n c cls : Nat) (s : State) : Res :=
  onTile n c (
    match (s.tile n).order (c == 1) cls with
    | i :: _ => if i.func = 0 ∧ (s.partOf n).isSome then (s.sendHead n i).msgServe n else s
    | [] => s)

/-! What returns to the sender. -/

/-- Words credited to an outbound channel: CRED rises and OUTW falls. -/
def State.creditIn (s : State) (n j words : Nat) : State :=
  (s.w F.CHO_STATE_CRED n j (s.g F.CHO_STATE_CRED n j + words)).upOut n j (fun c => { c with outw := c.outw - words })

/-- Words that the receiver never saw come back at once (R198); those of a REPLY channel are the requester's (R204). -/
def State.wordsBack (s : State) (n j words : Nat) : State := if s.g F.CHO_CFG_REPLY n j = 1 then s else s.creditIn n j words

/-- An acknowledgement of a message of channel j, or of the marker before it (R151, R199, R202, R204, Table 7.6): a refusal is recorded and gives back its
reply space; reason 7, where the receiver's ring never saw the words, gives them back and breaks the channel. (DEDUCED, unsafe: log 34) -/
def State.msgAcked (s : State) (n j seq reason : Nat) : State :=
  let s := if reason = 0 then s else
    ((s.inc F.HALL_MSG_NACK_COUNT (n / 64) (n % 64) 1).w F.HALL_MSG_NACK_REASON (n / 64) (n % 64) reason).w F.HALL_MSG_NACK_OUTCH (n / 64) (n % 64) j
  let s := if reason = 7 then s.w F.CHO_STATE_BROKEN n j 1 else s
  if 256 ≤ seq then
    match (s.outC n j).pads.find? (fun u => u.1 == seq - 256) with
    | some (_, pad) =>
      let s := s.upOut n j (fun c => { c with pads := c.pads.eraseP (fun u => u.1 == seq - 256) })
      if reason = 7 then s.wordsBack n j pad else s
    | none => s
  else
    match (s.outC n j).unacked.find? (fun u => u.1 == seq) with
    | some (_, words, grant, id) =>
      let pair := (s.outC n j).pair
      let s := s.upOut n j (fun c => { c with unacked := c.unacked.eraseP (fun u => u.1 == seq) })
      let s := if reason = 7 then s.wordsBack n j words else s
      let s := if reason ≠ 0 ∧ grant ≠ 0 then s.upIn n pair (fun x => { x with rspace := x.rspace + grant }) else s
      (s.w F.CHO_STATE_UNACK n j (s.outC n j).unacked.length).complete n id
    | none => s

/-- MESSAGE_ACK (R199): event `idx`. -/
def execMessageAck (idx : Nat) (s : State) : Res :=
  .next (
    match s.banAt idx with
    | some b => match b.msg with | .msgAck ch seq reason _ _ => (s.dropBan idx).msgAcked b.dst ch seq reason | _ => s
    | none => s)

/-- CREDIT_RETURN (R200, R202): event `idx` adds to CRED and lowers OUTW. -/
def execCreditReturn (idx : Nat) (s : State) : Res :=
  .next (
    match s.banAt idx with
    | some b => match b.msg with | .credit ch words => (s.dropBan idx).creditIn b.dst ch words | _ => s
    | none => s)

/-- OPENING_GRANT (R197, R200): event `idx` sets CRED to the ring size. -/
def execOpeningGrant (idx : Nat) (s : State) : Res :=
  .next (
    match s.banAt idx with
    | some b => match b.msg with | .opening ch words => (s.dropBan idx).w F.CHO_STATE_CRED b.dst ch words | _ => s
    | none => s)

end Sys2Proof.Machine
end

