-- ==== Sys2Proof/Machine/Messages.lean ====
section
/-! DEFINITION. Messages at the receiving tile (spec 07_message_channels.md, R201–R209): the arrival checks, queue-pool cells,
doorbells, dispatch lists, credit return, and the handler's entry and exit (spec 03, R97–R99). -/

namespace Sys2Proof.Machine

/-! Release and return (R202). -/

/-- Return the words of the messages at the front of the ring order that are released, and forget those that are done. `fuel` bounds them. -/
def State.ringReturn (n k : Nat) : Nat → State → State
  | 0, s => s
  | fuel + 1, s =>
    match (s.inC n k).msgs.find? (fun m => !m.returned) with
    | some m =>
      if !m.released then s
      else
        let words := m.hdr.len + m.pad
        let s := s.upIn n k (fun c => { c with msgs := (c.msgs.map (fun x => if x.pid = m.pid then { x with returned := true } else x)).filter (fun x => !(x.returned && x.done)) })
        let s := if s.g F.CHI_CFG_REPLYIN n k = 1 then s.upIn n k (fun c => { c with rspace := c.rspace + words }) else s.toSender n k words false
        let rs := s.g F.CHI_STATE_RSIZE n k
        (s.w F.CHI_STATE_RP n k ((m.hdr.off + m.hdr.len) % max rs 1)).ringReturn n k fuel
    | none => s

def State.ringServe (s : State) (n k : Nat) : State := s.ringReturn n k ((s.inC n k).msgs.length + 1)

/-- Change the message of channel k that packet `pid` brought. -/
def State.upMsg (s : State) (n k pid : Nat) (f : RingMsg → RingMsg) : State :=
  s.upIn n k (fun c => { c with msgs := c.msgs.map (fun m => if m.pid = pid then f m else m) })
/-- Drop the messages that are done and returned. -/
def State.sweepMsgs (s : State) (n k : Nat) : State := s.upIn n k (fun c => { c with msgs := c.msgs.filter (fun x => !(x.returned && x.done)) })

/-! The arrival checks (R205). -/

/-- Whether a header's source is the one that an open or closing inbound channel is joined to: its words have a place in the ring. -/
def State.joined (s : State) (n : Nat) (h : MsgHdr) : Bool :=
  let k := h.inch
  let own := (s.partOf n).getD 8
  s.g F.CHI_CFG_OPEN n k == 1 && s.g F.CHI_CFG_STILE n k == h.stile && s.g F.CHI_CFG_SOUTCH n k == h.soutch &&
  (match s.g F.CHI_CFG_SKIND n k with
   | 0 => !h.xdev && h.spart == own
   | 1 => !h.xdev && s.sharePeer own (s.g F.CHI_CFG_SOURCE n k) == some h.spart
   | 2 => h.xdev && h.peer == s.g F.CHI_CFG_SOURCE n k
   | _ => false)
/-- Whether a header's source matches an inbound channel that takes messages: open, and no CLOSE_IN has taken effect (R198, R205). -/
def State.srcMatch (s : State) (n : Nat) (h : MsgHdr) : Bool := s.joined n h && !(s.inC n h.inch).closing

/-- Whether a grant may be taken (R205, step 3): RPLCH is an open reply channel to the header's source tile and channel PAIR. -/
def State.grantOk (s : State) (n : Nat) (h : MsgHdr) : Bool :=
  let j := s.g F.CHI_CFG_RPLCH n h.inch
  h.grant == 0 ||
  (s.g F.CHO_CFG_OPEN n j == 1 && s.g F.CHO_CFG_REPLY n j == 1 && s.g F.CHO_CFG_DTILE n j == h.stile && s.g F.CHO_CFG_INCH n j == h.pair &&
   s.g F.CHO_CFG_DKIND n j == s.g F.CHI_CFG_SKIND n h.inch && (s.g F.CHO_CFG_DKIND n j == 0 || s.g F.CHO_CFG_TARGET n j == s.g F.CHI_CFG_SOURCE n h.inch))

/-- Where a message comes from, as an alcove sees it (R150). -/
def MsgHdr.from_ (h : MsgHdr) (tag : Nat) : Src := if h.xdev then ⟨none, some h.peer, tag⟩ else ⟨some tag, none, tag⟩

/-- The checks of R205 in order: the accepting alcove, or a reason of Table 7.6 with the alcove it names. -/
def State.msgCheck (s : State) (n : Nat) (h : MsgHdr) (tag : Nat) : Except (Nat × Nat) Nat :=
  let k := h.inch
  if !s.srcMatch n h || s.g F.CHI_CFG_CLASS n k != h.cls || (s.g F.CHI_CFG_REPLYIN n k == 1) != h.reply ||
      decide (s.g F.CHI_STATE_RSIZE n k < h.off + h.len) then .error (6, 0)
  else if !h.wrap && decide (s.g F.CHI_CFG_HSPANM1 n k < h.sub) then .error (8, 0)
  else if !s.grantOk n h then .error (6, 0)
  else s.alcoveCheck n (s.g F.CHI_STATE_RBASE n k + h.off) h.len true 1 h.cls (h.from_ tag)

/-- A refusal (R202, R205): nothing is written; it is counted, the tile contributes the fault bit, a doorbell to come is ignored, and the words are released: in
ring order where the sender is joined to this ring, else to the sender that the header names. (DEDUCED, unsafe: log 188) -/
def State.msgRefuse (s : State) (n : Nat) (h : MsgHdr) (pid src tag : Nat) (words : List (Nat × Bool)) (reason alc : Nat) : State :=
  let k := h.inch
  let s := if 1 ≤ reason ∧ reason ≤ 5 then s.alcViolation n (s.g F.CHI_STATE_RBASE n k + h.off) true 1 h.cls (h.from_ tag) reason alc
    else (if s.g F.CHI_CFG_OPEN n k = 1 then s.inc F.CHI_TRAFFIC_REFUSED n k 1 else s).pendFault n (s.tile n).flight
  let s :=
    if !s.joined n h then (if h.reply then s else s.toHeader n h src (if h.wrap then ((words.head?).map (fun w => w.1 % 2 ^ 17)).getD 0 else h.len))
    else if h.wrap then s.upIn n k (fun c => { c with padnext := s.g F.CHI_STATE_RSIZE n k - h.off })
    else
      (s.upIn n k (fun c => { c with
        msgs := c.msgs ++ [⟨h, src, c.padnext, 0, [], pid, true, true, false, 0, false, false, true, false, true⟩], padnext := 0 })).ringServe n k
  let s := if h.wrap then s
    else s.upIn n k (fun c => if c.bells.contains (src, h.seq) then { c with bells := c.bells.erase (src, h.seq) } else { c with dead := c.dead ++ [(src, h.seq)] })
  s.msgReply n n h src reason

/-! Queue-pool cells (R206, R209, Table 7.7). -/

/-- Whether cell c is allocated. -/
def Hall.cellBusy (x : Hall) (c : Nat) : Bool := (Sparse.get 0 x.cells (2 * c + 1)).getLsbD 17
/-- Shared cells that tile n's items occupy. -/
def State.sharedOf (s : State) (n : Nat) : Nat :=
  ((s.tile n).inCh.map (fun e => (e.2.msgs.filter (fun m => !m.done && !m.offered && decide (1024 ≤ m.cell))).length)).sum
/-- The cell a message of a class would take at tile n (R206). -/
def State.cellFor (s : State) (n cls : Nat) : Option Nat :=
  let x := s.hall (n / 64)
  let t := n % 64
  match (if cls = 0 then (List.range 16).find? (fun i => !x.cellBusy (16 * t + i)) else none) with
  | some i => some (16 * t + i)
  | none =>
    if s.g F.HALL_QCFG_LIMIT (n / 64) t ≤ s.sharedOf n then none
    else
      let busy := (x.cells.filter (fun e => e.1 % 2 == 1 && e.2.getLsbD 17)).map (·.1 / 2)
      let c := lowestFrom busy busy.length 1024
      if c < 65536 then some c else none

def State.setCell (s : State) (h c w v : Nat) : State :=
  s.upHall h (fun x => { x with cells := Sparse.put 0 x.cells (2 * c + w) (storeWord v) })
/-- Free a cell. -/
def State.freeCell (s : State) (h c : Nat) : State :=
  s.upHall h (fun x => { x with cells := Sparse.erase (Sparse.erase x.cells (2 * c)) (2 * c + 1) })

/-- Word 0 of a cell (Table 7.7). -/
def cellWord (ch off len hnum cls : Nat) (spilled ready : Bool) (spoff : Nat) : Nat :=
  ch + off * 2 ^ 6 + len * 2 ^ 22 + hnum * 2 ^ 31 + cls * 2 ^ 39 + (if spilled then 2 ^ 42 else 0) + (if ready then 2 ^ 43 else 0) + spoff * 2 ^ 44
/-- Word 1 of a cell. -/
def cellLink (next : Nat) (tail : Bool) (seq : Nat) : Nat := next % 2 ^ 16 + (if tail then 2 ^ 16 else 0) + 2 ^ 17 + seq * 2 ^ 18

/-! Acceptance and landing (R205–R208). -/

/-- Accept packet p, which has passed its checks: a message takes its cell, its place in the ring order and its grant; it waits for its last word. -/
def State.msgAccept (s : State) (p : Packet) (n : Nat) (h : MsgHdr) (src : Nat) (words : List (Nat × Bool)) (cell : Nat) : State :=
  let k := h.inch
  let c := s.inC n k
  let bell := c.bells.contains (src, h.seq)
  let m : RingMsg := ⟨h, src, c.padnext, cell, words, p.id, bell, false, false, 0, false, false, false, false, false⟩
  let s := (s.dropPkt p.id).upIn n k (fun c => { c with msgs := c.msgs ++ [m], padnext := 0, bells := c.bells.erase (src, h.seq) })
  let s := (if h.cls = 0 then s.inc F.HALL_XB_C0_COUNT (n / 64) 0 (ceilDiv h.len 8) else s).inc F.CHI_TRAFFIC_MSGS n k 1
  let s := s.inc F.CHI_TRAFFIC_WORDS n k h.len
  let j := s.g F.CHI_CFG_RPLCH n k
  let s := if h.grant = 0 then s else s.w F.CHO_STATE_CRED n j (s.g F.CHO_STATE_CRED n j + h.grant)
  (s.setCell (n / 64) cell 0 (cellWord k h.off h.len (s.g F.CHI_CFG_HBASE n k + h.sub) h.cls false false 0)).setCell (n / 64) cell 1 (cellLink 0 false h.seq)

/-- MESSAGE_ARRIVAL (R149, R205, R206): the first packet of message `idx` is checked, once; an accepted one counts as accepted into its alcove and takes a cell, or
is held for one. -/
def execMessageArrival (idx : Nat) (s : State) : Res :=
  .next (
    match s.net[idx]? with
    | some p =>
      match p.body with
      | .msg n h src words =>
        if h.wrap || p.held.isSome || !(p.arrived && s.firstOfFlow p) || s.portHeld p n then s
        else
          match s.msgCheck n h p.tag with
          | .error (why, alc) => (s.dropPkt p.id).msgRefuse n h p.id src p.tag words why alc
          | .ok alc =>
            let s := s.upTile n (fun t => { t with accepted := t.accepted ++ [(alc, p.id)] })
            match s.cellFor n h.cls with
            | some cell => s.msgAccept p n h src words cell
            | none => s.upPkt p.id (fun p => { p with held := some alc })
      | _ => s
    | none => s)

/-- HELD_DELIVERY_RESUME (R206): a cell has freed and held message `idx` proceeds. -/
def execHeldDeliveryResume (idx : Nat) (s : State) : Res :=
  .next (
    match s.net[idx]? with
    | some p =>
      match p.body with
      | .msg n h src words =>
        if p.held.isNone then s
        else
          match s.cellFor n h.cls with
          | some cell => s.msgAccept p n h src words cell
          | none => s
      | _ => s
    | none => s)

/-- WRAP_MARKER (R201, R202, R205): marker `idx` is checked and written; its pad goes with the next message of the ring. -/
def execWrapMarker (idx : Nat) (s : State) : Res :=
  .next (
    match s.net[idx]? with
    | some p =>
      match p.body with
      | .msg n h src words =>
        if !h.wrap || !(p.arrived && s.firstOfFlow p) || s.portHeld p n then s
        else
          match s.msgCheck n h p.tag with
          | .error (why, alc) => (s.dropPkt p.id).msgRefuse n h p.id src p.tag words why alc
          | .ok _ =>
            let s := (s.dropPkt p.id).deliver n (s.g F.CHI_STATE_RBASE n h.inch + h.off) words
            (s.upIn n h.inch (fun c => { c with padnext := s.g F.CHI_STATE_RSIZE n h.inch - h.off })).msgReply n n h src 0
      | _ => s
    | none => s)

/-- Discard both lists of a tile after an uncorrectable cell word (R209): their messages are never offered, spilled or released. -/
def State.qpoolUe (s : State) (n : Nat) : State :=
  let h := n / 64
  let t := n % 64
  let s := s.inc F.HALL_QPOOL_UE_COUNT h 0 1
  let s := if s.g F.HALL_QPOOL_UE_VALID h = 1 then s else (s.w F.HALL_QPOOL_UE_TILE h 0 t).w F.HALL_QPOOL_UE_VALID h 0 1
  let s := s.upHall h (fun x => { x with lists := Sparse.put ⟨[], [], false⟩ x.lists t ⟨[], [], true⟩ })
  let s := s.upTile n (fun t => { t with inCh := t.inCh.map (fun c => (c.1, { c.2 with
    msgs := c.2.msgs.map (fun m => if m.queued && !m.offered then { m with offered := true, done := true } else m) })) })
  match s.partOf n with
  | some p => (s.event (some p) 0x8301 [(2, 1), (s.localTile n, 2), (0, 1), (0, 4), ((s.tile n).flight, 4)]).partFault p
  | none => s

/-- Read one word of a cell (R209): corrected words are counted and written back. -/
def State.readCell (s : State) (h c w : Nat) : State × Option Nat :=
  match readStored (Sparse.get 0 (s.hall h).cells (2 * c + w)) with
  | .clean d => (s, some d)
  | .corrected d => (((s.inc F.HALL_QPOOL_CE_COUNT h 0 1).ceSram 1).setCell h c w d, some d)
  | _ => (s, none)
/-- Read one word of a cell of tile n's lists; an uncorrectable one discards them (R209). -/
def State.tileCell (s : State) (n c w : Nat) : State × Option Nat :=
  let r := s.readCell (n / 64) c w
  if r.2.isSome then r else (r.1.qpoolUe n, none)

/-- Append a cell to its tile's list, linking it behind the list's tail, whose word is read (R209). -/
def State.linkCell (s : State) (n cls cell seq : Nat) : State :=
  let h := n / 64
  let l := (s.hall h).listsOf (n % 64)
  let old := if cls = 0 then l.c0 else l.c1
  let r : State × Option (Option (Nat × Nat)) := match old.getLast? with
    | some c => let r := s.tileCell n c 1; (r.1, r.2.map (fun v => some (c, v)))
    | none => (s, some none)
  match r.2 with
  | none => r.1
  | some tail =>
    let s := match tail with | some (c, v) => r.1.setCell h c 1 (cellLink cell false (fld v 18 8)) | none => r.1
    let s := s.setCell h cell 1 (cellLink 0 true seq)
    let l' : Lists := if cls = 0 then { l with c0 := l.c0 ++ [cell] } else { l with c1 := l.c1 ++ [cell] }
    let s := s.upHall h (fun x => { x with lists := Sparse.put ⟨[], [], false⟩ x.lists (n % 64) l' })
    s.hwm F.HALL_QDEPTH_HWM h (n % 64) (l'.c0.length + l'.c1.length)

/-- An item whose doorbell and last word are both there joins its list (R207): it is acknowledged and signalled. -/
def State.joinItem (s : State) (n k : Nat) (m : RingMsg) : State :=
  let h := m.hdr
  let s := s.upMsg n k m.pid (fun m => { m with queued := true, joined := s.now })
  let s := (s.setCell (n / 64) m.cell 0 (cellWord k h.off h.len (s.g F.CHI_CFG_HBASE n k + h.sub) h.cls false true 0)).linkCell n h.cls m.cell h.seq
  (s.upTile n (fun t => { t with signals := t.signals + 1 })).msgReply n n h m.src 0
/-- Items of channel k join in the order in which their messages were sent (R194, R207). `fuel` bounds them. -/
def State.joinNext (n k : Nat) : Nat → State → State
  | 0, s => s
  | fuel + 1, s =>
    match (s.inC n k).msgs.find? (fun m => !m.queued && !m.done) with
    | some m => if m.doorbell && m.landed then (s.joinItem n k m).joinNext n k fuel else s
    | none => s
def State.joinServe (s : State) (n k : Nat) : State := s.joinNext n k ((s.inC n k).msgs.length + 1)

/-- MESSAGE_LAST_WORD (R207): the last word of the oldest message of channel k that is still landing is written into the ring. -/
def execMessageLastWord (n k : Nat) (s : State) : Res :=
  onTile n 0 (
    match (s.inC n k).msgs.find? (fun m => !m.landed) with
    | some m =>
      let s := s.deliver n (s.g F.CHI_STATE_RBASE n k + m.hdr.off) m.words
      let s := s.upTile n (fun t => { t with accepted := t.accepted.filter (fun x => x.2 != m.pid) })
      (s.upMsg n k m.pid (fun m => { m with landed := true, words := [] })).joinServe n k
    | none => s)

/-- DOORBELL (R207): doorbell `idx` reaches the receiving hall. (DEDUCED, unsafe: log 35) -/
def execDoorbell (idx : Nat) (s : State) : Res :=
  .next (
    match s.banAt idx with
    | some b =>
      match b.msg with
      | .bell k seq src =>
        let n := b.dst
        let s := s.dropBan idx
        let c := s.inC n k
        if c.dead.contains (src, seq) then s.upIn n k (fun c => { c with dead := c.dead.erase (src, seq) })
        else match c.msgs.find? (fun m => m.hdr.seq == seq && m.src == src && !m.doorbell) with
          | some m => (s.upMsg n k m.pid (fun m => { m with doorbell := true })).joinServe n k
          | none => s.upIn n k (fun c => { c with bells := c.bells ++ [(src, seq)] })
      | _ => s
    | none => s)

/-! The handler's entry and exit (R97–R99, R208, R209). -/

/-- The handler table's entry k as copied at launch (R97). -/
def Tile.handlerEntry (t : Tile) (k : Nat) : Nat := (Sparse.get 0 t.htab k).toNat

/-- Set up the handler of an item (R97, R98, R107), or fault with HTAB_INVALID. -/
def State.enterHandler (s : State) (n ch addr len hnum cls pid : Nat) : State :=
  let e := (s.tile n).handlerEntry hnum
  let entry := e % 2 ^ 17
  if e / 2 ^ 17 % 2 = 0 ∨ !inCode s n entry ∨ hnum = 0 then s.tileFault n 1 9 5 (s.ctx n 1).pc 0
  else
    s.upTile n (fun t => { t with
      hand := { t.hand with pc := entry, vl := 0, preds := 1, bank := [(24, BitVec.ofNat 48 ch), (25, BitVec.ofNat 48 addr), (26, BitVec.ofNat 48 len), (27, BitVec.ofNat 48 (hnum + cls * 256))].filter (fun e => e.2 != 0), wait := .run, since := s.now }
      budget := s.g F.SEQ_HBUDGET_LIMIT n, running := some ⟨ch, pid, hnum, cls⟩, accFree := s.fresh + 1
      accKind := Sparse.put 0 t.accKind 2 2, hEntries := t.hEntries ++ [(t.nextId, s.fresh + 1)] })

/-- Pop cell c, the head of a list of tile n, and enter its handler; bank H's contents are undefined (R98, R107). -/
def State.popItem (s : State) (n cls c : Nat) : State :=
  let h := n / 64
  let r0 := s.readCell h c 0
  let r1 := r0.1.readCell h c 1
  match r0.2, r1.2 with
  | some w, some _ =>
    let s := r1.1
    let k := Cell.ch w
    let m := (s.inC n k).msgs.find? (fun m => m.cell == c && m.queued && !m.offered)
    let joined := (m.map (·.joined)).getD s.now
    let pid := (m.map (·.pid)).getD 0
    let addr := if Cell.spilled w = 1 then (s.inC n k).retbuf else s.g F.CHI_STATE_RBASE n k + Cell.off w
    let s := s.upHall h (fun x =>
      let ls := x.listsOf (n % 64)
      { x with lists := Sparse.put ⟨[], [], false⟩ x.lists (n % 64) (if cls = 0 then { ls with c0 := ls.c0.drop 1 } else { ls with c1 := ls.c1.drop 1 }) })
    let s := ((s.freeCell h c).upMsg n k pid (fun m => { m with offered := true })).inc F.CHI_WAIT_DWAIT n k (s.cyclesSince h joined)
    let s := s.upTile n (fun t => { t with signals := t.signals - 1 })
    { s.enterHandler n k addr (Cell.len w) (Cell.hnum w) (Cell.cls w) pid with fresh := s.fresh + 1 }
  | _, _ => r1.1.qpoolUe n

/-- Whether the head of the class-1 list may be offered: a spilled item only once its record is in RETBUF (R208, R209, R211). -/
def State.offerable (s : State) (n c : Nat) : State × Bool :=
  let r := s.tileCell n c 0
  (r.1, match r.2 with
    | some w => Cell.spilled w == 0 ||
        (((s.inC n (Cell.ch w)).msgs.find? (fun m => m.cell == c && m.queued && !m.offered)).map (fun m => some m.pid == (s.inC n (Cell.ch w)).inRet)).getD false
    | none => false)

/-- HANDLER_ENTRY (R98, R208): the idle handler context pops the class-0 head, else the class-1 head; a pop of empty lists
in answer to a signal returns the idle item. -/
def execHandlerEntry (n : Nat) (s : State) : Res :=
  onTile n 0 (
    let l := (s.hall (n / 64)).listsOf (n % 64)
    if !s.alive n || (s.tile n).dbgStop || (s.ctx n 1).wait != .idle || l.dead then s
    else
      match l.c0, l.c1 with
      | c :: _, _ => s.popItem n 0 c
      | [], c :: _ => let r := s.offerable n c; if r.2 then r.1.popItem n 1 c else r.1
      | [], [] => s.upTile n (fun t => { t with signals := t.signals - 1 }))

/-- The end of a handler (R99, R202): its message is released, its spill record freed, and RETBUF is free again. -/
def State.handlerEnd (s : State) (n : Nat) : State :=
  match (s.tile n).running with
  | some r =>
    let s := s.upIn n r.chan (fun c => { c with
      msgs := c.msgs.map (fun m => if m.pid = r.pid then { m with released := true, done := true } else m)
      inRet := if c.inRet = some r.pid then none else c.inRet })
    let s := s.upTile n (fun t => { t with running := none, spills := t.spills.eraseP (fun x => x.chan == r.chan && x.pid == r.pid) })
    (s.ringServe n r.chan).sweepMsgs n r.chan
  | none => s

/-- HRET (R99, Table 3.11). -/
def execHret (n c : Nat) (s : State) : Res :=
  onTile n c (s.issuePlain n c .hret (fun s _ => ((s.handlerEnd n).setWait n 1 .idle).inc F.SEQ_HANDLED_COUNT n 0 1))

end Sys2Proof.Machine
end

