-- ==== Sys2Proof/Machine/Landing.lean ====
section
/-! DEFINITION. Landings (spec 06_flights_landings_exchange.md, R166–R175, R186–R193): arrival, completion on one device, over fabric
packets and over the SYNC pins, and the landing timeout. -/

namespace Sys2Proof.Machine

/-! Arrival (R167–R171). -/

/-- Whether every local tile has arrived at landing l or counts as arrived (R168). -/
def State.locallyArrived (s : State) (p l : Nat) : Bool :=
  ((s.part? p).map (·.launched)).getD false && (s.tilesOf p).all (fun n => s.tileOver n || decide (0 ≤ diff32 (s.tile n).flight l))

def Landing.fresh (l : Nat) : Landing := ⟨l, 0, none, none, false, [], 0, false, false, none, none⟩

/-- Change landing l of partition p, making its entry when there is none. -/
def State.upLanding (s : State) (p l : Nat) (f : Landing → Landing) : State :=
  s.upPart p (fun x => { x with landings := if x.landings.any (fun e => e.num == l) then x.landings.map (fun e => if e.num = l then f e else e) else x.landings ++ [f (Landing.fresh l)] })
def State.landing? (s : State) (p l : Nat) : Option Landing := ((s.part? p).map (·.landings)).bind (fun x => x.find? (fun e => e.num == l))

/-- Whether two notices with NONFIN are in order: step, then bucket, then the order of R259: a
record that did not arise in the engine first, then the lower element, then the lower rank (R261). -/
def NonFin.before (a b : NonFin) : Bool :=
  decide (diff32 a.step b.step < 0) || (a.step == b.step && (decide (a.bucket < b.bucket) ||
    (a.bucket == b.bucket && ((!a.arisen && b.arisen) || (a.arisen == b.arisen &&
      (decide (a.elem < b.elem) || (a.elem == b.elem && decide (a.rank < b.rank))))))))
/-- The lower-ordered of two records. -/
def nfMin (a b : Option NonFin) : Option NonFin :=
  match a, b with
  | none, y => y
  | x, none => x
  | some x, some y => if y.before x then some y else some x

/-- The anomaly kinds of a tile that belong to an arrival at flight `fl` (R57, R89): those of its flight, and those of earlier flights that
no arrival has taken. (DEDUCED, unsafe: log 181) -/
def anomalyAt (l : List (Nat × Nat)) (fl : Nat) : Nat := (l.filter (fun x => decide (diff32 x.1 fl ≤ 0))).foldl (fun a x => a ||| x.2) 0

/-- A tile signals its arrival at the landing that ends its flight, with its contributions (R57, R91, R168, R170). -/
def State.arrive (s : State) (n p : Nat) : State :=
  let t := s.tile n
  let fl := t.flight
  let l := add32 fl 1
  let a := anomalyAt t.pendA fl &&& (s.g F.TILE_AMASK_TMASK n + 32 * s.g F.TILE_AMASK_IMASK n)
  let f := t.pendF.any (fun x => decide (diff32 x fl ≤ 0))
  let bits := (if t.pendV.isSome then 1 else 0) + (if a = 0 then 0 else 2) + (if f then 4 else 0)
  let s := s.upTile n (fun t => { t with flight := l, pendA := t.pendA.filter (fun x => decide (0 < diff32 x.1 fl)), pendF := t.pendF.filter (fun x => decide (0 < diff32 x fl)), pendV := none })
  let s := s.upLanding p l (fun e => { e with bits := e.bits ||| bits, nf := nfMin e.nf t.pendV, first := some (e.first.getD s.now) })
  if 0 < diff32 l (s.g F.LAND_NUM_MAXARR p) then s.w F.LAND_NUM_MAXARR p 0 l else s

/-! What a member adds to its own bits when it reports a landing (R92, R168, R169). -/

/-- Faults of tiles that no longer arrive: faulted, or ended with a fault contribution still to make. -/
def State.overFault (s : State) (p : Nat) : Bool :=
  (s.tilesOf p).any (fun n => s.g F.SEQ_FAULT_A_VALID n == 1 || ((s.tile n).main.wait == .ended && !(s.tile n).pendF.isEmpty))

/-- A member's own LAND.VERDICT bits [15:0] of a landing, with the recorded faults (R169, R174, R261). -/
def State.ownBits (s : State) (p : Nat) (e : Landing) : Nat :=
  (e.bits ||| (if s.overFault p || ((s.part? p).map (·.fault)).getD false then 4 else 0)) +
  (match e.nf with | some x => (if x.arisen then 8 else 0) + x.rank % 2 ^ 12 * 16 | none => 0)

/-- The records that ownBits took are consumed (R169). (DEDUCED, unsafe: log 32) -/
def State.takeFaults (s : State) (p : Nat) : State :=
  ((s.tilesOf p).filter (fun n => (s.tile n).main.wait == .ended && !(s.tile n).pendF.isEmpty)).foldl
    (fun s n => s.upTile n (fun t => { t with pendF := [] })) (s.upPart p (fun x => { x with fault := false }))

/-! Landing groups (R186–R188, R192). -/

def State.landMode (s : State) (p : Nat) : Nat := s.g F.LAND_CTRL_MODE p

/-- Send a class-0 LAND packet (R327): kind 0 arrival, 1 release, 2 bits. -/
def State.sendLand (s : State) (ctx kind l bits : Nat) : State := s.peerSend ctx 6 0 kind (l + bits % 2 ^ 16 * 2 ^ 32) 0 0 0 (fun _ => none)

/-- Child ranks of rank r in a group of size g (R187). -/
def landKids (r g : Nat) : List Nat := ((List.range 32).map (fun i => 32 * r + 1 + i)).filter (fun k => decide (k < g))

/-- What is known of landing l here: its entry, or an empty one for the next landing of a partition all of whose tiles count as arrived
without arriving (R92, R168). -/
def State.landingOf (s : State) (p l : Nat) : Option Landing :=
  (s.landing? p l).orElse (fun _ => if l = add32 (s.g F.LAND_NUM_DONE p) 1 then some (Landing.fresh l) else none)

/-- Mode 1: an arrival goes to the parent once the partition and every child have arrived (R187). -/
def State.landUp (s : State) (p l : Nat) : State :=
  match s.part? p, s.landingOf p l with
  | some x, some e =>
    let r := s.g F.LAND_GROUP_RANK p
    if r ≠ 0 ∧ !e.sentUp ∧ s.locallyArrived p l ∧ (landKids r (s.g F.LAND_GROUP_SIZE p)).all (fun k => e.kids.contains k) then
      let bits := s.ownBits p e ||| e.kidBits
      ((s.takeFaults p).upLanding p l (fun e => { e with sentUp := true })).sendLand (x.groupCtx.headD 8192) 0 l bits
    else s
  | _, _ => s

/-- Whether a SYNC count has reached landing l, or its side is the chain's open end. -/
def State.syncHas (s : State) (l : Nat) (dn : Bool) : Bool :=
  if dn then s.g F.SYNC_CFG_FIRST 0 == 1 || decide (0 ≤ diff32 (s.g F.SYNC_COUNT_DNCOUNT 0) l)
  else s.g F.SYNC_CFG_LAST 0 == 1 || decide (0 ≤ diff32 (s.g F.SYNC_COUNT_UPCOUNT 0) l)

/-- Mode 2: the chain logic for one landing (R188): pulses, and local completion with the bits sent to every other member (R192). (DEDUCED, unsafe: log 43) -/
def State.syncEval (s : State) (p l : Nat) : State :=
  let known := (s.landing? p l).isSome || (!(s.g F.SYNC_CFG_FIRST 0 == 1) && s.syncHas l true) || (!(s.g F.SYNC_CFG_LAST 0 == 1) && s.syncHas l false)
  if !(known && s.locallyArrived p l) then s
  else
    let e := (s.landing? p l).getD (Landing.fresh l)
    let up := s.syncHas l true && !e.sentUp
    let dn := s.syncHas l false && !e.sentDn
    let done := s.syncHas l true && s.syncHas l false && e.localBits.isNone
    let s := if up && s.g F.SYNC_CFG_LAST 0 == 0 then s.emit (.sync 0) else s
    let s := if dn && s.g F.SYNC_CFG_FIRST 0 == 0 then s.emit (.sync 1) else s
    let own := s.ownBits p e
    let s := s.upLanding p l (fun e => { e with sentUp := e.sentUp || up, sentDn := e.sentDn || dn, localBits := if done then some own else e.localBits })
    if done then (((s.part? p).map (·.groupCtx)).getD []).foldl (fun s c => s.sendLand c 2 l own) (s.takeFaults p) else s

/-- The landings a partition's hub may act on: those after the latest completed one, at most four (R171). -/
def State.openLandings (s : State) (p : Nat) : List Nat := (List.range 4).map (fun i => add32 (s.g F.LAND_NUM_DONE p) (i + 1))

/-- What a member sends on its group's behalf as arrivals and counts change (R187, R188). (DEDUCED, unsafe: log 41) -/
def State.landGroup (s : State) (p : Nat) : State :=
  match s.landMode p with
  | 1 => (s.openLandings p).foldl (fun s l => s.landUp p l) s
  | 2 => if s.g F.SYNC_CFG_ENABLE 0 = 1 ∧ s.g F.SYNC_CFG_PART 0 = p then (s.openLandings p).foldl (fun s l => s.syncEval p l) s else s
  | _ => s

/-! Completion (R168, R172–R174). -/

/-- The bits with which landing l completes now; none while something is missing (R168, R187, R192). The launch stands for landing 0, which has no bits,
until the numbers wrap (R167). -/
def State.landBits (s : State) (p l : Nat) : Option Nat :=
  match s.landing? p l with
  | some e =>
    match s.landMode p with
    | 1 =>
      if s.g F.LAND_GROUP_RANK p = 0 then
        if s.locallyArrived p l && (landKids 0 (s.g F.LAND_GROUP_SIZE p)).all (fun k => e.kids.contains k) then some (s.ownBits p e ||| e.kidBits) else none
      else e.release
    | 2 =>
      match e.localBits, s.part? p with
      | some own, some x =>
        let prev := add32 l (2 ^ 32 - 1)
        if (prev = 0 ∧ !x.lapped) ∨ x.groupCtx.all (fun c => x.rankBits.any (fun b => b.1 == prev && b.2.1 == c)) then
          some (own ||| ((x.rankBits.filter (fun b => b.1 == prev)).foldl (fun a b => a ||| b.2.2) 0))
        else none
      | _, _ => none
    | _ => if e.first.isSome && s.locallyArrived p l then some (s.ownBits p e) else none
  | none => none

/-- Count and report an anomalous landing (R173). -/
def State.landAnomaly (s : State) (p l : Nat) : State :=
  let s := s.inc F.LAND_ANOMALIES_COUNT p 0 1
  if s.g F.LAND_CTRL_AEVENT p = 0 then s
  else
    let far := match ((s.part? p).map (·.lastAnomaly)).getD none with | some m => decide (1000 ≤ diff32 l m) | none => true
    if far then (s.event (some p) 0x8103 [(l, 4)]).upPart p (fun x => { x with lastAnomaly := some l }) else s

/-- A tile sees a completion: a held main context resumes, and its wait is counted (R91, XC.LAND_WAIT). -/
def State.unhold (s : State) (n l : Nat) : State :=
  match (s.ctx n 0).wait with
  | .held m => if diff32 m l ≤ 0 then (s.inc F.XC_LAND_WAIT_COUNT n 0 (s.cyclesSince (n / 64) (s.ctx n 0).since)).setWait n 0 .run else s
  | _ => s

/-- The end of a landing with the fault bit: every tile stops and LANDING_FAULT is reported (R172). -/
def State.landStop (s : State) (p l : Nat) : State :=
  let s := (s.tilesOf p).foldl (fun s n => if (s.ctx n 0).wait = .off then s else s.upTile n (fun t => { t with stopped := true })) s
  (s.upPart p (fun x => { x with stopped := true })).event (some p) 0x8102 [(l, 4)]

/-- Complete landing l with `bits`: LAND.VERDICT is written before any tile resumes (R174), the release is forwarded (R187), and the
partition goes on or stops. `mid` is what the device does before any tile resumes. -/
def State.landDone (s : State) (p l bits : Nat) (mid : State → State) : State :=
  let ctxs := ((s.part? p).map (·.groupCtx)).getD []
  let s := if s.landMode p = 2 ∨ (s.landMode p = 1 ∧ s.g F.LAND_GROUP_RANK p ≠ 0) then s else s.takeFaults p
  let s := s.wreg R.LAND_VERDICT p 0 (BitVec.ofNat 64 (bits % 2 ^ 16 + l * 2 ^ 16))
  let s := (s.w F.LAND_NUM_DONE p 0 l).upPart p (fun x => { x with landings := x.landings.filter (fun e => e.num != l), rankBits := x.rankBits.filter (fun b => decide (0 ≤ diff32 b.1 l)), lapped := x.lapped || l == 0 })
  let s := if s.landMode p = 1 then (ctxs.drop 1).foldl (fun s c => s.sendLand c 1 l bits) s else s
  let s := if bits / 2 % 2 = 1 then s.landAnomaly p l else s
  let s := mid s
  if bits / 4 % 2 = 1 then s.landStop p l else (s.tilesOf p).foldl (fun s n => s.unhold n l) s

/-! The timeout (R193). -/

/-- LANDING_TIMEOUT (R193): landing l of partition p has been incomplete for LAND.CTRL.TIMEOUT since its first arrival. -/
def execLandingTimeout (p l : Nat) (s : State) : Res :=
  if 8 ≤ p then .fault .noSuchUnit
  else .next (
    match s.landing? p l with
    | some e =>
      match e.first with
      | some t0 =>
        if e.reported || decide (s.now < t0 + 1000 * s.g F.LAND_CTRL_TIMEOUT p) || (s.landBits p l).isSome then s
        else
          let late := (s.tilesOf p).filter (fun n => !(s.tileOver n || decide (0 ≤ diff32 (s.tile n).flight l)))
          let first := (late.head?.map (fun n => s.localTile n)).getD 0
          let done := if s.landMode p ≠ 0 ∧ s.locallyArrived p l then 1 else 0
          let s := (s.upLanding p l (fun e => { e with reported := true })).inc F.LAND_TIMEOUTS_COUNT p 0 1
          let s := s.wreg R.LAND_LATE p 0 (setFields 0 [(F.LAND_LATE_MISSING, late.length), (F.LAND_LATE_FIRST, first), (F.LAND_LATE_LOCALDONE, done),
            (F.LAND_LATE_VALID, 1), (F.LAND_LATE_LANDING, l)])
          s.event (some p) 0x8104 [(l, 4), (late.length, 2), (first, 2), (done, 1)]
      | none => s
    | none => s)

end Sys2Proof.Machine
end

