-- ==== Sys2Proof/Machine/Memory.lean ====
section
/-! DEFINITION. Global memory (spec 08_global_memory.md; spec 05, R156, R157): frames and their controllers, lost lines and repair,
gallery slots, and where the current value of a line lies. -/

namespace Sys2Proof.Machine

/-! Frames (R221–R227). -/

/-- The number of frames, and the first that a page may take (R221). -/
def numFrames : Nat := 466033
def firstFrame : Nat := 64
def frameLines : Nat := 131072

/-- Frames that are not free: mapped, holding a copy, in the pool, retired, or named by a page-map change on its way. -/
def State.usedFrames (s : State) : List Nat :=
  let of := fun (v : BitVec 64) => (if Pm.valid v = 1 then [Pm.frame v] else []) ++ (if Pm.copyv v = 1 then [Pm.copyf v] else [])
  (s.pageMap.flatMap (fun e => of e.2)) ++ s.pool ++ s.retired ++ s.cuts.flatMap (fun c => c.pages.flatMap (fun e => of e.2))
/-- The lowest free frame (R221). (DESIGN CHOICE, unsafe: log 47) -/
def State.freeFrame (s : State) : Option Nat :=
  let u := s.usedFrames
  let k := lowestFrom u u.length firstFrame
  if k < numFrames then some k else none

/-- The check lines that a channel keeps after it has used that of group g (R227): the 256 most recent. -/
def chkUse (q : List Nat) (g : Nat) : List Nat := (g :: q.erase g).take 256
/-- A controller uses the check line of group g of device channel ch (R227). -/
def State.useGroup (s : State) (ch g : Nat) : State :=
  let q := Sparse.get [] s.chk ch
  let s := if q.contains g then s else s.inc F.MEMC_CHK_MISS_COUNT (ch / 32) 0 1
  { s with chk := Sparse.put [] s.chk ch (chkUse q g) }
/-- A controller uses the check line of a data line's group. -/
def State.useCheck (s : State) (f l : Nat) : State :=
  let p := place f l
  s.useGroup (p.1 * 32 + p.2.1) (p.2.2.1 / 576)
/-- Every group of a frame is used once: groups 16f to 16f + 15 of each channel (R224, R228). -/
def State.useFrame (s : State) (f : Nat) : State :=
  let rows := (List.range 1024).map (fun ch => (List.range 16).foldl (fun (x : List Nat × Nat) (k : Nat) =>
    (chkUse x.1 (16 * f + k), if x.1.contains (16 * f + k) then x.2 else x.2 + 1)) (Sparse.get [] s.chk ch, 0))
  let s := (List.range 32).foldl (fun (s : State) (m : Nat) => s.inc F.MEMC_CHK_MISS_COUNT m 0 ((((rows.drop (32 * m)).take 32).map (·.2)).sum)) s
  { s with chk := rows.zipIdx.map (fun r => (r.2, r.1.1)) }

def State.frameLine (s : State) (f l : Nat) : FrameLine := Sparse.get 0 s.frames (f * frameLines + l)
def State.setFrameLine (s : State) (f l : Nat) (v : FrameLine) : State := { s with frames := Sparse.put 0 s.frames (f * frameLines + l) v }
/-- The canonical form of frame memory: line keys strictly rising, and no line listed that holds zeros. (DESIGN CHOICE, unsafe: log 12) -/
def Memory.wf (m : Sparse FrameLine) : Bool := Sparse.wf 0 m
/-- A controller writes a line (R226, R227). -/
def State.writeFrame (s : State) (f l data : Nat) (poison : Bool) : State := (s.useCheck f l).setFrameLine f l (frameStore data poison)
/-- Fill a frame with zero lines (R221); each group is written once. -/
def State.clearFrame (s : State) (f : Nat) : State := { s.useFrame f with frames := Sparse.dropRange s.frames (f * frameLines) ((f + 1) * frameLines) }

/-- The page a frame holds. -/
def State.pageOfFrame (s : State) (f : Nat) : Option Nat := (List.find? (fun (e : Nat × BitVec 64) => Pm.valid e.2 == 1 && Pm.frame e.2 == f) s.pageMap).map (·.1)

/-- Retire a frame (R243): it is never mapped again, is logged, and goes to the persistent store. (DEDUCED, unsafe: log 63) -/
def State.retireFrame (s : State) (f : Nat) : State :=
  ((if s.retired.contains f then s else { s with retired := s.retired ++ [f] }).mssLog 5 none [(f, 4)]).persist (fun p => { p with retired := p.retired ++ [f] })

/-! Lost lines and repair reads (R241, R242). -/

/-- MEM_UE, at most once per page per flight of its owner (R241). -/
def State.memLost (s : State) (e l : Nat) (failed : Bool) : State :=
  let p := Pm.owner (s.page e)
  let fl := s.g F.LAND_NUM_DONE p + 1
  if Sparse.get 0 s.memUe e = fl then s
  else { s.event (some p) 0x8302 [(e, 4), (l, 4), (if failed then 1 else 0, 1)] with memUe := Sparse.put 0 s.memUe e fl }

/-- A line is lost (R241): the marker is written, the frame is to be retired, and it is reported. -/
def State.loseLine (s : State) (f l : Nat) (failed : Bool) : State :=
  let s := s.writeFrame f l 0 true
  match s.pageOfFrame f with
  | some e => (s.setPage e (Pm.setRetire (s.page e) 1)).memLost e l failed
  | none => s

/-- A repair read goes to the buddy (R242, step 2). -/
def State.startRepair (s : State) (e l : Nat) (hall : Option Nat) : State :=
  let p := Pm.owner (s.page e)
  let s : State := { s with repairs := s.repairs ++ [(⟨e, l, s.now, false, false, []⟩ : Repair)] }
  let s := match hall with | some h => s.inc F.HALL_SW_REPAIR_COUNT h 0 1 | none => s
  s.peerSend (s.g F.SP_LINK_CTX p) 8 0 (s.g F.SP_COMMIT_STEP p) (e * 2 ^ 23 + l * 64) 0 0 0 (fun q => some (.repair 0 q e l))

/-- Whether a line's repair is awaited. -/
def State.repairing (s : State) (e l : Nat) : Bool := s.repairs.any (fun r => r.page == e && r.line == l && !r.copying)

/-- A fresh uncorrectable error in a frame line (R241): repaired from the shadow if it can be, else lost. -/
def State.frameUe (s : State) (f l : Nat) (hall : Option Nat) (scrub : Bool) : State × Option LineVal :=
  let p := place f l
  let m := p.1
  let s := s.inc F.MEMC_UE_COUNT m 0 1
  let s := if s.g F.MEMC_UE_FIRST_VALID m = 1 then s
    else s.wreg R.MEMC_UE_FIRST m 0 (setFields 0 [(F.MEMC_UE_FIRST_FRAME, f), (F.MEMC_UE_FIRST_LINE, l), (F.MEMC_UE_FIRST_CHAN, p.2.1),
      (F.MEMC_UE_FIRST_SCRUB, if scrub then 1 else 0), (F.MEMC_UE_FIRST_VALID, 1)])
  match s.pageOfFrame f with
  | some e =>
    if Pm.shadow (s.page e) = 1 ∧ Pm.wsc (s.page e) = 0 then (s.startRepair e l hall, none) else (s.loseLine f l false, some ⟨0, true⟩)
  | none => (s.loseLine f l false, some ⟨0, true⟩)

/-- A controller classifies a line (R226): its value, or none while its repair is awaited. -/
def State.classifyFrame (s : State) (f l : Nat) (hall : Option Nat) (scrub : Bool) : State × Option LineVal :=
  if (s.pageOfFrame f).any (fun e => s.repairing e l) then (s, none)
  else
    match frameClassify (s.frameLine f l) with
    | .poison => (s, some ⟨0, true⟩)
    | .clean d => (s, some ⟨BitVec.ofNat 512 d, false⟩)
    | .corrected d k =>
      let m := (place f l).1
      ((((s.inc F.MEMC_CE_COUNT m 0 1).ceDram 1).inc F.MEMC_BYTES_CE_COUNT m 0 k).setFrameLine f l (frameStore d false), some ⟨BitVec.ofNat 512 d, false⟩)
    | .fresh => s.frameUe f l hall scrub
/-- A controller reads a line with its group's check line (R226, R227). -/
def State.readFrame (s : State) (f l : Nat) (hall : Option Nat) (scrub : Bool) : State × Option LineVal :=
  (s.useCheck f l).classifyFrame f l hall scrub

/-! Gallery slots (R156, R157, R229–R232). -/

def State.slot? (s : State) (h k : Nat) : Option Slot := Sparse.find? (s.hall h).slots k
def State.upSlot (s : State) (h k : Nat) (f : Slot → Slot) : State := s.upHall h (fun x => { x with slots := Sparse.modify x.slots k f })
def State.setSlot (s : State) (h k : Nat) (v : Slot) : State := s.upHall h (fun x => { x with slots := Sparse.insert x.slots k v })
/-- A slot becomes EMPTY; lines on their way to it are dropped when they come. -/
def State.freeSlot (s : State) (h k : Nat) : State :=
  { s.upHall h (fun x => { x with slots := Sparse.erase x.slots k }) with flying := s.flying.filter (fun y => !(y.hall == h && y.slot == k)) }
/-- The slots that hold a block: hall, key and slot. -/
def State.holders (s : State) (b : Nat) : List (Nat × Nat × Slot) :=
  s.halls.flatMap (fun h => (h.2.slots.filter (fun e => e.2.block == b)).map (fun e => (h.1, e.1, e.2)))
def Slot.has (x : Slot) (l : Nat) : Bool := Sparse.has x.lines l
def Slot.isDirty (x : Slot) (l : Nat) : Bool := Sparse.get false x.dirty l

/-- SRAM_UE for a gallery, at most once per hall per flight of its owner (R143, R157), with the fault bit. (DEDUCED, unsafe: log 48) -/
def State.galleryUe (s : State) (h k l : Nat) : State :=
  let s := s.inc F.HALL_GAL_UE_COUNT h 0 1
  let p := (s.ownerOf h).getD 8
  let fl := s.g F.LAND_NUM_DONE p
  let a := k % 96 * 1024 + l
  let s := if s.g F.HALL_GAL_UE_FIRST_VALID h = 1 then s
    else s.wreg R.HALL_GAL_UE_FIRST h 0 (setFields 0 [(F.HALL_GAL_UE_FIRST_LINE, a), (F.HALL_GAL_UE_FIRST_SLICE, k / 96),
      (F.HALL_GAL_UE_FIRST_VALID, 1), (F.HALL_GAL_UE_FIRST_FLIGHT, fl)])
  if p = 8 then s
  else
    let s := s.partFault p
    if (s.hall h).ueFlight = some fl then s
    else (s.upHall h (fun x => { x with ueFlight := some fl })).event (some p) 0x8301 [(1, 1), (s.localHall h * 64, 2), (k / 96, 1), (a, 4), (fl, 4)]

/-- A slice reads a valid line of a slot (R156, R157): none where it discards the line. -/
def State.readSlot (s : State) (h k l : Nat) : State × Option LineVal :=
  match s.slot? h k with
  | none => (s, none)
  | some x =>
    let us := (List.range 8).map (galUnit (Sparse.get 0 x.lines l))
    let data := (us.zipIdx.map (fun p => (match p.1 with | .clean d => d | .corrected d => d | _ => 0) * 2 ^ (64 * p.2))).sum
    let ce := (us.filter (fun u => match u with | .corrected _ => true | _ => false)).length
    let s := if ce = 0 then s else ((s.inc F.HALL_GAL_CE_COUNT h 0 ce).ceSram ce).w F.HALL_GAL_CE_SLICE h 0 (k / 96)
    if us.contains .fresh then
      if x.isDirty l then ((s.galleryUe h k l).upSlot h k (fun x => { x with lines := Sparse.insert x.lines l (galStore 0 true) }), some ⟨0, true⟩)
      else ((s.inc F.HALL_GAL_REFETCH_COUNT h 0 1).upSlot h k (fun x => { x with lines := Sparse.erase x.lines l }), none)
    else if us.contains .poison then (s, some ⟨0, true⟩)
    else (if ce = 0 then s else s.upSlot h k (fun x => { x with lines := Sparse.insert x.lines l (galStore data false) }), some ⟨BitVec.ofNat 512 data, false⟩)

/-- A slot is used: it becomes its slice's most recently used (R232). -/
def State.touchSlot (s : State) (h k : Nat) : State := { s.upSlot h k (fun x => { x with used := s.useCtr }) with useCtr := s.useCtr + 1 }

/-- Read a valid line of a slot; a discarded line is read again from its frame (R157). None while that frame line is under repair. -/
def State.slotValue (s : State) (h k a : Nat) : State × Option LineVal :=
  let l := a / 64 % 1024
  let r := (s.touchSlot h k).readSlot h k l
  match r.2 with
  | some v => (r.1, some v)
  | none =>
    let q := r.1.readFrame (Pm.frame (s.page (pageOf a))) (pageLine a) (some h) false
    match q.2 with
    | some v => (q.1.upSlot h k (fun x => { x with lines := Sparse.insert x.lines l (galStore v.data.toNat v.poison) }), some v)
    | none => (q.1, none)

/-! The current value of a line, for accesses that allocate no slot (R231, R235). -/

/-- Read the line at a: from the slot that holds it valid, else from its frame. None while it is under repair. `hall` is the hall whose stairwell asks. -/
def State.readLineFor (s : State) (hall : Option Nat) (a : Nat) : State × Option LineVal :=
  match (s.holders (blockOf a)).find? (fun x => x.2.2.has (a / 64 % 1024)) with
  | some x => s.slotValue x.1 x.2.1 a
  | none => s.readFrame (Pm.frame (s.page (pageOf a))) (pageLine a) hall false
def State.readLine (s : State) (a : Nat) : State × Option LineVal := s.readLineFor none a
/-- Whether the line at a is under repair and no slot holds it: what meets it waits, in arrival order (Table 8.5, R235). -/
def State.mending (s : State) (a : Nat) : Bool :=
  s.repairing (pageOf a) (pageLine a) && !(s.holders (blockOf a)).any (fun x => x.2.2.has (a / 64 % 1024))

/-- Each byte of a mask as eight bits. -/
def byteMask (m : BitVec 64) : Nat := ((List.range 64).map (fun i => if m.getLsbD i then 255 * 2 ^ (8 * i) else 0)).sum
/-- A line after a write of the bytes of `mask` (R227, R145): a partial write of or to a poisoned line leaves a poisoned line. -/
def LineVal.merge (old : LineVal) (data : BitVec 512) (mask : BitVec 64) (poison : Bool) : LineVal :=
  if mask = BitVec.allOnes 64 then ⟨if poison then 0 else data, poison⟩
  else if old.poison || poison then ⟨0, true⟩
  else
    let k := BitVec.ofNat 512 (byteMask mask)
    ⟨(old.data &&& ~~~k) ||| (data &&& k), false⟩

/-- Put a value into a line of a slot, which becomes modified (R231). -/
def State.storeSlot (s : State) (h k l : Nat) (v : LineVal) : State :=
  (s.touchSlot h k).upSlot h k (fun x => { x with
    lines := Sparse.insert x.lines l (galStore v.data.toNat v.poison), dirty := Sparse.put false x.dirty l true, want := Sparse.erase x.want l,
    state := if x.state = .clean ∨ x.state = .shared then .modified else x.state })

/-- The frame of page e has been written (Table 8.1, WSC). (DEDUCED, unsafe: log 49) -/
def State.markWsc (s : State) (e : Nat) : State := s.setPage e (Pm.setWsc (s.page e) 1)
/-- Write a line into its frame; a repair of it that is on its way comes too late to change it (R235). -/
def State.storeFrame (s : State) (a : Nat) (v : LineVal) : State :=
  let s : State := { s with repairs := s.repairs.map (fun r => if r.page = pageOf a ∧ r.line = pageLine a ∧ !r.copying then { r with stale := true } else r) }
  (s.writeFrame (Pm.frame (s.page (pageOf a))) (pageLine a) v.data.toNat v.poison).markWsc (pageOf a)

/-- Write bytes of the line at a at its current location, allocating no slot. False while the block moves or is evicted, or while the line
is under repair (R231, R233, R235). `hall` is the hall whose stairwell reads the old bytes. -/
def State.writeLineFor (s : State) (hall : Option Nat) (a : Nat) (data : BitVec 512) (mask : BitVec 64) (poison : Bool) : State × Bool :=
  let hs := s.holders (blockOf a)
  if hs.any (fun x => x.2.2.state == .moving || x.2.2.state == .evicting) || s.mending a then (s, false)
  else
    let r := if mask = BitVec.allOnes 64 then (s, some ⟨0, false⟩) else s.readLineFor hall a
    match r.2 with
    | none => (r.1, false)
    | some old =>
      let v := LineVal.merge old data mask poison
      match hs with
      | x :: _ => (r.1.storeSlot x.1 x.2.1 (a / 64 % 1024) v, true)
      | [] => (r.1.storeFrame a v, true)
def State.writeLine (s : State) (a : Nat) (data : BitVec 512) (mask : BitVec 64) (poison : Bool) : State × Bool := s.writeLineFor none a data mask poison

/-- Read `n` lines from byte address a; none while one is under repair. -/
def State.readLines (s : State) (a : Nat) : Nat → State × Option (List LineVal)
  | 0 => (s, some [])
  | n + 1 =>
    let r := s.readLine a
    match r.2 with
    | none => (r.1, none)
    | some v =>
      let q := r.1.readLines (a + 64) n
      (q.1, q.2.map (v :: ·))

/-- Bytes of lines, with each byte's poison. -/
def lineBytes (l : List LineVal) : List (Nat × Bool) :=
  l.flatMap (fun v => (List.range 64).map (fun i => (v.data.toNat / 2 ^ (8 * i) % 256, v.poison)))
/-- Read k bytes from byte address a, with their poison. -/
def State.readBytes (s : State) (a k : Nat) : State × Option (List (Nat × Bool)) :=
  let r := s.readLines (a / 64 * 64) ((a % 64 + k + 63) / 64)
  (r.1, r.2.map (fun l => ((lineBytes l).drop (a % 64)).take k))
/-! Write-back and freeing (R222, R223, R230, R232). -/

/-- Write a slot's modified lines back to its block's frame; they are modified no longer. -/
def State.writeBack (s : State) (h k : Nat) : State :=
  match s.slot? h k with
  | some x =>
    let ls := x.dirty.map (·.1)
    let s := ls.foldl (fun s l =>
      let r := s.readSlot h k l
      match r.2 with
      | some v => (r.1.storeFrame (x.block * 2 ^ 16 + l * 64) v).inc F.HALL_SW_WB_COUNT h 0 1
      | none => r.1) s
    s.upSlot h k (fun x => { x with dirty := [], state := if x.state = .modified then .clean else x.state })
  | none => s
/-- Write whole lines from byte address a. One that meets a write-back is applied after it, and one that meets a MOVE goes with the block (R233). -/
def State.writeLines (s : State) (a : Nat) : List LineVal → State
  | [] => s
  | v :: l =>
    let s := ((s.holders (blockOf a)).filter (fun x => x.2.2.state == .evicting)).foldl (fun (s : State) x => (s.writeBack x.1 x.2.1).freeSlot x.1 x.2.1) s
    (match s.holders (blockOf a) with
     | x :: _ => s.storeSlot x.1 x.2.1 (a / 64 % 1024) v
     | [] => s.storeFrame a v).writeLines (a + 64) l
/-- Write back every modified slot of the halls named. -/
def State.writeBackHall (s : State) (h : Nat) : State := ((s.hall h).slots.map (·.1)).foldl (fun s k => s.writeBack h k) s
/-- Free every gallery copy of a page's blocks, writing nothing back; lines on their way to them are dropped when they come. -/
def State.dropPage (s : State) (e : Nat) : State :=
  { s with
    flying := s.flying.filter (fun y => !(s.slot? y.hall y.slot).any (fun x => x.block / 128 == e))
    halls := s.halls.map (fun h => (h.1, { h.2 with slots := h.2.slots.filter (fun x => x.2.block / 128 != e) })) }
/-- Write back a page's blocks. -/
def State.writeBackPage (s : State) (e : Nat) : State :=
  (s.halls.flatMap (fun h => (h.2.slots.filter (fun x => x.2.block / 128 == e)).map (fun x => (h.1, x.1)))).foldl (fun s x => s.writeBack x.1 x.2) s

/-! Allocation (R229, R232). -/

/-- The directory set of a block (R229): slice × 128 + set. -/
def dirSet (b : Nat) : Nat :=
  ((b ^^^ (b / 2 ^ 5) ^^^ (b / 2 ^ 10) ^^^ (b / 2 ^ 15) ^^^ (b / 2 ^ 20) ^^^ (b / 2 ^ 25)) % 32) * 128 + ((b / 8) ^^^ (b / 2 ^ 10) ^^^ (b / 2 ^ 17)) % 128
/-- Every slot of the device: hall, key, slot. -/
def State.allSlots (s : State) : List (Nat × Nat × Slot) := s.halls.flatMap (fun h => h.2.slots.map (fun e => (h.1, e.1, e.2)))
def Slot.idle (x : Slot) : Bool := x.state == .clean || x.state == .shared || x.state == .modified
/-- The least of a list by a key, the first on ties. -/
def leastBy {α : Type} (f : α → Nat) : List α → Option α
  | [] => none
  | x :: l => match leastBy f l with
    | some y => if f y < f x then some y else some x
    | none => some x

/-- Start to empty a slot: unmodified it is free at once, modified it is EVICTING until its write-back ends. -/
def State.evict (s : State) (h k : Nat) : State :=
  match s.slot? h k with
  | some x => if x.dirty.isEmpty then s.freeSlot h k else s.upSlot h k (fun x => { x with state := .evicting })
  | none => s

/-- Make room in the directory set of a block (R229): false while a write-back of it is awaited. -/
def State.dirRoom (s : State) (b : Nat) : State × Bool :=
  let inSet := s.allSlots.filter (fun x => dirSet x.2.2.block == dirSet b)
  if inSet.any (fun x => x.2.2.block == b) || decide ((inSet.map (fun x => x.2.2.block)).eraseDups.length < 16) then (s, true)
  else if inSet.any (fun x => x.2.2.state == .evicting) then (s, false)
  else match leastBy (fun x => x.2.2.filled) (inSet.filter (fun x => x.2.2.idle)) with
    | some o =>
      let l := inSet.filter (fun x => x.2.2.block == o.2.2.block)
      let s := (l.foldl (fun s x => s.evict x.1 x.2.1) s).inc F.GMEM_DIR_EVICTS 0 0 1
      (s, l.all (fun x => x.2.2.dirty.isEmpty))
    | none => (s, false)

/-- Whether a slot is protected by an occurrence whose protection still runs (R237). -/
def State.protected (s : State) (h : Nat) (x : Slot) : Bool :=
  match x.prot, s.ownerOf h with
  | some t, some p => decide (diff32 (s.g F.LAND_NUM_DONE p) (t + 1) < 0)
  | _, _ => false
/-- The order of target flights from landing n on: earlier first (R167, R232). -/
def flightOrder (n t : Nat) : Nat := (diff32 t n + 2 ^ 31).toNat

/-- A slot of hall h for a block, in the order of R232; none while a write-back must end first. -/
def State.takeSlot (s : State) (h : Nat) : State × Option Nat :=
  let l := (s.hall h).slots
  let k := lowestFrom (l.map (·.1)) l.length 0
  if k < 768 then (s, some k)
  else
    let free := l.filter (fun e => e.2.idle && !s.protected h e.2)
    match leastBy (fun e => e.2.used) (free.filter (fun e => e.2.state != .modified)) with
    | some e => (s.freeSlot h e.1, some e.1)
    | none =>
      if l.any (fun e => e.2.state == .evicting) then (s, none)
      else match leastBy (fun e => e.2.used) free with
        | some e => (s.evict h e.1, none)
        | none =>
          match leastBy (fun e => flightOrder (s.g F.LAND_NUM_DONE ((s.ownerOf h).getD 8)) (e.2.prot.getD 0) * 2 ^ 64 + e.2.used) (l.filter (fun e => e.2.idle)) with
          | some e => if e.2.dirty.isEmpty then (s.freeSlot h e.1, some e.1) else (s.evict h e.1, none)
          | none => (s, none)

/-- Allocate a slot of hall h for block b in a state; none while something must be written back first. -/
def State.allocSlot (s : State) (h b : Nat) (st : SlotState) (prot : Option Nat) : State × Option Nat :=
  let r := s.dirRoom b
  if !r.2 then (r.1, none)
  else
    let q := r.1.takeSlot h
    match q.2 with
    | some k => ({ q.1.setSlot h k ⟨b, st, [], [], [], q.1.useCtr, q.1.useCtr, prot⟩ with useCtr := q.1.useCtr + 1 }, some k)
    | none => (q.1, none)

/-! Refused accesses (R220). -/

/-- A stairwell refuses an access of hall h's partition: HALL.SW_FAULT, the partition fault and MEM_ACCESS. -/
def State.memRefuse (s : State) (h p e reason : Nat) (write : Bool) (flight : Nat) : State :=
  let w := if write then 1 else 0
  let s := if s.g F.HALL_SW_FAULT_VALID h = 1 then s
    else s.wreg R.HALL_SW_FAULT h 0 (setFields 0 [(F.HALL_SW_FAULT_PAGE, e), (F.HALL_SW_FAULT_WRITE, w), (F.HALL_SW_FAULT_REASON, reason),
      (F.HALL_SW_FAULT_VALID, 1), (F.HALL_SW_FAULT_FLIGHT, flight)])
  (s.partFault p).event (some p) 0x8304 [(e, 4), (reason, 1), (w, 1), (0, 1)]

/-! Copy before write (R240). -/

/-- A write meets a HOLD page: a copy is asked for, and the hall waits. (DEDUCED, unsafe: log 61) -/
def State.askCopy (s : State) (e : Nat) (hall : Option Nat) : State :=
  let add := fun (l : List (Nat × Nat)) => match hall with | some h => if l.any (fun x => x.1 == h) then l else l ++ [(h, s.now)] | none => l
  { s with copies := if s.copies.any (fun c => c.page == e) then s.copies.map (fun c => if c.page = e then { c with halls := add c.halls } else c)
                     else s.copies ++ [⟨e, add []⟩] }
/-- The held writes of a page are released (R240, step 5; HALL.CBW_WAIT). -/
def State.releaseHeld (s : State) (e : Nat) : State :=
  let cs := s.copies.filter (fun c => c.page == e)
  let s := cs.foldl (fun s c => c.halls.foldl (fun s x => s.inc F.HALL_CBW_WAIT_COUNT x.1 0 (s.cyclesSince x.1 x.2)) s) s
  { s with copies := s.copies.filter (fun c => c.page != e) }

/-- Whether a write to page e must wait: HOLD, or the copy of a repair (R240, R242). -/
def State.pageHeld (s : State) (e : Nat) : Bool := Pm.hold (s.page e) == 1 || s.repairs.any (fun r => r.page == e && r.copying)

/-- Step 5 of a repair asks for a lost line of the page too, once (R242). -/
def State.mendLost (s : State) (e l : Nat) : State :=
  let s := s.startRepair e l none
  { s with repairs := s.repairs.map (fun r => if r.page = e ∧ r.copying then { r with tried := r.tried ++ [l] } else r) }
/-- Whether step 5 asks for line l of page e: it is lost, and the shadow may hold it (R241, R242). -/
def State.lostLine (s : State) (e l : Nat) : Bool :=
  Pm.shadow (s.page e) == 1 && Pm.wsc (s.page e) == 0 && (match frameClassify (s.frameLine (Pm.frame (s.page e)) l) with | .poison => true | _ => false) &&
  !s.repairs.any (fun r => r.page == e && r.copying && r.tried.contains l)
/-- Copy page e into frame f (R240, step 3; R242, step 5, `mend`): each line from the slot that holds it modified, otherwise from the
frame. Only lines that some slot or frame lists are visited; the others are zero. False while one of them is under repair. -/
def State.copyPage (s : State) (e f : Nat) (mend : Bool) : State × Bool :=
  let old := Pm.frame (s.page e)
  let keys := ((s.frames.filter (fun x => x.1 / frameLines == old)).map (fun x => x.1 % frameLines)) ++
    (s.allSlots.filter (fun x => x.2.2.block / 128 == e)).flatMap (fun x => x.2.2.dirty.map (fun d => x.2.2.block % 128 * 1024 + d.1))
  (keys.eraseDups).foldl (fun a l =>
    let r : State × Option LineVal :=
      match (a.1.holders (e * 128 + l / 1024)).find? (fun x => x.2.2.isDirty (l % 1024)) with
      | some x => a.1.readSlot x.1 x.2.1 (l % 1024)
      | none => if mend && a.1.lostLine e l then (a.1.mendLost e l, none) else a.1.readFrame old l none false
    match r.2 with
    | some v => (r.1.writeFrame f l v.data.toNat v.poison, a.2)
    | none => (r.1, false)) ((s.useFrame old).clearFrame f, true)

end Sys2Proof.Machine
end

