-- ==== Sys2Proof/Machine/Bucket.lean ====
section
/-! DEFINITION. The bucket descriptor (Table 9.1), the areas of a plan (R245, R248–R251) and the tests that stairwells and port stops
make on lines of the contribution and result areas (R249, R254). -/

namespace Sys2Proof.Machine

namespace Bk
def op (d : Nat) : Nat := fld d 0 4
def rop (d : Nat) : Nat := fld d 4 3
def fmtC (d : Nat) : Nat := fld d 7 4
def fmtR (d : Nat) : Nat := fld d 11 4
def comp (d : Nat) : Nat := fld d 15 2
def thinm1 (d : Nat) : Nat := fld d 17 6
def leg (d : Nat) : Nat := fld d 23 1
def cmode (d : Nat) : Nat := fld d 24 2
def vchk (d : Nat) : Nat := fld d 26 2
def wire (d : Nat) : Nat := fld d 28 4
def shard (d : Nat) : Nat := fld d 32 12
def vref (d : Nat) : Nat := fld d 48 16
def e (d : Nat) : Nat := fld d 64 32
def keep (d : Nat) : Nat := fld d 96 32
def hmask (d : Nat) : Nat := fld d 128 72
def naddr (d : Nat) : Nat := fld d 200 19
def tmask (d : Nat) : Nat := fld d 256 64
def caddr (d : Nat) : Nat := fld d 320 42
def roff (d : Nat) : Nat := fld d 384 42
def xaddr (d : Nat) : Nat := fld d 448 42
end Bk

/-- The local tiles of a bucket's tile set, in ascending order (R246): every tile t of TMASK of every local hall of HMASK. -/
def bkTiles (d halls : Nat) : List Nat :=
  ((List.range halls).filter (fun h => Bk.hmask d / 2 ^ h % 2 == 1)).flatMap (fun h =>
    ((List.range 64).filter (fun t => Bk.tmask d / 2 ^ t % 2 == 1)).map (fun t => h * 64 + t))

/-- Bytes of a format's element: FP32 and INT32 4, BF16 2 (R248). -/
def fmtBytes (f : Nat) : Nat := fmtBits f / 8

/-- Bytes of one tile's slice (R248): one word group for COMMIT. -/
def sliceBytes (d : Nat) : Nat := if Bk.op d = 6 then 192 else Bk.e d * fmtBytes (Bk.fmtC d)

def Coll.empty : Coll := ⟨[], [], [], [], [], [], [], [], [], []⟩
def State.collOf (s : State) (p : Nat) : Coll := Sparse.get Coll.empty s.coll p
def State.upColl (s : State) (p : Nat) (f : Coll → Coll) : State := { s with coll := Sparse.upd Coll.empty s.coll p f }
/-- The bucket descriptor b of a partition's plan. -/
def State.bucket (s : State) (p b : Nat) : Nat := (s.collOf p).plan[b]?.getD 0
def State.watermark (s : State) (p : Nat) : Nat := s.g F.COLL_WIN_WATER p

/-- Whether a byte address lies in the partition's contribution area (R245). -/
def State.inCarea (s : State) (p a : Nat) : Bool :=
  s.g F.COLL_PLAN_VALID p == 1 && decide (s.g F.COLL_CAREA_CBASE p ≤ a) && decide (a < s.g F.COLL_CLIMIT_CLIMIT p)

/-- The range of a bucket's slices (R248): none for an operation that takes no contributions of tiles (Table 9.2). -/
def bkSlices (d halls : Nat) : Nat × Nat :=
  if Bk.cmode d = 0 ∧ (Bk.op d ≤ 1 ∨ Bk.op d = 6) then (Bk.caddr d, Bk.caddr d + (bkTiles d halls).length * sliceBytes d) else (0, 0)
/-- The bucket whose slices hold the line at a (R249). -/
def State.sliceOf (s : State) (p a : Nat) : Option Nat :=
  ((s.collOf p).plan.zipIdx.find? (fun x => let r := bkSlices x.1 (s.hallsOf p).length; decide (r.1 ≤ a) && decide (a < r.2))).map (·.2)

/-- The bytes that post bucket d (R250). -/
def State.postBytes (s : State) (p d : Nat) : Nat := (bkTiles d (s.hallsOf p).length).length * sliceBytes d

/-- Whether a line of bucket b is accepted for the current step (R249). -/
def State.contribOk (s : State) (p b : Nat) : Bool :=
  let u := s.watermark p
  decide (u ≤ b) && decide (b ≤ u + 63) && decide (Sparse.get 0 (s.collOf p).bytes b < s.postBytes p (s.bucket p b))

/-- The first byte of the current result half, and of the results not yet published (R251, R254). -/
def State.resultBase (s : State) (p : Nat) : Nat := s.g F.COLL_RAREA_RBASE p + s.g F.COLL_STEP_STEP p % 2 * s.g F.COLL_RHALF_RHALF p

/-- Whether a read of the line at a is held until its bucket is published (R254). -/
def State.resultHeld (s : State) (p a : Nat) : Bool :=
  s.g F.COLL_PLAN_VALID p == 1 && decide (s.resultBase p + Bk.roff (s.bucket p (s.watermark p)) < a + 64) &&
  decide (a < s.resultBase p + s.g F.COLL_RHALF_RHALF p)
/-- Whether a read of k bytes from a is held; its held lines are counted once for the reader `who` (R254). -/
def State.holdRead (s : State) (p who a k : Nat) : State × Bool :=
  if s.g F.COLL_PLAN_VALID p = 0 ∨ a + k ≤ s.resultBase p ∨ s.resultBase p + s.g F.COLL_RHALF_RHALF p ≤ a then (s, false)
  else
  let ls := ((List.range ((a % 64 + k + 63) / 64)).map (fun i => a / 64 * 64 + 64 * i)).filter (fun x => s.resultHeld p x)
  let new := ls.filter (fun x => !(s.collOf p).heldR.contains (who, x))
  if new.isEmpty then (s, !ls.isEmpty)
  else ((s.upColl p (fun c => { c with heldR := c.heldR ++ new.map (fun x => (who, x)) })).inc F.COLL_HELD_R_COUNT p 0 new.length, true)

/-! Runs, posting and the judgement of lines (R249, R250, R273). -/

def State.collRun? (s : State) (p b : Nat) : Option CollRun := (s.collOf p).runs.find? (fun r => r.bucket == b)
/-- Whether bucket b, in the window, is posted. -/
def State.postReady (s : State) (p b : Nat) : Bool :=
  let d := s.bucket p b
  Bk.cmode d != 0 || Bk.op d == 5 || Bk.op d == 7 || decide (s.postBytes p d ≤ Sparse.get 0 (s.collOf p).bytes b)
/-- Post every bucket of the window that is ready. -/
def State.collPost (s : State) (p : Nat) : State :=
  if s.g F.COLL_PLAN_VALID p = 0 then s
  else
    let u := s.watermark p
    ((List.range 64).map (u + ·)).foldl (fun s b =>
      if s.g F.COLL_PLAN_NBUCK p ≤ b ∨ (s.collRun? p b).isSome ∨ !s.postReady p b then s
      else s.upColl p (fun c => { c with
        runs := c.runs ++ [⟨b, s.g F.COLL_STEP_EPOCH p, s.now, false, false, [], [], none, none, 0, false, false, 0⟩],
        commits := if Bk.op (s.bucket p b) = 6 then c.commits ++ [b] else c.commits })) s
/-- Bytes of a byte mask. -/
def maskCount (m : BitVec 64) : Nat := ((List.range 64).filter (fun i => m.getLsbD i)).length
/-- Bytes of bucket b are accepted; what that posts is posted (R250). -/
def State.contribAccept (s : State) (p b : Nat) (mask : BitVec 64) : State :=
  (s.upColl p (fun c => { c with bytes := Sparse.put 0 c.bytes b (Sparse.get 0 c.bytes b + maskCount mask) })).collPost p
/-- Hold a line (R249). -/
def State.contribHold (s : State) (p : Nat) (x : HeldLine) : State :=
  (s.upColl p (fun c => { c with held := c.held ++ [x] })).inc F.COLL_HELD_W_COUNT p 0 1
/-- Whether a line written at a is held in the contribution area (R249). -/
def State.contribHeld (s : State) (p a : Nat) : Bool :=
  s.inCarea p a && (match s.sliceOf p a with | some b => !s.contribOk p b | none => false)
/-- What the acceptance of a line written at a posts (R249, R250). -/
def State.contribCount (s : State) (p a : Nat) (mask : BitVec 64) : State :=
  match (if s.inCarea p a then s.sliceOf p a else none) with
  | some b => s.contribAccept p b mask
  | none => s

end Sys2Proof.Machine
end

