-- ==== Sys2Proof/Machine/Sensors.lean ====
section
/-! DEFINITION. The sensors that the MSS reads (spec 14, R353, R354, Table 14.3; spec 15, R384). -/

namespace Sys2Proof.Machine

/-- Sensors of the module. -/
def numSensors : Nat := 194
/-- The kind of sensor i: 0 temperature, 1 voltage, 2 current, 3 power, 4 energy. -/
def sensorKind (i : Nat) : Nat :=
  if i < 154 then 0 else if i < 190 then (match (i - 154) % 3 with | 0 => 1 | 1 => 2 | _ => 0) else if i = 190 then 1 else if i = 191 then 2 else if i = 192 then 3 else 4
/-- The period of sensor i in ns; the hold-up bank's is that of R351. -/
def sensorPeriod (i : Nat) : Nat :=
  if i < 86 then 1000000 else if i < 118 then 16000000 else if i < 190 then 10000000 else if i < 193 then 1000000 else 600000000000
/-- The warning value, in the sensor's unit; none for those without one. -/
def sensorWarn (i : Nat) : Option Int :=
  if sensorKind i = 4 then some 37500 else if sensorKind i ≠ 0 then none
  else if i < 86 then some 100000 else if i < 118 then some 85000 else if i < 154 then some 100000 else some 110000
/-- The upper critical threshold (R354), which is also the limit of R384's trips. -/
def sensorCrit (i : Nat) : Option Int := if i < 86 then some 105000 else if i < 118 then some 95000 else none
/-- WARN after a reading: at or above the warning value, until 2 °C below it; for the bank's energy, below it. -/
def warnAfter (i : Nat) (v : Int) (was : Bool) : Bool :=
  match sensorWarn i with
  | none => false
  | some w => if sensorKind i = 4 then decide (v < w) else decide (w ≤ v) || (was && decide (w - 2000 ≤ v))
/-- The threshold state after a reading: 0 normal, 1 warning, 2 critical. (DEDUCED, unsafe: log 132) -/
def threshAfter (i : Nat) (v : Int) (warn : Bool) (was : Nat) : Nat :=
  match sensorCrit i with
  | some c => if c ≤ v ∨ (was = 2 ∧ c - 2000 ≤ v) then 2 else if warn then 1 else 0
  | none => if warn then 1 else 0
/-- A sensor reads v (R353): its record, HALL.TEMP for a hall's junction, and since when it stands at its trip limit (R384). A crossing of a threshold sets
MB.ALERT.THRESH and is sent to the event receiver (R354): receiver, sensor ID, old and new state, reading. -/
def State.sensorRead (s : State) (i : Nat) (v : Int) : State :=
  let raw := (v % 2 ^ 32).toNat
  let warn := warnAfter i v (s.g F.MB_SENSOR_WARN 0 i == 1)
  let was := Sparse.get 0 s.mss.thresh i
  let now := threshAfter i v warn was
  let s := s.wreg R.MB_SENSOR 0 i (setFields 0 [(F.MB_SENSOR_VALUE, raw), (F.MB_SENSOR_KIND, sensorKind i), (F.MB_SENSOR_VALID, 1), (F.MB_SENSOR_WARN, if warn then 1 else 0)])
  let trip := (sensorCrit i).any (fun c => decide (c ≤ v))
  let s := s.upMss (fun m => { m with
    readAt := Sparse.insert m.readAt i s.now, thresh := Sparse.put 0 m.thresh i now
    tripSince := if trip then (if Sparse.has m.tripSince i then m.tripSince else Sparse.insert m.tripSince i s.now) else Sparse.erase m.tripSince i })
  let s := if i < 72 then
      let t := v * 16 / 1000
      let code := (t % 2 ^ 16).toNat
      let s := s.w F.HALL_TEMP_NOW i 0 code
      if sext (s.g F.HALL_TEMP_MAX i) 16 < t then s.w F.HALL_TEMP_MAX i 0 code else s
    else s
  if now = was then s
  else
    let s := s.w F.MB_ALERT_THRESH 0 0 1
    match s.mss.receiver with
    | some r => s.emit (.mctp 1 0x20A 0 [r, i + 1, was, now, raw])
    | none => s
/-- Whether a reading is out of date: not made within twice its period (R353). -/
def State.sensorStale (s : State) (i : Nat) : Bool :=
  match Sparse.find? s.mss.readAt i with | some t => decide (t + 2 * sensorPeriod i < s.now) | none => false

end Sys2Proof.Machine
end

