-- ==== Sys2Proof/Machine/Lines.lean ====
section
/-! DEFINITION. The stairwell's rows (spec 08_global_memory.md, R220, R222, R226–R235, R238–R242): line reads and writes of tiles, frame
reads, fills, write-backs, page-map cuts, copies before write, repairs, patrol, readout and refresh. -/

namespace Sys2Proof.Machine

/-! Serving reads. -/

/-- Give a line to a tile's stream load. -/
def State.giveLine (s : State) (n id a : Nat) (v : LineVal) : State :=
  { s.upTile n (fun t => { t with lineResp := t.lineResp ++ [⟨id, a, v⟩] }) with
    waits := s.waits.filter (fun w => !(w.tile == n && w.id == id && w.addr == a)) }
/-- A read that cannot be served yet waits at the stairwell. -/
def State.waitLine (s : State) (n id a : Nat) : State :=
  if s.waits.contains ⟨n, id, a⟩ then s else { s with waits := s.waits ++ [⟨n, id, a⟩] }

/-- Block b of entry x, as the entry's index of it. -/
def PfEntry.index (x : PfEntry) (b : Nat) : Option Nat := if x.block ≤ b ∧ b < x.block + x.nblk then some (b - x.block) else none
/-- The occurrence with target at most f that names block b and has not placed it (R238): its entry. Occurrences not yet active count too. -/
def State.pfPending (s : State) (p b f : Nat) : Option Nat :=
  match Sparse.find? s.prefetch p with
  | none => none
  | some x =>
    match x.active.find? (fun o => decide (0 ≤ diff32 f o.target) && ((x.entries[o.entry]?.bind (·.index b)).map (fun i => o.todo.contains i)).getD false) with
    | some o => some o.entry
    | none =>
      let per := s.g F.GMEM_PF_PERIOD_PERIOD 0 p
      let nx := x.next
      let it := x.iter
      (x.entries.zipIdx.find? (fun e => (e.1.index b).isSome && (decide (nx ≤ e.2) || per != 0) && decide (nx < x.entries.length) &&
        decide (0 ≤ diff32 f (e.1.flight + (if nx ≤ e.2 then it else it + 1) * per)))).map (·.2)

/-- Count a read that waits for prefetch (R238). -/
def State.pfLate (s : State) (h entry flight : Nat) : State :=
  let s := s.inc F.HALL_PF_LATE_COUNT h 0 1
  if s.g F.HALL_PF_LATE_VALID h = 1 then s
  else ((s.w F.HALL_PF_LATE_ENTRY h 0 entry).w F.HALL_PF_LATE_VALID h 0 1).w F.HALL_PF_LATE_FLIGHT_FLIGHT h 0 flight

/-- Copy the valid lines of a slot to another hall's slot (R231, R237). -/
def State.copySlot (s : State) (h k h' k' : Nat) : State :=
  match s.slot? h k with
  | some x => (x.lines.map (·.1)).foldl (fun s l =>
      let r := s.readSlot h k l
      match r.2 with
      | some v => r.1.upSlot h' k' (fun y => { y with lines := Sparse.insert y.lines l (galStore v.data.toNat v.poison) })
      | none => r.1) s
  | none => s

/-- The state of a filled slot. -/
def Slot.settle (x : Slot) (rs : Bool) : Slot :=
  if x.lines.length < 1024 then x else { x with state := if !x.dirty.isEmpty then .modified else if rs then .shared else .clean, want := [] }

/-- Whether a waiting read is of the device's own range, and not of a peer's. -/
def State.ownWait (s : State) (w : WaitRead) : Bool := ((s.tile w.tile).instr? w.id).any (fun i => St.tgt i.desc == 0)
/-- Line reads of hall h outstanding (R234): lines on their way from frames, and reads that wait at another hall's gallery. -/
def State.outReads (s : State) (h : Nat) : Nat :=
  (s.flying.filter (fun x => x.hall == h)).length +
  (s.waits.filter (fun w => w.tile / 64 == h && s.ownWait w && (s.holders (blockOf w.addr)).any (fun x => x.1 != h && Sparse.get false x.2.2.want (w.addr / 64 % 1024)))).length
/-- Whether the stairwell of hall h takes a further line read of a class (R234). A read served within one step takes a slot for that step. (DESIGN CHOICE, unsafe: log 189) -/
def State.readRoom (s : State) (h cls : Nat) : Bool := decide (s.outReads h < if cls = 0 then 4096 else 4032)
/-- A line read takes a slot (HALL.SW_OUT.HWM). -/
def State.takeRead (s : State) (h : Nat) : State := s.hwm F.HALL_SW_OUT_HWM h 0 (s.outReads h + 1)
/-- Whether the tile for which the line at a is read may hold a further slot of hall h (R234). -/
def State.readShare (s : State) (h a : Nat) : Bool :=
  let mine := s.waits.filter (fun w => w.tile / 64 == h && s.ownWait w)
  let flies := fun (x : Nat) => s.flying.any (fun y => y.hall == h && (s.slot? y.hall y.slot).any (fun z => z.block * 1024 + y.line == x / 64))
  match mine.find? (fun w => w.addr == a) with
  | none => true
  | some w => decide ((mine.filter (fun v => v.tile == w.tile && flies v.addr)).length < 1024) || !mine.any (fun v => v.tile != w.tile && !flies v.addr)

/-- Hall h reads the line at a (R231): its value, or none while it is on its way or must wait, for which a line of a slot is asked for. -/
def State.hallRead (s : State) (h cls a : Nat) : State × Option LineVal :=
  let b := blockOf a
  let l := a / 64 % 1024
  let hs := s.holders b
  let want := fun (k k' : Nat) => (s.upSlot k k' (fun x => { x with want := Sparse.put false x.want l true }), (none : Option LineVal))
  match hs.find? (fun x => x.1 == h && x.2.2.has l && x.2.2.state != .moving) with
  | some x => s.slotValue h x.2.1 a
  | none =>
    if hs.any (fun x => x.2.2.state == .moving) then (s, none)
    else match hs.find? (fun x => x.1 == h) with
      | some x => want h x.2.1
      | none =>
        if !s.readRoom h cls then (s, none)
        else match (if Pm.rs (s.page (pageOf a)) = 0 then hs.head? else none) with
          | some x => if x.2.2.has l then (((s.takeRead h).inc F.HALL_SW_REMOTE_COUNT h 0 1).slotValue x.1 x.2.1 a) else want x.1 x.2.1
          | none =>
            let r := s.allocSlot h b .filling none
            match r.2 with
            | none => (r.1, none)
            | some k =>
              let s := r.1.inc F.HALL_SW_FILL_COUNT h 0 1
              match leastBy (fun x => routeHops 16 x.1 h * 128 + x.1) hs with
              | some x =>
                let s := ((s.takeRead h).copySlot x.1 x.2.1 h k).upSlot h k (fun y => y.settle true)
                if ((s.slot? h k).map (fun y => y.has l)).getD false then s.slotValue h k a else (s, none)
              | none => (s, none)

/-- Serve a tile's read of its own partition's range, or leave it waiting (R231–R233, R238). -/
def State.serveRead (s : State) (n id a flight : Nat) : State :=
  let h := n / 64
  let give := fun (r : State × Option LineVal) => match r.2 with | some v => r.1.giveLine n id a v | none => r.1.waitLine n id a
  if (s.holders (blockOf a)).any (fun x => x.1 == h && x.2.2.has (a / 64 % 1024) && x.2.2.state != .moving) then give (s.hallRead h 2 a)
  else match s.pfPending ((s.partOf n).getD 8) (blockOf a) flight with
    | some e => if s.waits.contains ⟨n, id, a⟩ then s else (s.pfLate h e flight).waitLine n id a
    | none => give (s.hallRead h 2 a)
/-- Serve a read that joined an occurrence's fill once its block is placed (R238): from its own hall's slot, else remotely from the nearest
hall that holds it. A block that lies in no gallery is read on demand. -/
def State.serveJoined (s : State) (n id a flight : Nat) : State :=
  let h := n / 64
  match leastBy (fun x => routeHops 16 x.1 h * 128 + x.1) ((s.holders (blockOf a)).filter (fun x => x.2.2.has (a / 64 % 1024))) with
  | some x =>
    let r := (if x.1 = h then s else (s.takeRead h).inc F.HALL_SW_REMOTE_COUNT h 0 1).slotValue x.1 x.2.1 a
    (match r.2 with | some v => r.1.giveLine n id a v | none => r.1)
  | none => s.serveRead n id a flight

/-- LINE_READ_REQUEST (R218, R220, R229–R235, R238, R254, R327): a line that stream load `id` of tile n needs is asked for, or asked again
while it waits. -/
def execLineReadRequest (n id a : Nat) (s : State) : Res :=
  onTile n 0 (
    match (s.tile n).instr? id, s.partOf n with
    | some i, some p =>
      let first := !s.waits.contains ⟨n, id, a⟩
      if i.eng ≠ 2 ∨ a % 64 ≠ 0 ∨ !s.stMayRead n i a then s
      else (if St.tgt i.desc = 1 then
        let c := St.peer i.desc
        if first ∧ s.peerUp c then
          (s.peerSend c 1 2 1 a 0 0 0 (fun q => some (.read 2 q n id a 1))).waitLine n id a
        else s
      else
        let e := pageOf a
        let why := s.pageReason p e false
        if why ≠ 0 then (s.memRefuse (n / 64) p e why false i.flight).giveLine n id a ⟨0, true⟩
        else if s.resultHeld p a then (if first then (s.inc F.COLL_HELD_R_COUNT p 0 1).waitLine n id a else s)
        else if s.mending a then s.waitLine n id a
        else s.serveRead n id a i.flight).stWindow n
    | _, _ => s)

/-! Reads of peers (R220, R254, R327). -/

/-- Bit i for each poisoned line i (Table 12.5, PMASK). -/
def poisonMask (l : List LineVal) : Nat := (l.zipIdx.map (fun v => if v.1.poison then 2 ^ v.2 else 0)).sum
/-- Lines as a payload. -/
def linesVal (l : List LineVal) : Nat := (l.zipIdx.map (fun v => (if v.1.poison then 0 else v.1.data.toNat) * 2 ^ (512 * v.2))).sum
/-- The lines of a READ: their addresses. -/
def PeerRead.lines (x : PeerRead) : List Nat := (List.range x.n).map (fun i => x.addr + 64 * i)
/-- Answer a peer's READ for partition p: refused, served, or none while a line is held or under repair. -/
def State.answerRead (s : State) (p : Nat) (x : PeerRead) : State × Bool :=
  let resp := fun (s : State) (st : Nat) (ls : List LineVal) =>
    s.peerSend x.ctx 2 x.cls st (x.seq % 2 ^ 32) (poisonMask ls) (64 * ls.length) (linesVal ls) (fun _ => none)
  match x.lines.find? (fun a => decide (2 ^ 42 ≤ a) || s.pageReason p (pageOf a) false != 0) with
  | some a =>
    let why := if 2 ^ 42 ≤ a then 1 else s.pageReason p (pageOf a) false
    (resp ((s.partFault p).event (some p) 0x8304 [(pageOf a, 4), (why, 1), (0, 1), (0, 1)]) 9 [], true)
  | none =>
    if x.lines.any (fun a => s.resultHeld p a) then (s, false)
    else
      let r := s.readLines x.addr x.n
      match r.2 with
      | some ls => (resp r.1 0 ls, true)
      | none => (r.1, false)
/-- Answer the peers' reads that can be answered now. (DEDUCED, unsafe: log 62) -/
def State.servePeerReads (s : State) : State :=
  s.peerReads.foldl (fun (s : State) (x : PeerRead) =>
    match s.peer? x.ctx with
    | some c =>
      let r := s.answerRead c.lpart x
      if r.2 then { r.1 with peerReads := r.1.peerReads.erase x } else r.1
    | none => { s with peerReads := s.peerReads.erase x }) s

/-! Frame reads and fills. -/

/-- A slot that waits for line l of block b from its frame. -/
def State.wanting (s : State) (b l : Nat) : Option (Nat × Nat) :=
  ((s.holders b).find? (fun x => !x.2.2.has l && (x.2.2.state == .filling || Sparse.get false x.2.2.want l) &&
    !s.flying.any (fun y => y.hall == x.1 && y.slot == x.2.1 && y.line == l))).map (fun x => (x.1, x.2.1))

/-- FRAME_LINE_READ (R226, R234, R241, R242): the controller reads line l of frame f. Where a slot waits for it and its stairwell has a
line read free, the line is on its way to the slot: a fill, at class 2 (R232), since no line read of a tile has class 0 (R16). -/
def execFrameLineRead (f l : Nat) (s : State) : Res :=
  if numFrames ≤ f ∨ frameLines ≤ l then .fault .noSuchUnit
  else .next (
    let w := (s.pageOfFrame f).bind (fun e => s.wanting (e * 128 + l / 1024) (l % 1024))
    match w with
    | some x =>
      if !(s.readRoom x.1 2 && s.readShare x.1 (((s.pageOfFrame f).getD 0) * 2 ^ 23 + l * 64)) then s
      else
        let r := s.readFrame f l (some x.1) false
        match r.2 with
        | some v =>
          let s : State := { r.1 with flying := r.1.flying ++ [(⟨x.1, x.2, l % 1024, v⟩ : FillLine)] }
          s.hwm F.HALL_SW_OUT_HWM x.1 0 (s.outReads x.1)
        | none => r.1
    | none => (s.readFrame f l none false).1)

/-- Serve the reads that wait for the line at a with its value. -/
def State.serveWaits (s : State) (h a : Nat) (v : LineVal) : State :=
  let b := blockOf a
  (s.waits.filter (fun w => w.addr == a)).foldl (fun s w =>
    match (s.tile w.tile).instr? w.id, s.partOf w.tile with
    | some i, some p =>
      if St.tgt i.desc = 0 ∧ !s.resultHeld p a ∧ (s.pfPending p b i.flight).isNone then
        (if w.tile / 64 = h then s else s.inc F.HALL_SW_REMOTE_COUNT (w.tile / 64) 0 1).giveLine w.tile w.id a v
      else s
    | _, _ => s) s

/-- FILL_LINE_ARRIVAL (R230, R231): line l of the slot arrives from its frame; a line written meanwhile stays. Waiting reads are served. -/
def execFillLineArrival (h k l : Nat) (s : State) : Res :=
  if numHalls ≤ h ∨ 768 ≤ k ∨ 1024 ≤ l then .fault .noSuchUnit
  else .next (
    match s.flying.find? (fun x => x.hall == h && x.slot == k && x.line == l), s.slot? h k with
    | some x, some y =>
      let s := { s with flying := s.flying.filter (fun z => !(z.hall == h && z.slot == k && z.line == l)) }
      if y.has l then s
      else
        let a := y.block * 2 ^ 16 + l * 64
        let rs := Pm.rs (s.page (pageOf a)) == 1
        let s := s.upSlot h k (fun y => { y with lines := Sparse.insert y.lines l (galStore x.val.data.toNat x.val.poison), want := Sparse.erase y.want l }.settle rs)
        s.serveWaits h a x.val
    | some _, none => { s with flying := s.flying.filter (fun z => !(z.hall == h && z.slot == k && z.line == l)) }
    | none, _ => s)

/-- WRITE_BACK_DONE (R231–R233): an EVICTING slot's modified lines are in their frame, and the slot is free. -/
def execWriteBackDone (h k : Nat) (s : State) : Res :=
  if numHalls ≤ h ∨ 768 ≤ k then .fault .noSuchUnit
  else .next (
    match s.slot? h k with
    | some x => if x.state = .evicting then (s.writeBack h k).freeSlot h k else s
    | none => s)

/-! Line writes. -/

/-- The oldest line write of tile n that the stairwell has not taken, with its instruction. -/
def Tile.nextOut (t : Tile) : Option LineOut := t.lineOut.find? (fun l => !l.issued)

/-- The stairwell takes the oldest line write (`held` in the contribution area); after the last one of its store the store completes (R88). -/
def State.outTaken (s : State) (n : Nat) (l : LineOut) (peer : Option (Nat × Nat)) (held : Bool) : State :=
  let mark := fun (ls : List LineOut) => match ls.findIdx? (fun x => !x.issued) with
    | some k => ls.modify k (fun x => { x with issued := true, peer := peer, held := held })
    | none => ls
  let s := s.upTile n (fun t => { t with lineOut := mark t.lineOut })
  (if (s.tile n).lineOut.any (fun x => x.id == l.id && !x.issued) then s else s.complete n l.id).stWindow n

/-- Apply hall h's write of the line at a, allocating a slot where no gallery holds the block (R231). False while it must wait. -/
def State.hallWrite (s : State) (h a : Nat) (data : BitVec 512) (mask : BitVec 64) (poison : Bool) : State × Bool :=
  if !(s.holders (blockOf a)).isEmpty then s.writeLineFor (some (((s.holders (blockOf a)).head?.map (·.1)).getD h)) a data mask poison
  else if s.mending a then (s, false)
  else
    let r := if mask = BitVec.allOnes 64 then (s, some ⟨0, false⟩) else s.readLineFor (some h) a
    match r.2 with
    | none => (r.1, false)
    | some old =>
      let q := r.1.allocSlot h (blockOf a) .modified none
      match q.2 with
      | some k => (q.1.storeSlot h k (a / 64 % 1024) (LineVal.merge old data mask poison), true)
      | none => (q.1, false)

/-- Whether the line at a is the DONE word group of an incoming link (R298): link k. -/
def State.doneLink (s : State) (p a : Nat) : Option Nat :=
  (List.range 2).find? (fun k => s.g F.SP_IN_CFG_VALID p k == 1 && s.g F.SP_IN_DONE_DONE p k == a)

/-- A tile's line write within its own range that is none of the contribution area: refused, held for a copy, or applied (R220, R231,
R235, R240, R242). -/
def State.ownWrite (s : State) (n p : Nat) (l : LineOut) (flight : Nat) : State × Bool :=
  let e := pageOf l.addr
  let why := s.pageReason p e true
  if why ≠ 0 then ((s.memRefuse (n / 64) p e why true flight).outTaken n l none false, false)
  else if s.pageHeld e then (if Pm.hold (s.page e) = 1 then s.askCopy e (some (n / 64)) else s, false)
  else
    let r := s.hallWrite (n / 64) l.addr l.data l.mask l.poison
    if r.2 then (r.1.outTaken n l none false, true) else (r.1, false)

/-- LINE_WRITE_REQUEST (R218, R220, R227, R231, R235, R240, R327): the stairwell takes tile n's oldest line write. Lines of the
contribution area and a link's DONE line have rows of their own. -/
def execLineWriteRequest (n : Nat) (s : State) : Res :=
  onTile n 0 (
    match (s.tile n).nextOut, s.partOf n with
    | some l, some p =>
      match (s.tile n).instr? l.id with
      | some i =>
        if !s.stMayWrite n then s
        else if St.tgt i.desc = 1 then
          let c := St.peer i.desc
          if !s.peerUp c then s
          else
            let q := s.peerNext c 2
            let pm := if l.poison then 1 else 0
            (s.peerSend c 0 2 (l.id % 2 ^ 16) l.addr pm 64 l.data.toNat (fun q => some (.write 2 q n l.id))).outTaken n l (some (c, q)) false
        else if s.inCarea p l.addr ∨ (s.doneLink p l.addr).isSome then s
        else (s.ownWrite n p l i.flight).1
      | none => s
    | _, _ => s)

/-! The page map's cut (R222). -/

/-- A page's blocks are written back, and every copy that stays is SHARED: it is read-shared from now on. -/
def State.sharePage (s : State) (e : Nat) : State :=
  let s := s.writeBackPage e
  { s with halls := s.halls.map (fun h => (h.1, { h.2 with slots := h.2.slots.map (fun x =>
    if x.2.block / 128 = e ∧ (x.2.state = .clean ∨ x.2.state = .moving) then (x.1, { x.2 with state := .shared }) else x) })) }
/-- What a change of entry e to `new` brings about: write-back when the page becomes read-shared, copies dropped when it becomes
read-write or is freed; a freed page's frame goes to the retired list when RETIRE is set. A page that stays mapped keeps its entry as it then
stands, but for RS: a repair may have moved it since the command (R243). -/
def State.applyEntry (s : State) (e : Nat) (new : BitVec 64) : State :=
  let old := s.page e
  if Pm.valid old = 1 ∧ Pm.valid new = 1 then
    let s := if Pm.rs old = 0 ∧ Pm.rs new = 1 then s.sharePage e else if Pm.rs old = 1 ∧ Pm.rs new = 0 then s.dropPage e else s
    s.setPage e (Pm.setRs (s.page e) (Pm.rs new))
  else
    let s := if Pm.valid old = 1 then s.dropPage e else s
    let s := if Pm.valid old = 1 ∧ Pm.retire old = 1 then s.retireFrame (Pm.frame old) else s
    s.setPage e new
/-- Whether an access translated under the entries of these pages has yet to end: a read or a held line, a repair, or a write that waits for a copy. -/
def State.cutWaits (s : State) (es : List Nat) : Bool :=
  s.waits.any (fun w => s.ownWait w && es.contains (pageOf w.addr)) || s.peerReads.any (fun x => x.lines.any (fun a => es.contains (pageOf a))) ||
  s.coll.any (fun c => c.2.held.any (fun x => es.contains (pageOf x.addr))) || s.repairs.any (fun r => es.contains r.page) ||
  s.copies.any (fun c => es.contains c.page)

/-- PAGE_MAP_CUT (R222): every stairwell, port stop and the collective engine has passed the oldest cut: its changes are made, and a
command that waited for it completes. Accesses translated before it end first. (DEDUCED, unsafe: log 50) -/
def execPageMapCut (s : State) : Res :=
  .next (
    match s.cuts with
    | c :: rest =>
      if s.cutWaits (c.pages.map (·.1)) then s
      else
        let s := c.pages.foldl (fun s x => s.applyEntry x.1 x.2) { s with cuts := rest }
        match c.cmd with
        | some r => s.cmdDone r 0
        | none => s
    | [] => s)

/-! Copy before write, repair (R240–R242). -/

/-- COPY_DONE (R240): a frame of the pool holds the page's image, HOLD is clear, and the held writes are released. -/
def execCopyDone (e : Nat) (s : State) : Res :=
  if 524288 ≤ e then .fault .noSuchUnit
  else .next (
    if !s.copies.any (fun c => c.page == e) then s
    else if Pm.hold (s.page e) = 0 then s.releaseHeld e
    else match s.pool with
      | f :: rest =>
        let r := s.copyPage e f false
        if r.2 then
          ({ r.1 with pool := rest }.setPage e (Pm.setHold (Pm.setCopyv (Pm.setCopyf (r.1.page e) f) 1) 0)).releaseHeld e
        else r.1
      | [] => s)

/-- A repair failed (R241, R242): the line is lost, unless a write-back has come first. -/
def State.repairFail (s : State) (e l : Nat) : State :=
  let stale := s.repairs.any (fun r => r.page == e && r.line == l && !r.copying && r.stale)
  let s : State := { s with repairs := s.repairs.filter (fun r => !(r.page == e && r.line == l && !r.copying)) }
  let s := s.inc F.GMEM_REPAIR_FAILED 0 0 1
  if stale then s else s.loseLine (Pm.frame (s.page e)) l true
/-- A repair read was answered (Table 8.8, step 4): the line is written into its frame unless a write-back has come first, and the page's
copy is due. -/
def State.repairLine (s : State) (e l data : Nat) : State :=
  let stale := s.repairs.any (fun r => r.page == e && r.line == l && !r.copying && r.stale)
  let s : State := { s with repairs := s.repairs.filter (fun r => !(r.page == e && r.line == l && !r.copying)) }
  let s := s.inc F.GMEM_REPAIR_REPAIRED 0 0 1
  let s := if stale then s else s.writeFrame (Pm.frame (s.page e)) l data false
  if s.repairs.any (fun r => r.page == e && r.copying) then s else { s with repairs := s.repairs ++ [⟨e, l, s.now, true, false, []⟩] }

/-- REPAIR_TIMEOUT (R242): no reply came within 100 µs. -/
def execRepairTimeout (e l : Nat) (s : State) : Res :=
  if 524288 ≤ e ∨ frameLines ≤ l then .fault .noSuchUnit
  else .next (
    match s.repairs.find? (fun r => r.page == e && r.line == l && !r.copying) with
    | some r => if s.now < r.since + 100000 then s else (s.repairFail e l).servePeerReads
    | none => s)

/-- REPAIR_PAGE_COPY_DONE (R242, step 5; R243): the page lies in a fresh frame, and its old frame is retired. With no free frame it stays
where it is with RETIRE set. -/
def execRepairPageCopyDone (e : Nat) (s : State) : Res :=
  if 524288 ≤ e then .fault .noSuchUnit
  else .next (
    match s.repairs.find? (fun r => r.page == e && r.copying) with
    | some r =>
      let done := fun (s : State) => { s with repairs := s.repairs.filter (fun x => !(x.page == e && x.copying)) }
      match s.freeFrame with
      | none => (done s).setPage e (Pm.setRetire (s.page e) 1)
      | some f =>
        let q := s.copyPage e f true
        if q.2 then
          let old := Pm.frame (q.1.page e)
          let dirty := q.1.allSlots.any (fun x => x.2.2.block / 128 == e && !x.2.2.dirty.isEmpty)
          let v := Pm.setRetire (Pm.setFrame (q.1.page e) f) 0
          let s := ((done q.1).setPage e (if dirty then Pm.setWsc v 1 else v)).retireFrame old
          s.event (some (Pm.owner v)) 0x8303 [(e, 4), (r.line, 4), (old, 4)]
        else q.1
    | none => s)

/-! The controllers' own work (R223, R227). -/

/-- PATROL_SCRUB (R226, R227): controller m reads the next group of its stack, its eight lines with their check line; after the last of
its 32 × 7,456,528 groups a pass is complete. Lines that no entry lists hold zeros and are clean. -/
def execPatrolScrub (m : Nat) (s : State) : Res :=
  if 32 ≤ m then .fault .noSuchUnit
  else .next (
    let k := Sparse.get 0 s.patrol m
    let c := k % 32
    let g := k / 32
    let f := g / 16
    let ls := (s.frames.filter (fun x => x.1 / frameLines == f && (let p := place f (x.1 % frameLines); p.1 == m && p.2.1 == c && p.2.2.1 / 576 == g))).map (fun x => x.1 % frameLines)
    let s := ls.foldl (fun s l => (s.classifyFrame f l none true).1) (s.useGroup (32 * m + c) g)
    if k + 1 < 32 * 7456528 then { s with patrol := Sparse.put 0 s.patrol m (k + 1) }
    else { s.inc F.MEMC_SCRUB_PASSES m 0 1 with patrol := Sparse.put 0 s.patrol m 0 })

/-- MR4_READOUT (R223): controller m reads MR4 from its 16 dies: `codes` holds die d's refresh-rate code in bits [3d + 2 : 3d], `temp` is the
stack's temperature in °C, which is also sensor 86 + m (R353). The hottest die's code is shown. (DESIGN CHOICE, unsafe: log 59) -/
def execMr4Readout (m codes temp : Nat) (s : State) : Res :=
  if 32 ≤ m then .fault .noSuchUnit
  else
    let l := (List.range 16).map (fun d => codes / 2 ^ (3 * d) % 8)
    let s := { s with mr4 := l.zipIdx.foldl (fun t (p : Nat × Nat) => Sparse.put 0 t (m * 16 + p.2) p.1) s.mr4 }
    .next (((s.w F.MEMC_STATUS_RATE m 0 (l.foldl max 0)).w F.MEMC_STATUS_TEMP m 0 temp).sensorRead (86 + m) (1000 * (temp : Int)))

/-- REFRESH (R223): a refresh command leaves every line as it is; a refresh-management command is counted. -/
def execRefresh (m die : Nat) (rfm : Bool) (s : State) : Res :=
  if 32 ≤ m ∨ 16 ≤ die then .fault .noSuchUnit
  else .next (if rfm then s.inc F.MEMC_RFM_COUNT m 0 1 else s)

end Sys2Proof.Machine
end

