-- ==== Sys2Proof/Machine/Prefetch.lean ====
section
/-! DEFINITION. Compiled prefetch (spec 08_global_memory.md, R236–R238): activation of occurrences and placing of blocks. -/

namespace Sys2Proof.Machine

def Prefetch.none_ : Prefetch := ⟨[], 0, 0, []⟩
def State.pf (s : State) (p : Nat) : Prefetch := Sparse.get Prefetch.none_ s.prefetch p
def State.upPf (s : State) (p : Nat) (f : Prefetch → Prefetch) : State := { s with prefetch := Sparse.upd Prefetch.none_ s.prefetch p f }

/-- The named halls of an entry, as device halls in ascending local order (R237). -/
def State.pfHalls (s : State) (p : Nat) (x : PfEntry) : List Nat :=
  ((s.hallsOf p).zipIdx.filter (fun h => x.halls / 2 ^ h.2 % 2 == 1)).map (·.1)
/-- The halls in which block i of an entry is to lie (R237); on a read-write page a COPY moves it to the lowest named hall. -/
def State.pfTargets (s : State) (p : Nat) (x : PfEntry) (i : Nat) : List Nat :=
  let hs := s.pfHalls p x
  let rs := Pm.rs (s.page ((x.block + i) / 128)) == 1
  if x.op = 0 then (hs[i % max 1 hs.length]?).toList else if x.op = 1 then (if rs then hs else hs.take 1) else []

/-- Blocks that a MOVE will take from another hall are MOVING from its activation on (Table 8.4). -/
def State.pfMark (s : State) (p : Nat) (x : PfEntry) : State :=
  if x.op = 2 then s
  else { s with halls := s.halls.map (fun h => (h.1, { h.2 with slots := h.2.slots.map (fun e =>
    match x.index e.2.block with
    | some i =>
      if s.pageReason p (e.2.block / 128) false = 0 ∧ Pm.rs (s.page (e.2.block / 128)) = 0 ∧ (e.2.state = .clean ∨ e.2.state = .modified) ∧
          !(s.pfTargets p x i).contains h.1 then (e.1, { e.2 with state := .moving }) else e
    | none => e) })) }

/-- Show the unit's position in GMEM.PF_STATE. -/
def State.pfShow (s : State) (p : Nat) : State :=
  let x := s.pf p
  ((s.w F.GMEM_PF_STATE_NEXT 0 p x.next).w F.GMEM_PF_STATE_ITER 0 p x.iter).w F.GMEM_PF_STATE_ACTIVE 0 p x.active.length

/-- Activate in schedule order the occurrences with T ≤ n + AHEAD, compared by R167, at most 64 at once (R237). -/
def State.pfLoop (p n : Nat) : Nat → State → State
  | 0, s => s
  | k + 1, s =>
    let x := s.pf p
    match x.entries[x.next]? with
    | none => s
    | some e =>
      let per := s.g F.GMEM_PF_PERIOD_PERIOD 0 p
      let t := add32 e.flight (x.iter * per)
      if 64 ≤ x.active.length ∨ diff32 (n + s.g F.GMEM_PF_CFG_AHEAD 0 p) t < 0 then s
      else
        let last := x.next + 1 == x.entries.length && per != 0
        let s := s.upPf p (fun x => { x with
          next := if last then 0 else x.next + 1, iter := if last then x.iter + 1 else x.iter
          active := x.active ++ [⟨x.next, x.iter, t, List.range e.nblk⟩] })
        (s.pfMark p e).pfLoop p n k
/-- Activation at launch (n = 0) and whenever landing n completes. -/
def State.pfActivate (s : State) (p n : Nat) : State := (s.pfLoop p n 64).pfShow p

/-- Read every line of block b that a slot lacks from its frame; false while the stairwell has no line read free or a line is under repair. -/
def State.fillSlot (s : State) (h k b : Nat) : State × Bool :=
  let miss := ((s.slot? h k).map (fun x => (List.range 1024).filter (fun l => !x.has l))).getD []
  if !miss.isEmpty && !s.readRoom h 2 then (s, false)
  else
  miss.foldl (fun a l =>
    let ad := b * 2 ^ 16 + l * 64
    let r := a.1.readFrame (Pm.frame (a.1.page (pageOf ad))) (pageLine ad) (some h) false
    match r.2 with
    | some v => (r.1.upSlot h k (fun x => { x with lines := Sparse.insert x.lines l (galStore v.data.toNat v.poison), want := Sparse.erase x.want l }), a.2)
    | none => (r.1, false)) (if miss.isEmpty then s else s.takeRead h, true)

/-- The later of the flights that protect a slot (R237). -/
def laterProt (old : Option Nat) (t : Nat) : Nat := match old with | some u => if 0 ≤ diff32 t u then t else u | none => t
/-- Give the slot in which a block now lies whole its state and protection. -/
def State.pfSettle (s : State) (h k t : Nat) (rs : Bool) : State :=
  s.upSlot h k (fun x => { x with state := if !x.dirty.isEmpty then .modified else if rs then .shared else .clean, want := [], prot := some (laterProt x.prot t) })

/-- Place block b in hall h (R237): from the gallery that holds it, else from its frame. False while something must end first; a block whose fill had
to wait is counted when it is whole. (DEDUCED, unsafe: log 51) -/
def State.pfPlace (s : State) (h b t : Nat) (rs : Bool) : State × Bool :=
  let hs := s.holders b
  match hs.find? (fun x => x.1 == h) with
  | some x =>
    if x.2.2.state = .evicting then (s, false)
    else
      let r := s.fillSlot h x.2.1 b
      let mine := x.2.2.state == .filling && x.2.2.prot.isSome
      if r.2 then ((if mine then r.1.inc F.HALL_SW_PFILL_COUNT h 0 1 else r.1).pfSettle h x.2.1 t rs, true) else (r.1, false)
  | none =>
    if hs.any (fun x => x.2.2.state == .filling || x.2.2.state == .evicting) then (s, false)
    else
      let q := s.allocSlot h b .filling (some t)
      match q.2 with
      | none => (q.1, false)
      | some k =>
        let s := match hs with
          | x :: _ =>
            let s := q.1.copySlot x.1 x.2.1 h k
            if rs then s else (s.freeSlot x.1 x.2.1).upSlot h k (fun y => { y with dirty := x.2.2.dirty })
          | [] => q.1
        let r := s.fillSlot h k b
        if r.2 then ((r.1.pfSettle h k t rs).inc F.HALL_SW_PFILL_COUNT h 0 1, true) else (r.1, false)

/-- PREFETCH_BLOCK_PLACED (R233, R237, R238): block i of the j-th active occurrence of partition p is in place, dropped or skipped; the reads
that waited for it are served, and after its last block the occurrence has completed. -/
def execPrefetchBlockPlaced (p j i : Nat) (s : State) : Res :=
  if 8 ≤ p then .fault .noSuchUnit
  else .next (
    match (s.pf p).active[j]? with
    | none => s
    | some o =>
      match (s.pf p).entries[o.entry]? with
      | none => s
      | some x =>
        if !o.todo.contains i then s
        else
          let b := x.block + i
          let e := b / 128
          let why := s.pageReason p e false
          let rs := Pm.rs (s.page e) == 1
          let r : State × Bool :=
            if why ≠ 0 then ((s.inc F.GMEM_PF_SKIP_COUNT 0 0 1).event (some p) 0x8304 [(e, 4), (why, 1), (0, 1), (1, 1)], true)
            else if x.op = 2 then
              let hs := s.holders b
              if hs.any (fun y => y.2.2.state == .filling || y.2.2.state == .evicting) then (s, false)
              else (hs.foldl (fun s y => (s.writeBack y.1 y.2.1).freeSlot y.1 y.2.1) s, true)
            else (s.pfTargets p x i).foldl (fun a h => if a.2 then a.1.pfPlace h b o.target rs else a) (s, true)
          if !r.2 then r.1
          else
            let todo := o.todo.filter (· != i)
            let s := r.1.upPf p (fun y => { y with active := if todo.isEmpty then y.active.eraseIdx j else y.active.modify j (fun o => { o with todo := todo }) })
            let s := if todo.isEmpty then s.inc F.GMEM_PF_DONE_COUNT 0 p 1 else s
            let s := (s.waits.filter (fun w => blockOf w.addr == b)).foldl (fun s w =>
              match (s.tile w.tile).instr? w.id, s.partOf w.tile with
              | some d, some q => if St.tgt d.desc = 0 ∧ q = p ∧ !s.resultHeld p w.addr then s.serveJoined w.tile w.id w.addr d.flight else s
              | _, _ => s) s
            s.pfActivate p (s.g F.LAND_NUM_DONE p))

end Sys2Proof.Machine
end

