-- ==== Sys2Proof/Machine/Spill.lean ====
section
/-! DEFINITION. Spill mode (spec 07_message_channels.md, R206, R210–R212, Table 7.9): records of queued messages in byte space. -/

namespace Sys2Proof.Machine

/-! Records (R211). -/

/-- The area a channel's records lie in: 64 for the tile's default area, else the channel. -/
def State.spArea (s : State) (n k : Nat) : Nat := if (s.inC n k).spsize = 0 then 64 else k
/-- The size of an area in word groups. -/
def State.spSize (s : State) (n k : Nat) : Nat := if (s.inC n k).spsize = 0 then 128 else (s.inC n k).spsize
/-- The records of an area. -/
def State.spRecs (s : State) (n k : Nat) : List SpillRec :=
  (s.tile n).spills.filter (fun r => if s.spArea n k = 64 then r.dflt else !r.dflt && r.chan == k)
/-- Word groups of a record of a message of `len` words. -/
def spGroups (len : Nat) : Nat := (len + 15) / 16
/-- Where the next record of the area goes: behind the latest, from the base where it would pass the end; none while it lacks room. (DEDUCED, unsafe: log 36) -/
def State.spPlace (s : State) (n k len : Nat) : Option Nat :=
  let g := spGroups len
  let size := s.spSize n k
  let at_ := Sparse.get 0 (s.tile n).spNext (s.spArea n k)
  let at_ := if size < at_ + g then 0 else at_
  if size < g || (s.spRecs n k).any (fun r => overlaps at_ (at_ + g) r.wg (r.wg + spGroups r.len)) then none else some at_

/-- The 64-byte lines of a record: 16 words of 12 bytes in three lines, the last group padded with zero words (R6, R211); a line that holds
a byte of a poisoned word carries poison (R212). -/
def spLines (words : List (Nat × Bool)) : List LineVal :=
  let v := (words.zipIdx.map (fun p => p.1.1 * 2 ^ (96 * p.2))).sum
  (List.range (3 * spGroups words.length)).map (fun i =>
    let bad := words.zipIdx.any (fun p => p.1.2 && overlaps (12 * p.2) (12 * p.2 + 12) (64 * i) (64 * i + 64))
    ⟨if bad then 0 else BitVec.ofNat 512 (v / 2 ^ (512 * i)), bad⟩)
/-- The words that lines hold, each poisoned where one of its bytes is. -/
def spWords (lines : List LineVal) (len : Nat) : List (Nat × Bool) :=
  let b := lineBytes lines
  (List.range len).map (fun i =>
    let w := (b.drop (12 * i)).take 12
    let bad := w.any (·.2)
    (if bad then 0 else leVal (w.map (·.1)), bad))

/-! Lines of the default area, in the reserved frames from 16 up: 24,576 bytes a tile (R211, R221). -/

def spFrame (n off : Nat) : Nat := 16 + (24576 * n + off) / 2 ^ 23
def spLine (n off : Nat) : Nat := (24576 * n + off) % 2 ^ 23 / 64

/-- Write a record's lines from byte `off` of the tile's area: false while one of them must wait (R240) and the write is to be made again. A
refused access writes nothing (R220); lines of the contribution area are judged as every write is (R249). -/
def State.spWrite (s : State) (n k p off : Nat) : List LineVal → State × Bool
  | [] => (s, true)
  | v :: rest =>
    if s.spArea n k = 64 then
      (s.writeFrame (spFrame n off) (spLine n off) v.data.toNat v.poison).spWrite n k p (off + 64) rest
    else
      let a := (s.inC n k).spbase + off
      let e := pageOf a
      let why := s.pageReason p e true
      if why ≠ 0 then (s.memRefuse (n / 64) p e why true (s.tile n).flight).spWrite n k p (off + 64) rest
      else if s.contribHeld p a then (s.contribHold p ⟨a, v.data, BitVec.allOnes 64, v.poison, .unit⟩).spWrite n k p (off + 64) rest
      else if s.pageHeld e then (if Pm.hold (s.page e) = 1 then s.askCopy e (some (n / 64)) else s, false)
      else
        let r := s.hallWrite (n / 64) a v.data (BitVec.allOnes 64) v.poison
        if r.2 then (r.1.contribCount p a (BitVec.allOnes 64)).spWrite n k p (off + 64) rest else r

/-- Read `m` lines from byte `off` of the tile's area: none while one of them is on its way, held (R254) or under repair; a refused read delivers
poison (R220). -/
def State.spRead (s : State) (n k p off : Nat) : Nat → State × Option (List LineVal)
  | 0 => (s, some [])
  | m + 1 =>
    let a := (s.inC n k).spbase + off
    let why := if s.spArea n k = 64 then 0 else s.pageReason p (pageOf a) false
    let r : State × Option LineVal :=
      if s.spArea n k = 64 then s.readFrame (spFrame n off) (spLine n off) none false
      else if why ≠ 0 then (s.memRefuse (n / 64) p (pageOf a) why false (s.tile n).flight, some ⟨0, true⟩)
      else
        let q := s.holdRead p (64 * n + k) a 64
        if q.2 || s.mending a then (q.1, none) else s.hallRead (n / 64) 1 a
    match r.2 with
    | none => (r.1, none)
    | some v =>
      let q := r.1.spRead n k p (off + 64) m
      (q.1, q.2.map (v :: ·))

/-! The rows. -/

/-- A message whose words wait in the ring for the handler context. -/
def RingMsg.waiting (m : RingMsg) : Bool := m.queued && !m.offered && !m.spilled

/-- SPILL (R211, Table 7.9, step 1): where the waiting words of channel k of tile n reach 128 × SPMARK, the oldest such message is
picked and takes a record, or the area is full and the event is counted. -/
def execSpill (n k : Nat) (s : State) : Res :=
  onTile n 0 (
    let c := s.inC n k
    let l := c.msgs.filter (·.waiting)
    if 64 ≤ k ∨ s.g F.CHI_CFG_OPEN n k = 0 ∨ s.g F.CHI_CFG_MODE n k = 0 ∨ (l.map (·.hdr.len)).sum < 128 * c.spmark then s
    else match l.find? (fun m => !(s.tile n).spills.any (fun r => r.chan == k && r.pid == m.pid)) with
      | none => s
      | some m =>
        match s.spPlace n k m.hdr.len with
        | none => s.inc F.HALL_MSG_PORT_SPILL_FULL (n / 64) (n % 64) 1
        | some at_ => s.upTile n (fun t => { t with
            spills := t.spills ++ [⟨k, m.pid, s.spArea n k == 64, at_, m.hdr.len, false⟩],
            spNext := Sparse.put 0 t.spNext (s.spArea n k) (at_ + spGroups m.hdr.len) }))

/-- SPILL_COPY_DONE (R211, R212, Table 7.9, steps 2 to 4): the oldest record of tile n still to be written holds its message, which is
released in the ring; a message that was offered meanwhile is not spilled. -/
def execSpillCopyDone (n : Nat) (s : State) : Res :=
  onTile n 0 (
    match (s.tile n).spills.find? (fun r => !r.copied), s.partOf n with
    | some r, some p =>
      match (s.inC n r.chan).msgs.find? (fun m => m.pid == r.pid) with
      | none => s.upTile n (fun t => { t with spills := t.spills.erase r })
      | some m =>
        if m.offered then s.upTile n (fun t => { t with spills := t.spills.erase r })
        else
          let q := s.readWords n 3 (s.tile n).flight ((List.range m.hdr.len).map (s.g F.CHI_STATE_RBASE n r.chan + m.hdr.off + ·))
          let ls := spLines q.2
          let w := q.1.spWrite n r.chan p (192 * r.wg) ls
          if !w.2 then w.1
          else
            let s := w.1.upTile n (fun t => { t with spills := t.spills.map (fun x => if x = r then { x with copied := true } else x) })
            let s := s.setCell (n / 64) m.cell 0 (cellWord r.chan m.hdr.off m.hdr.len (s.g F.CHI_CFG_HBASE n r.chan + m.hdr.sub) m.hdr.cls true true r.wg)
            let s := (s.inc F.CHI_WAIT_SPILLS n r.chan 1).inc F.HALL_SPILL_WG_COUNT (n / 64) 0 (spGroups m.hdr.len)
            (s.upMsg n r.chan m.pid (fun m => { m with spilled := true, released := true })).ringServe n r.chan
    | _, _ => s)

/-- SPILL_READBACK (R211, R212, Table 7.9, steps 5 and 6): the spilled item at the head of tile n's class-1 list is read back into RETBUF,
and may be offered. -/
def execSpillReadback (n : Nat) (s : State) : Res :=
  onTile n 0 (
    let l := (s.hall (n / 64)).listsOf (n % 64)
    match l.c1, s.partOf n with
    | c :: _, some p =>
     if l.dead then s
     else
      let r0 := s.tileCell n c 0
      let s := r0.1
      let w := r0.2.getD 0
      let k := Cell.ch w
      if r0.2.isNone ∨ Cell.spilled w = 0 ∨ (s.inC n k).inRet.isSome then s
      else match (s.inC n k).msgs.find? (fun m => m.cell == c && m.queued && !m.offered) with
        | some m =>
          let r := s.spRead n k p (192 * Cell.spoff w) (3 * spGroups m.hdr.len)
          match r.2 with
          | some ls =>
            let ws := spWords ls m.hdr.len
            let s := ws.zipIdx.foldl (fun s (x : (Nat × Bool) × Nat) => s.writeWord n ((s.inC n k).retbuf + x.2) x.1.1 x.1.2) r.1
            s.upIn n k (fun c => { c with inRet := some m.pid })
          | none => r.1
        | none => s
    | _, _ => s)

end Sys2Proof.Machine
end

