-- ==== Sys2Proof/Machine/CollData.lean ====
section
/-! DEFINITION. The collective engine's data (spec 09_collectives.md): elements as bytes, the order of reduction (R256), non-finite
records (R259), the encodings of R264–R266, the shards of R267 and R268, and the packets of R257 and Table 12.7. -/

namespace Sys2Proof.Machine

/-! The group (R246). -/

def State.cG (s : State) (p : Nat) : Nat := s.g F.COLL_GROUP_SIZE p
def State.cS (s : State) (p : Nat) : Nat := max 1 (s.g F.COLL_GROUP_NODE p)
def State.cR (s : State) (p : Nat) : Nat := s.g F.COLL_GROUP_RANK p
/-- The number of nodes. -/
def State.cN (s : State) (p : Nat) : Nat := s.cG p / s.cS p
/-- The peer context of node rank i of the own node. -/
def State.nodeCtx (s : State) (p i : Nat) : Option Nat := if s.g F.COLL_NPEER_VALID p i = 1 then some (s.g F.COLL_NPEER_CTX p i) else none
/-- The peer context of the same node rank in the next node. -/
def State.nextCtx (s : State) (p : Nat) : Option Nat := if s.g F.COLL_RING_NVALID p = 1 then some (s.g F.COLL_RING_NEXT p) else none

/-! Elements as bytes (R41, R248, R251). -/

/-- `n` consecutive pieces of k. -/
def pieces {α : Type} (k n : Nat) (l : List α) : List (List α) := (List.range n).map (fun i => (l.drop (k * i)).take k)
/-- Zero bytes to the next 64-byte boundary. -/
def pad64 (l : List (Nat × Bool)) : List (Nat × Bool) := l ++ List.replicate ((64 - l.length % 64) % 64) (0, false)
def up64 (n : Nat) : Nat := (n + 63) / 64 * 64
/-- Elements of `bits` bits as bytes, each byte poisoned where one of its elements is. -/
def packElems (bits : Nat) (l : List (Nat × Bool)) : List (Nat × Bool) :=
  let v := (l.zipIdx.map (fun p => p.1.1 % 2 ^ bits * 2 ^ (bits * p.2))).sum
  (List.range ((l.length * bits + 7) / 8)).map (fun i =>
    (v / 2 ^ (8 * i) % 256, ((l.drop (8 * i / bits)).take ((8 * i + 7) / bits - 8 * i / bits + 1)).any (·.2)))
/-- `n` elements of `bits` bits from bytes, each poisoned where one of its bytes is. -/
def unpackElems (bits n : Nat) (l : List (Nat × Bool)) : List (Nat × Bool) :=
  let v := leVal (l.map (·.1))
  (List.range n).map (fun i =>
    let bad := ((l.drop (bits * i / 8)).take ((bits * i + bits + 7) / 8 - bits * i / 8)).any (·.2)
    (if bad then 0 else v / 2 ^ (bits * i) % 2 ^ bits, bad))
/-- Poison widened to whole lines (R262). -/
def lineWiden (l : List (Nat × Bool)) : List (Nat × Bool) :=
  (pieces 64 ((l.length + 63) / 64) l).flatMap (fun b => if b.any (·.2) then b.map (fun _ => (0, true)) else b)
/-- Bytes as lines of byte space, the last padded with zero bytes. -/
def toLines (l : List (Nat × Bool)) : List LineVal :=
  (pieces 64 ((l.length + 63) / 64) l).map (fun b => if b.any (·.2) then ⟨0, true⟩ else ⟨BitVec.ofNat 512 (leVal (b.map (·.1))), false⟩)

/-! The order of reduction (R256). -/

/-- One operation of a reduction on elements (Table 6.5); a poisoned operand poisons its result (R262). -/
def redElem (rop : Nat) (a b : Nat × Bool) : Nat × Bool := if a.2 || b.2 then (0, true) else (routerOp rop a.1 b.1, false)
/-- What an empty tile set contributes (Table 2.11). -/
def redEmpty (rop : Nat) : Nat := match rop with | 3 => 0xFF800000 | 4 => 0x7F800000 | 5 => 0x80000000 | 6 => 0x7FFFFFFF | _ => 0
/-- D of R256: the tiles of a set, as local tile numbers with their elements, by tile within hall and then by hall. -/
def redTiles (rop : Nat) (l : List (Nat × (Nat × Bool))) : Nat × Bool :=
  let at_ := fun (t : Nat) => (l.find? (fun x => x.1 == t)).map (·.2)
  (treeFold (redElem rop) 7 ((List.range 72).map (fun h => treeFold (redElem rop) 6 ((List.range 64).map (fun t => at_ (64 * h + t)))))).getD
    (redEmpty rop, false)
/-- Nd of R256: the inputs of a node, element by element. -/
def redNode (rop m : Nat) (l : List (List (Nat × Bool))) : List (Nat × Bool) :=
  (List.range m).map (fun e => (treeFold (redElem rop) 4 (l.map (fun x => x[e]?))).getD (0, true))

/-! Non-finite records (R259). -/

def isNonfin (c : Nat) : Bool := decide (0x7F800000 ≤ c % 2 ^ 31)
/-- Whether a reduction watches for non-finite values. -/
def watches (rop : Nat) : Bool := rop == 1 || rop == 3 || rop == 4
def NfRec.before (a b : NfRec) : Bool :=
  (!a.arisen && b.arisen) || (a.arisen == b.arisen && (decide (a.elem < b.elem) || (a.elem == b.elem && decide (a.rank < b.rank))))
/-- The earlier of two records. -/
def nfMerge (a b : Option NfRec) : Option NfRec :=
  match a, b with
  | none, y => y
  | x, none => x
  | some x, some y => if y.before x then some y else some x

/-! Encodings (R264–R266). -/

/-- The index with the largest key, the lowest on ties. -/
def argMaxKey : List (Nat × Nat) → Option (Nat × Nat)
  | [] => none
  | x :: l => match argMaxKey l with
    | some y => if x.2 < y.2 then some y else some x
    | none => some x
/-- The first `k` indices in the order of R264; `l` pairs indices with keys. -/
def topSelect : Nat → List (Nat × Nat) → List Nat
  | 0, _ => []
  | k + 1, l => match argMaxKey l with
    | some x => x.1 :: topSelect k (l.filter (fun y => y.1 != x.1))
    | none => []
/-- |v| as R264 ranks it: NaN above every number; a poisoned element above all. -/
def topKey (v : Nat × Bool) : Nat := if v.2 then 2 ^ 32 else if f32Nan v.1 then 2 ^ 31 else v.1 % 2 ^ 31
/-- Round an FP32 code to another float format (R43, R46). -/
def narrowTo (f : Nat) (c : Nat) : Nat := (convT ⟨0, false, 0, 0, 0, 0⟩ f 0 (decodeFmt 0 true c)).1
/-- Top-k (R264): KEEP indices, then KEEP values. -/
def topEncode (k : Nat) (bf : Bool) (v : List (Nat × Bool)) : List (Nat × Bool) :=
  let sel := topSelect k (v.zipIdx.map (fun p => (p.2, topKey p.1)))
  let vals := sel.map (fun i => v[i]?.getD (0, false))
  let b := pad64 (packElems 32 (sel.map (fun i => (i, false)))) ++
    pad64 (if bf then packElems 16 (vals.map (fun x => (if x.2 then 0 else narrowTo fmtBF16 x.1, x.2))) else packElems 32 vals)
  if k < (v.filter (·.2)).length then b.map (fun _ => (0, true)) else b
def topDecode (k : Nat) (bf : Bool) (m : Nat) (b : List (Nat × Bool)) : List (Nat × Bool) :=
  let idx := unpackElems 32 k b
  let vb := b.drop (up64 (4 * k))
  let vals := if bf then (unpackElems 16 k vb).map (fun x => (x.1 * 2 ^ 16, x.2)) else unpackElems 32 k vb
  if idx.any (·.2) then List.replicate m (0, true)
  else (List.range m).map (fun i => match (idx.zip vals).find? (fun x => x.1.1 == i) with | some x => x.2 | none => (0, false))
/-- Sign (R265): a record of a block of 48. -/
def signBlock (v : List (Nat × Bool)) : List (Nat × Bool) :=
  let bad := v.any (·.2)
  let sum := (treeFold routerAdd32 6 (v.map (fun x => some (x.1 % 2 ^ 31)))).getD 0
  let a := (convI 0 fmtFP32 (Val.div (decodeFmt fmtFP32 true sum) (Val.ofInt 48)).1).1
  let bits := (v.zipIdx.map (fun p => p.1.1 / 2 ^ 31 % 2 * 2 ^ p.2)).sum
  (leBytes 4 a ++ leBytes 6 bits).map (fun x => if bad then (0, true) else (x, false))
def signEncode (v : List (Nat × Bool)) : List (Nat × Bool) := pad64 ((pieces 48 (v.length / 48) v).flatMap signBlock)
def signDecode (m : Nat) (b : List (Nat × Bool)) : List (Nat × Bool) :=
  (List.range m).map (fun i =>
    let r := (b.drop (10 * (i / 48))).take 10
    let a := leVal ((r.take 4).map (·.1))
    let sg := leVal ((r.drop 4).map (·.1)) / 2 ^ (i % 48) % 2
    if r.any (·.2) then (0, true) else ((a + sg * 2 ^ 31) % 2 ^ 32, false))
/-- A shard of v as stage 1 sends it. -/
def collEncode (d : Nat) (v : List (Nat × Bool)) : List (Nat × Bool) :=
  match Bk.comp d with
  | 0 => packElems 32 v
  | 1 => lineWiden (topEncode (Bk.keep d) false v)
  | 2 => lineWiden (topEncode (Bk.keep d) true v)
  | _ => lineWiden (signEncode v)
/-- The decoded shard of m elements. -/
def collDecode (d m : Nat) (b : List (Nat × Bool)) : List (Nat × Bool) :=
  match Bk.comp d with
  | 0 => unpackElems 32 m b
  | 1 => topDecode (Bk.keep d) false m b
  | 2 => topDecode (Bk.keep d) true m b
  | _ => signDecode m b

/-! Narrow gathers (R266). -/

/-- Whether a gather's source travels unchanged. -/
def wirePlain (d : Nat) : Bool := Bk.wire d == Bk.fmtC d || Bk.wire d == fmtFP32
/-- The format a gather travels in. -/
def wireFmt (d : Nat) : Nat := if wirePlain d then Bk.fmtC d else Bk.wire d
/-- Bytes of m elements on the wire: elements, then the scales of blocks of 48 from the next 64-byte boundary. -/
def wireLen (f m : Nat) : Nat := if isBlockFmt f then up64 (m * fmtBits f / 8) + up64 (m / 48) else m * fmtBits f / 8
/-- Elements and scales of a block format as bytes. -/
def packBlocks (f : Nat) (q : List (Nat × List (Nat × Bool))) : List (Nat × Bool) :=
  pad64 (packElems (fmtBits f) (q.flatMap (·.2))) ++ pad64 (q.map (fun b => (b.1, b.2.any (·.2))))
def unpackBlocks (f m : Nat) (l : List (Nat × Bool)) : List (Nat × List (Nat × Bool)) :=
  let el := unpackElems (fmtBits f) m l
  let sc := l.drop (up64 (m * fmtBits f / 8))
  (List.range (m / 48)).map (fun i =>
    let s := sc[i]?.getD (0, true)
    (s.1, ((el.drop (48 * i)).take 48).map (fun x => if s.2 then (0, true) else x)))
/-- A source as it travels. -/
def wireEncode (d : Nat) (l : List (Nat × Bool)) : List (Nat × Bool) :=
  let f := wireFmt d
  if wirePlain d then packElems (fmtBits f) l
  else if f = fmtBF16 then packElems 16 (l.map (fun x => (if x.2 then 0 else narrowTo fmtBF16 x.1, x.2)))
  else match fpOf f with
    | some F => packBlocks f ((pieces 48 (l.length / 48) l).map (fun b =>
        let q := quantise F ⟨0, false, 0, 0, 0, 0⟩ 0 0 (b.map (fun x => decodeFmt (Bk.fmtC d) false x.1))
        (q.1, (q.2.zip b).map (fun x => (if x.2.2 then 0 else x.1.1, x.2.2)))))
    | none => packElems (fmtBits f) l
/-- An element code of format f delivered in FMT_R: unchanged, widened, or narrowed by R43 and R46. -/
def deliverCode (f r c : Nat) : Nat :=
  if f = r then c else if f = fmtBF16 ∧ r = fmtFP32 then c * 2 ^ 16 else (convT ⟨0, false, 0, 0, 0, 0⟩ r 0 (decodeFmt f false c)).1
/-- A result from the travelled pieces of its shards of m elements each, in shard order (R251, R266). -/
def gatherResult (d m : Nat) (l : List (List (Nat × Bool))) : List (Nat × Bool) :=
  let f := wireFmt d
  let r := Bk.fmtR d
  if isBlockFmt f then
    let q := l.flatMap (unpackBlocks f m)
    if f = r then packBlocks f q
    else pad64 (packElems (fmtBits r) (q.flatMap (fun b => b.2.map (fun x =>
      (if x.2 then 0 else (convT ⟨0, false, 0, 0, 0, 0⟩ r 0 (scaleVal (decodeFmt f false x.1) b.1)).1, x.2)))))
  else pad64 (packElems (fmtBits r) ((l.flatMap (unpackElems (fmtBits f) m)).map (fun x => (if x.2 then 0 else deliverCode f r x.1, x.2))))
/-- A reducing result in FMT_R (R252). -/
def reduceResult (d : Nat) (l : List (Nat × Bool)) : List (Nat × Bool) :=
  if Bk.fmtR d = fmtBF16 then pad64 (packElems 16 (l.map (fun x => (if x.2 then 0 else narrowTo fmtBF16 x.1, x.2)))) else pad64 (packElems 32 l)

/-- RB of R251: the size of a result of group size g. -/
def resultBytes (d g : Nat) : Nat :=
  let x := if Bk.op d = 0 then Bk.e d / max 1 g else Bk.e d
  if 5 ≤ Bk.op d then 0 else if isBlockFmt (Bk.fmtR d) then up64 (x * fmtBits (Bk.fmtR d) / 8) + up64 (x / 48) else up64 (x * fmtBits (Bk.fmtR d) / 8)

/-! Shards (R267, R268). -/

def Shard.slot (x : Shard) (k : Nat) : Nat := if k = 0 then x.slot0 else x.slot1
def Shard.ver (x : Shard) (k : Nat) : Nat × Nat := if k = 0 then x.ver0 else x.ver1
def Shard.held (x : Shard) (k : Nat) : Bool := if k = 0 then x.held0 else x.held1
def Shard.other (x : Shard) : Nat := 1 - x.cur
/-- The HELD slot of a version. -/
def Shard.find (x : Shard) (v : Nat × Nat) : Option Nat :=
  if x.held x.cur && x.ver x.cur == v then some x.cur else if x.held x.other && x.ver x.other == v then some x.other else none
/-- The members of a shard group, in ascending shard number. -/
def State.members (s : State) (p g : Nat) : List (Nat × Shard) := (s.collOf p).shards.filter (fun x => x.2.group == g)

/-! Packets (Table 12.7). -/

/-- The 32-byte prefix. (DESIGN CHOICE, unsafe: log 66) -/
def collPrefix (x : CollIn) (elem : Nat) : List Nat :=
  leBytes 4 x.step ++ leBytes 2 x.shard ++ leBytes 2 x.srank ++
  [(if x.nf.isSome then 1 else 0) + (if (x.nf.map (·.arisen)).getD false then 2 else 0) + (if x.failed then 4 else 0) + (if x.skip then 8 else 0), 0] ++
  leBytes 2 x.ver.1 ++ leBytes 4 x.ver.2 ++ leBytes 2 ((x.nf.map (·.rank)).getD 0xFFF) ++ leBytes 4 ((x.nf.map (·.elem)).getD 0) ++ leBytes 4 elem ++
  leBytes 6 0

/-- The data bytes an input has received. -/
def CollIn.size (x : CollIn) : Nat := (x.got.map (fun g => g.2.length)).sum
def CollIn.bytes (x : CollIn) : List (Nat × Bool) := x.got.flatMap (·.2)
/-- Insert a chunk in the order of offsets. -/
def addChunk (c : Nat × List (Nat × Bool)) : List (Nat × List (Nat × Bool)) → List (Nat × List (Nat × Bool))
  | [] => [c]
  | x :: l => if c.1 < x.1 then c :: x :: l else if c.1 = x.1 then x :: l else x :: addChunk c l

/-- Bits of one element of the data of a stage, by which ELEM counts. -/
def elemBits (d stage : Nat) : Nat :=
  if Bk.op d ≤ 1 then 32 else if Bk.op d = 2 ∨ Bk.op d = 3 then fmtBits (wireFmt d) else if Bk.op d = 4 ∧ stage ≠ 6 then fmtBits (Bk.fmtC d) else 32
/-- Data bytes of a packet: whole word groups. -/
def collUnit (pmax : Nat) : Nat := (pmax - 32) / 192 * 192

/-- Send an input's data on a context, in packets of whole word groups (Table 9.4, Table 12.6). -/
def State.collSend (s : State) (p ctx d : Nat) (x : CollIn) : State :=
  let unit := collUnit (((s.peer? ctx).map (·.pmax)).getD 1024)
  let b := x.bytes
  let n := max 1 ((b.length + unit - 1) / unit)
  let bits := elemBits d x.stage
  let base := (x.got.head?.map (·.1)).getD 0
  let s := (pieces unit n b).zipIdx.foldl (fun s (c : List (Nat × Bool) × Nat) =>
    let w := lineWiden c.1
    let pm := ((pieces 64 ((w.length + 63) / 64) w).zipIdx.map (fun l => if l.1.any (·.2) then 2 ^ l.2 else 0)).sum
    s.peerSend ctx 7 (if x.stage = 5 then 3 else 2) (x.bucket + x.stage * 2 ^ 16) 0 pm (32 + w.length)
      (leVal (collPrefix x ((base + unit * c.2) * 8 / bits) ++ w.map (·.1))) (fun _ => none)) s
  s.inc F.COLL_TX_LINES p 0 ((b.length + 63) / 64)

end Sys2Proof.Machine
end

