-- ==== Sys2Proof/Machine/CollRuns.lean ====
section
/-! DEFINITION. How the collective engine runs a bucket (spec 09_collectives.md, R249–R273): posting, the source, the canonical path of
Table 9.4, and the writing of results, residuals and notices. -/

namespace Sys2Proof.Machine

/-! Runs and inputs. -/

def State.upRun (s : State) (p b : Nat) (f : CollRun → CollRun) : State := s.upColl p (fun c => { c with runs := c.runs.map (fun r => if r.bucket = b then f r else r) })
/-- The bucket fails; its first reason stands (R271). -/
def State.collFailed (s : State) (p b why : Nat) : State := s.upRun p b (fun r => { r with fail := if r.fail = 0 then why else r.fail })
def CollRun.has (r : CollRun) (k : Nat × Nat × Nat) : Bool := r.did.contains k
def State.collDid (s : State) (p b : Nat) (k : Nat × Nat × Nat) : State := s.upRun p b (fun r => { r with did := r.did ++ [k] })
/-- The reason a bucket takes when another rank says it failed. (DEDUCED, unsafe: log 67) -/
def recvReason (d : Nat) : Nat := if Bk.op d = 5 then 4 else if Bk.cmode d = 2 ∧ Bk.vchk d = 2 then 1 else 5
/-- Whether thinning skips the bucket in the present step (R263). -/
def State.thinSkip (s : State) (p d : Nat) : Bool :=
  Bk.thinm1 d != 0 && decide (Bk.op d ≤ 1) && decide (s.g F.COLL_STEP_STEP p % (Bk.thinm1 d + 1) ≠ Bk.thinm1 d)

/-- Bytes a PERMUTE moves from rank a to rank z: every member's moves in table order, by ascending shard. -/
def State.moveLen (s : State) (p g : Nat) (moves : List (Nat × Nat × Nat × Nat × Nat)) (a z : Nat) : Nat :=
  ((s.members p g).map (fun x => ((moves.filter (fun m => m.1 == a && m.2.1 == z)).map (fun m => m.2.2.2.2 * fmtBytes x.2.fmt)).sum)).sum

/-- The data bytes of a complete input. -/
def State.collLen (s : State) (p b stage shard srank : Nat) : Nat :=
  let d := s.bucket p b
  let m := Bk.e d / max 1 (s.cG p)
  if stage = 6 then 0
  else match Bk.op d with
    | 0 | 1 =>
      if stage = 1 then (match Bk.comp d with
        | 0 => 4 * m
        | 1 => up64 (4 * Bk.keep d) + up64 (4 * Bk.keep d)
        | 2 => up64 (4 * Bk.keep d) + up64 (2 * Bk.keep d)
        | _ => up64 (10 * (m / 48)))
      else 4 * m
    | 2 => wireLen (wireFmt d) m
    | 3 => wireLen (wireFmt d) (Bk.e d)
    | 4 => m * fmtBytes (Bk.fmtC d)
    | _ => match s.collRun? p b with | some r => s.moveLen p (Bk.shard d) r.moves srank shard | none => 0

/-- The complete inputs of a stage and shard of bucket b of the current step. -/
def State.collIns (s : State) (p b stage shard : Nat) : List CollIn :=
  (s.collOf p).ins.filter (fun x => x.step == s.g F.COLL_STEP_STEP p && x.bucket == b && x.stage == stage && x.shard == shard &&
    (x.failed || x.skip || decide (s.collLen p b stage shard x.srank ≤ x.size)))
def State.collFrom (s : State) (p b stage shard srank : Nat) : Option CollIn := (s.collIns p b stage shard).find? (fun x => x.srank == srank)
/-- An input of this device itself. -/
def State.collPut (s : State) (p : Nat) (x : CollIn) : State := s.upColl p (fun c => { c with ins := c.ins ++ [x] })
/-- This device's data of a stage and shard. -/
def State.collMake (s : State) (p b stage shard srank : Nat) (nf : Option NfRec) (failed : Bool) (ver : Nat × Nat) (bytes : List (Nat × Bool)) : CollIn :=
  ⟨s.g F.COLL_STEP_STEP p, b, stage, shard, srank, nf, failed, s.thinSkip p (s.bucket p b), ver, if failed then [] else [(0, bytes)]⟩

/-! Memory accesses of the engine (R220, R231, R240). -/

/-- Read k bytes for partition p: the bytes, or that the access is refused; none while a line is under repair. -/
def State.collRead (s : State) (p a k : Nat) : State × Option (Option (List (Nat × Bool))) :=
  let es := (List.range ((a + k) / 2 ^ 23 - a / 2 ^ 23 + (if (a + k) % 2 ^ 23 = 0 then 0 else 1))).map (a / 2 ^ 23 + ·)
  match es.find? (fun e => s.pageReason p e false != 0) with
  | some e => (s.event (some p) 0x8304 [(e, 4), (s.pageReason p e false, 1), (0, 1), (0, 1)], some none)
  | none =>
    let r := s.readBytes a k
    (r.1, r.2.map some)
/-- Whether every page of [a, a + k) may be written by partition p; the first that may not is reported (R220). -/
def State.collMayWrite (s : State) (p a k : Nat) : State × Bool :=
  let bad := ((List.range ((a + (k - 1)) / 2 ^ 23 + 1 - a / 2 ^ 23)).map (a / 2 ^ 23 + ·)).find? (fun e => s.pageReason p e true != 0)
  if k = 0 then (s, true)
  else match bad with
    | some e => (s.event (some p) 0x8304 [(e, 4), (s.pageReason p e true, 1), (1, 1), (0, 1)], false)
    | none => (s, true)
/-- Write lines from a: 0 written, 1 a line must wait, 2 a line is refused. Lines of the contribution area are judged as every write is (R249). -/
def State.collWrite (s : State) (p a : Nat) : List LineVal → State × Nat
  | [] => (s, 0)
  | v :: l =>
    let e := pageOf a
    let why := s.pageReason p e true
    if why ≠ 0 then (s.event (some p) 0x8304 [(e, 4), (why, 1), (1, 1), (0, 1)], 2)
    else if s.contribHeld p a then (s.contribHold p ⟨a, v.data, BitVec.allOnes 64, v.poison, .unit⟩).collWrite p (a + 64) l
    else if s.pageHeld e then (if Pm.hold (s.page e) = 1 then s.askCopy e none else s, 1)
    else
      let r := s.writeLine a v.data (BitVec.allOnes 64) v.poison
      if r.2 then (r.1.contribCount p a (BitVec.allOnes 64)).collWrite p (a + 64) l else (r.1, 1)
/-- Write n marker lines from a where they may be written (R271): 0 written, 1 a line must wait. -/
def State.collMark (s : State) (p a : Nat) : Nat → State × Nat
  | 0 => (s, 0)
  | n + 1 =>
    if s.pageReason p (pageOf a) true ≠ 0 then s.collMark p (a + 64) n
    else
      let r := s.collWrite p a [⟨0, true⟩]
      if r.2 = 1 then r else r.1.collMark p (a + 64) n

/-! The source (R248, R256, R267, R268). -/

/-- The slot a CMODE 2 bucket reads and its version: none where no slot holds the named version (R268). -/
def State.collSlot (s : State) (p d : Nat) : Option (Nat × (Nat × Nat)) :=
  match Sparse.find? (s.collOf p).shards (Bk.shard d) with
  | none => none
  | some x =>
    if Bk.vchk d = 2 then
      match Sparse.find? (s.collOf p).vers (Bk.vref d) with
      | some v => (x.find v).map (fun k => (x.slot k, v))
      | none => none
    else some (x.slot x.cur, x.ver x.cur)

/-- This rank's source: its elements as FP32 or INT32 codes for a reduction, else as codes of FMT_C; the elements where a contribution or source element
is not finite (R259); its version. `error` is a reason of Table 9.6; none while a line is under repair. -/
def State.collSource (s : State) (p b : Nat) : State × Option (Except Nat (List (Nat × Bool) × List Nat × (Nat × Nat))) :=
  let d := s.bucket p b
  let rop := Bk.rop d
  let m := if Bk.op d = 2 then Bk.e d / max 1 (s.cG p) else Bk.e d
  let w := fmtBytes (Bk.fmtC d)
  let wide := fun (l : List (Nat × Bool)) => if rop ≠ 0 ∧ Bk.fmtC d = fmtBF16 then l.map (fun x => (x.1 * 2 ^ 16, x.2)) else l
  let bad := fun (l : List (Nat × Bool)) => (l.zipIdx.filter (fun x => watches rop && !x.1.2 && isNonfin x.1.1)).map (·.2)
  let fin := fun (r : State × Option (Option (List (Nat × Bool)))) (v : Nat × Nat) =>
    match r.2 with
    | none => (r.1, none)
    | some none => (r.1, some (.error 5))
    | some (some l) => let x := wide (unpackElems (8 * w) m l); (r.1, some (.ok (x, bad x, v)))
  if Bk.cmode d = 0 then
    let ts := bkTiles d (s.hallsOf p).length
    let r := s.collRead p (Bk.caddr d) (ts.length * m * w)
    match r.2 with
    | none => (r.1, none)
    | some none => (r.1, some (.error 5))
    | some (some l) =>
      let rows := (pieces (m * w) ts.length l).map (fun x => wide (unpackElems (8 * w) m x))
      let x := (List.range m).map (fun e => redTiles rop (ts.zip (rows.map (fun row => row[e]?.getD (0, true)))))
      (r.1, some (.ok (x, rows.flatMap bad, (0, 0))))
  else if Bk.cmode d = 1 then fin (s.collRead p (Bk.caddr d) (m * w)) (0, 0)
  else match s.collSlot p d with
    | some q => fin (s.collRead p q.1 (m * w)) q.2
    | none => (s, some (.error 1))

/-! The start of a bucket (Table 9.4, step 1). -/

/-- Send this rank's data for the node host of node rank i, or keep it when that is this device. -/
def State.toHost (s : State) (p d i : Nat) (x : CollIn) : State :=
  if i = s.cR p % s.cS p then s.collPut p x
  else match s.nodeCtx p i with
    | some c => s.collSend p c d x
    | none => s

/-- The first record of this rank within elements [lo, hi). -/
def ownRecord (bad : List Nat) (rank lo hi : Nat) : Option NfRec :=
  match leastBy id (bad.filter (fun e => decide (lo ≤ e) && decide (e < hi))) with
  | some e => some ⟨false, rank, e⟩
  | none => none

/-- Send a reducing bucket's P for every shard (R256, R263): thinning, residual and encoding. -/
def State.reduceStart (s : State) (p b : Nat) (el : List (Nat × Bool)) (bad : List Nat) (ver : Nat × Nat) : State :=
  let d := s.bucket p b
  let g := s.cG p
  let m := Bk.e d / max 1 g
  let r := s.cR p
  let useX := Bk.thinm1 d != 0 || Bk.comp d != 0
  let q := if useX then s.collRead p (Bk.xaddr d) (4 * Bk.e d) else (s, some (some []))
  match q.2 with
  | none => q.1
  | some none => ((List.range g).foldl (fun s z => s.toHost p d (z % s.cS p) (s.collMake p b 1 z r none true ver [])) (q.1.collFailed p b 5)).upRun p b
      (fun x => { x with started := true })
  | some (some xb) =>
    let v := if useX then (el.zip (unpackElems 32 (Bk.e d) xb)).map (fun x => if x.1.2 || x.2.2 then (0, true) else (routerAdd32 x.2.1 x.1.1, false)) else el
    let bad := if useX then bad ++ (v.zipIdx.filter (fun x => watches (Bk.rop d) && !x.1.2 && isNonfin x.1.1)).map (·.2) else bad
    let s := q.1.upRun p b (fun x => { x with started := true, nf := ownRecord bad r 0 (Bk.e d) })
    if s.thinSkip p d then
      (s.upRun p b (fun x => { x with xnew := some v })).collPut p (s.collMake p b 6 r r (ownRecord bad r 0 (Bk.e d)) false ver (List.replicate 16 (0, false)))
    else
      let enc := (pieces m g v).map (collEncode d)
      let dec := (enc.map (collDecode d m)).flatten
      let xnew := if !useX then none
        else if Bk.comp d = 0 then some (v.map (fun _ => (0, false)))
        else some ((v.zip dec).map (fun x => if x.1.2 || x.2.2 then (0, true) else (routerAdd32 x.1.1 ((x.2.1 + 2 ^ 31) % 2 ^ 32), false)))
      let s := s.upRun p b (fun x => { x with xnew := xnew })
      enc.zipIdx.foldl (fun s (e : List (Nat × Bool) × Nat) =>
        s.toHost p d (e.2 % s.cS p) (s.collMake p b 1 e.2 r (ownRecord bad r (e.2 * m) ((e.2 + 1) * m)) false ver e.1)) s

/-- Whether a VCHK 2 bucket must wait for the bucket that delivers its version: until that one's results and its version are settled, so that the version
does not depend on timing (R268, R274). -/
def State.verWaits (s : State) (p b : Nat) : Bool :=
  let d := s.bucket p b
  Bk.cmode d == 2 && Bk.vchk d == 2 &&
  (match s.collRun? p (Bk.vref d) with | some r => !r.final | none => decide (s.watermark p ≤ Bk.vref d))

/-- Start bucket b, no PERMUTE: its source is read and sent. -/
def State.collStart (s : State) (p b : Nat) : State :=
  let d := s.bucket p b
  let r := s.cR p
  let g := s.cG p
  let m := Bk.e d / max 1 g
  if 6 ≤ Bk.op d ∨ (Bk.op d = 3 ∧ Bk.keep d ≠ r) then s.upRun p b (fun x => { x with started := true })
  else if s.verWaits p b then s
  else
    let q := s.collSource p b
    match q.2 with
    | none => q.1
    | some (.error why) =>
      let s := (q.1.collFailed p b why).upRun p b (fun x => { x with started := true })
      if Bk.op d ≤ 1 then
        if s.thinSkip p d then s.collPut p (s.collMake p b 6 r r none true (0, 0) [])
        else (List.range g).foldl (fun s z => s.toHost p d (z % s.cS p) (s.collMake p b 1 z r none true (0, 0) [])) s
      else if Bk.op d = 4 then (List.range g).foldl (fun s z => s.toHost p d (z % s.cS p) (s.collMake p b 1 z r none true (0, 0) [])) s
      else s.collPut p (s.collMake p b 4 r r none true (0, 0) [])
    | some (.ok x) =>
      let s := if Bk.cmode d = 2 ∧ Bk.vchk d ≠ 0 then q.1.upColl p (fun c => { c with vers := Sparse.insert c.vers b x.2.2 }) else q.1
      if Bk.op d ≤ 1 then s.reduceStart p b x.1 x.2.1 x.2.2
      else
        let s := s.upRun p b (fun x => { x with started := true })
        if Bk.op d = 4 then
          (pieces m g x.1).zipIdx.foldl (fun s (e : List (Nat × Bool) × Nat) =>
            s.toHost p d (e.2 % s.cS p) (s.collMake p b 1 e.2 r none false x.2.2 (packElems (fmtBits (Bk.fmtC d)) e.1))) s
        else s.collPut p (s.collMake p b 4 r r none false x.2.2 (wireEncode d x.1))

/-! The canonical path (Table 9.4, steps 2 to 4). -/

/-- Whether inputs carry the versions that R268 expects. -/
def State.verOk (s : State) (p d : Nat) (l : List CollIn) : Bool :=
  Bk.cmode d != 2 || Bk.vchk d == 0 ||
  (match (if Bk.vchk d = 2 then Sparse.find? (s.collOf p).vers (Bk.vref d) else (leastBy (·.srank) l).map (·.ver)) with
   | some v => l.all (fun x => x.ver == v)
   | none => false)

/-- Step 2: the node host of shard z forms Nd once all S inputs are present. -/
def State.pathNode (s : State) (p b z : Nat) : State :=
  let d := s.bucket p b
  let m := Bk.e d / max 1 (s.cG p)
  let k := s.cR p / s.cS p
  let l := (List.range (s.cS p)).filterMap (fun t => s.collFrom p b 1 z (k * s.cS p + t))
  if l.length < s.cS p ∨ !(s.collIns p b 2 z).isEmpty then s
  else
    let lost := l.any (·.failed)
    let okv := s.verOk p d l
    let s := if lost then s.collFailed p b (recvReason d) else if okv then s else s.collFailed p b 2
    let nf := l.foldl (fun a x => nfMerge a x.nf) none
    s.collPut p (s.collMake p b 2 z (s.cR p) nf (lost || !okv) ((l.head?.map (·.ver)).getD (0, 0))
      (packElems 32 (redNode (Bk.rop d) m (l.map (fun x => collDecode d m x.bytes)))))

/-- Step 3: Nd goes round the ring and is added as the right operand, once the versions sent with both agree (R268); the owner's node holds the result. -/
def State.pathRing (s : State) (p b z : Nat) : State :=
  let d := s.bucket p b
  let m := Bk.e d / max 1 (s.cG p)
  let n := s.cN p
  let k := s.cR p / s.cS p
  let j := z / s.cS p
  let go := fun (s : State) (x : CollIn) =>
    if k = j then
      let el := unpackElems 32 m x.bytes
      let arisen := if watches (Bk.rop d) ∧ !x.failed then
          match el.zipIdx.find? (fun e => !e.1.2 && isNonfin e.1.1) with | some e => some ⟨true, 0xFFF, z * m + e.2⟩ | none => none
        else none
      s.collPut p { x with stage := 0, srank := z, nf := nfMerge x.nf arisen }
    else match s.nextCtx p with
      | some c => (s.collSend p c d { x with stage := 3, srank := s.cR p }).collDid p b (3, z, 0)
      | none => s
  match (s.collIns p b 2 z).head?, s.collRun? p b with
  | some nd, some r =>
    if r.has (3, z, 0) ∨ !(s.collIns p b 0 z).isEmpty then s
    else if n ≤ 1 ∨ k = (j + 1) % n then go s nd
    else match (s.collIns p b 3 z).head? with
      | some y =>
        let okv := s.verOk p d [y, nd]
        let lost := nd.failed || y.failed
        let el := ((unpackElems 32 m y.bytes).zip (unpackElems 32 m nd.bytes)).map (fun e => redElem (Bk.rop d) e.1 e.2)
        let s := if lost then s.collFailed p b (recvReason d) else if okv then s else s.collFailed p b 2
        go s (s.collMake p b 2 z (s.cR p) (nfMerge y.nf nd.nf) (lost || !okv) y.ver (packElems 32 el))
      | none => s
  | _, _ => s

/-- The owner's result goes on (steps 4 and 5, R260): to the buddy, and as shard or verdict to every rank. -/
def State.pathOwner (s : State) (p b : Nat) : State :=
  let d := s.bucket p b
  let z := s.cR p
  match (s.collIns p b 0 z).head?, s.collRun? p b with
  | some x, some r =>
    if r.has (0, z, z) then s
    else
      let s := s.collDid p b (0, z, z)
      let s := if Bk.leg d = 1 ∧ !x.failed ∧ s.g F.COLL_BUDDY_VALID p = 1 then s.collSend p (s.g F.COLL_BUDDY_CTX p) d { x with stage := 5, srank := z } else s
      s.collPut p (if Bk.op d = 1 then { x with stage := 4 } else { x with stage := 6, got := if x.failed then [] else [(0, List.replicate 16 (0, false))] })
  | _, _ => s

/-- Step 4: this device, node host of an input's node rank, sends it round its ring and fans it out within its node. -/
def State.pathSpread (s : State) (p b : Nat) (x : CollIn) : State :=
  let d := s.bucket p b
  let S := s.cS p
  let i := s.cR p % S
  let k := s.cR p / S
  let key := (x.stage, x.shard, x.srank)
  if x.shard % S ≠ i ∨ ((s.collRun? p b).map (fun r => r.has key)).getD true then s
  else
    let s := s.collDid p b key
    let s := match s.nextCtx p with
      | some c => if (k + 1) % s.cN p = x.shard / S then s else s.collSend p c d x
      | none => s
    ((List.range S).filter (· != i)).foldl (fun s t => match s.nodeCtx p t with | some c => s.collSend p c d x | none => s) s

/-- A segment or move on its way: the node host of its destination's node rank sends it along the ring. -/
def State.pathSegment (s : State) (p b : Nat) (x : CollIn) : State :=
  let key := (x.stage, x.shard, x.srank)
  if x.shard % s.cS p ≠ s.cR p % s.cS p ∨ x.shard = s.cR p ∨ ((s.collRun? p b).map (fun r => r.has key)).getD true then s
  else match s.nextCtx p with
    | some c => (s.collSend p c (s.bucket p b) { x with stage := 4 }).collDid p b key
    | none => s

/-- Carry a started bucket as far along the path as its inputs allow. -/
def State.collPath (s : State) (p b : Nat) : State :=
  let d := s.bucket p b
  let mine := (List.range (s.cG p)).filter (fun z => z % s.cS p == s.cR p % s.cS p)
  let ins := fun (s : State) (st : Nat) => (s.collOf p).ins.filter (fun x => x.step == s.g F.COLL_STEP_STEP p && x.bucket == b && x.stage == st &&
    (x.failed || x.skip || decide (s.collLen p b st x.shard x.srank ≤ x.size)))
  if Bk.op d = 4 ∨ Bk.op d = 5 then (ins s 1 ++ ins s 4).foldl (fun s x => s.pathSegment p b x) s
  else
    let s := if Bk.op d ≤ 1 ∧ !s.thinSkip p d then
        (mine.foldl (fun s z => s.pathRing p b z) (mine.foldl (fun s z => s.pathNode p b z) s)).pathOwner p b
      else s
    (ins s 4 ++ ins s 6).foldl (fun s x => s.pathSpread p b x) s

/-! The end of a bucket (R251, R255, R260, R263, R266, R268–R272). -/

/-- The inputs a bucket ends with; none while one is missing. -/
def State.collInputs (s : State) (p b : Nat) : Option (List CollIn) :=
  let d := s.bucket p b
  let g := s.cG p
  let r := s.cR p
  let all := fun (l : List (Option CollIn)) => if l.any (·.isNone) then none else some (l.filterMap id)
  let seg := fun a => match s.collFrom p b 1 r a with | some x => some x | none => s.collFrom p b 4 r a
  match Bk.op d with
  | 0 =>
    let v := all ((List.range g).map (fun z => s.collFrom p b 6 z z))
    if s.thinSkip p d then v else match (s.collIns p b 0 r).head?, v with | some x, some l => some (x :: l) | _, _ => none
  | 1 => all ((List.range g).map (fun z => s.collFrom p b (if s.thinSkip p d then 6 else 4) z z))
  | 2 => all ((List.range g).map (fun z => s.collFrom p b 4 z z))
  | 3 => all [s.collFrom p b 4 (Bk.keep d) (Bk.keep d)]
  | 4 => all ((List.range g).map seg)
  | 5 => match s.collRun? p b with
    | some x => all ((((x.moves.filter (fun m => m.2.1 == r)).map (·.1)).eraseDups).map seg)
    | none => none
  | 6 => if (s.collOf p).commits.contains b then none else some []
  | _ => if s.watermark p = b then some [] else none

/-- What a PERMUTE leaves in the destination slot of a member (R272): moved elements, zero elsewhere. `off` is where the member's data begins
in each source's bytes. -/
def moveApply (moves : List (Nat × Nat × Nat × Nat × Nat)) (l : List CollIn) (r w elems : Nat) (off : Nat → Nat) : List (Nat × Bool) :=
  let src := (moves.filter (fun m => m.2.1 == r)).map (fun m =>
    let before := ((moves.takeWhile (fun x => x != m)).filter (fun x => x.1 == m.1 && x.2.1 == r)).map (fun x => x.2.2.2.2 * w)
    let data := match l.find? (fun x => x.srank == m.1) with | some x => (x.bytes.drop (off m.1 + before.sum)).take (m.2.2.2.2 * w) | none => []
    (m.2.2.2.1 * w, data))
  (List.range (elems * w)).map (fun i =>
    match src.find? (fun x => decide (x.1 ≤ i) && decide (i < x.1 + x.2.length)) with
    | some x => x.2[i - x.1]?.getD (0, false)
    | none => (0, false))

/-- Write each member's destination slot: 0 written, 1 wait, 2 refused. -/
def State.moveWrite (s : State) (p : Nat) (moves : List (Nat × Nat × Nat × Nat × Nat)) (l : List CollIn) : List (Nat × Shard) → List (Nat × Shard) → State × Nat
  | _, [] => (s, 0)
  | done, x :: rest =>
    let r := s.cR p
    let off := fun a => (done.map (fun y => ((moves.filter (fun m => m.1 == a && m.2.1 == r)).map (fun m => m.2.2.2.2 * fmtBytes y.2.fmt)).sum)).sum
    let q := s.collWrite p (x.2.slot x.2.other) (toLines (moveApply moves l r (fmtBytes x.2.fmt) x.2.elems off))
    if q.2 = 0 then q.1.moveWrite p moves l (done ++ [x]) rest else q

/-- The notice word (Table 9.3). -/
def noticeWord (b step : Nat) (nf : Option NfRec) (failed : Bool) : Nat :=
  b + step * 2 ^ 16 + (if nf.isSome then 2 ^ 48 else 0) + (if (nf.map (·.arisen)).getD false then 2 ^ 49 else 0) + (if failed then 2 ^ 50 else 0) +
  ((nf.map (·.rank)).getD 0xFFF) % 2 ^ 12 * 2 ^ 51 + ((nf.map (·.elem)).getD 0) % 2 ^ 32 * 2 ^ 63

/-- Send the notices of a bucket, and note that its results and residual are written. (DEDUCED, unsafe: log 69) -/
def State.collNotify (s : State) (p b : Nat) (nf : Option NfRec) (poisoned : Bool) : State :=
  let d := s.bucket p b
  let ts := if Bk.op d = 7 then [] else bkTiles d (s.hallsOf p).length
  let bad := ((s.collRun? p b).map (fun r => r.fail != 0)).getD false
  let s := s.upRun p b (fun r => { r with final := true, nf := nf, poisoned := poisoned, notices := ts.length })
  ts.foldl (fun s t =>
    let n := s.devTile p t
    s.handPkt p (n / 64) (n / 64) 2 (.coll n p b (Bk.naddr d) nf.isSome [(noticeWord b (s.g F.COLL_STEP_STEP p) nf bad, false)])) s

/-- Write X (R263): only with a clear non-finite bit and no failure. 1 while it must wait. -/
def State.collX (s : State) (p b : Nat) (nf : Option NfRec) : State × Nat :=
  match s.collRun? p b with
  | some r => match r.xnew with
    | some x => if nf.isSome ∨ r.fail ≠ 0 then (s, 0) else s.collWrite p (Bk.xaddr (s.bucket p b)) (toLines (packElems 32 x))
    | none => (s, 0)
  | none => (s, 0)

/-- Write a bucket's result, if it has one: the bytes, or marker lines when it failed (R271). The bucket fails where its result or X may not be written. -/
def State.collResult (s : State) (p b : Nat) (bytes : List (Nat × Bool)) : State × Nat :=
  let d := s.bucket p b
  let bad := ((s.collRun? p b).map (fun r => r.fail != 0)).getD false
  let a := s.resultBase p + Bk.roff d
  if s.thinSkip p d then (s, 0) else if bad then s.collMark p a (resultBytes d (s.cG p) / 64) else s.collWrite p a (toLines bytes)
/-- The ranges a bucket is to write: its result and X, or every member's destination slot. -/
def State.collRanges (s : State) (p b : Nat) : List (Nat × Nat) :=
  let d := s.bucket p b
  if Bk.op d = 5 then (s.members p (Bk.shard d)).map (fun x => (x.2.slot x.2.other, x.2.elems * fmtBytes x.2.fmt))
  else
    (if s.thinSkip p d ∨ 5 ≤ Bk.op d then [] else [(s.resultBase p + Bk.roff d, resultBytes d (s.cG p))]) ++
    (if ((s.collRun? p b).bind (·.xnew)).isSome then [(Bk.xaddr d, 4 * Bk.e d)] else [])
/-- The bucket fails where a range it is to write is refused, before anything is written (R271). -/
def State.collAllowed (s : State) (p b : Nat) : State :=
  if ((s.collRun? p b).map (fun r => r.fail != 0)).getD true then s
  else
    let r := (s.collRanges p b).foldl (fun (a : State × Bool) x => if a.2 then a.1.collMayWrite p x.1 x.2 else a) (s, true)
    if r.2 then r.1 else r.1.collFailed p b 5

/-- End a bucket whose inputs are complete; it stays as it is while a write must wait. -/
def State.collFinish (s : State) (p b : Nat) (l : List CollIn) : State :=
  let d := s.bucket p b
  let m := Bk.e d / max 1 (s.cG p)
  let nf := l.foldl (fun a x => nfMerge a x.nf) none
  let s := if l.any (·.failed) then s.collFailed p b (recvReason d)
    else if (Bk.op d = 2 ∨ Bk.op d = 3) ∧ !s.verOk p d l then s.collFailed p b 2 else s
  let ver := if (Bk.op d = 2 ∨ Bk.op d = 3) ∧ Bk.cmode d = 2 then
      if Bk.vchk d = 1 then (leastBy (·.srank) l).map (·.ver) else if Bk.vchk d = 2 then Sparse.find? (s.collOf p).vers (Bk.vref d) else none
    else none
  let s := match ver with | some v => s.upColl p (fun c => { c with vers := Sparse.insert c.vers b v }) | none => s
  let s := s.collAllowed p b
  let bytes : List (Nat × Bool) :=
    match Bk.op d with
    | 0 => match l with | x :: _ => reduceResult d (unpackElems 32 m x.bytes) | [] => []
    | 1 => reduceResult d (l.flatMap (fun x => unpackElems 32 m x.bytes))
    | 2 | 4 => gatherResult d m (l.map (·.bytes))
    | 3 => gatherResult d (Bk.e d) (l.map (·.bytes))
    | _ => []
  let failed := ((s.collRun? p b).map (fun r => r.fail != 0)).getD false
  let q : State × Nat :=
    if Bk.op d = 5 then
      match s.collRun? p b with
      | some r => if failed then (s, 0) else s.moveWrite p r.moves l [] (s.members p (Bk.shard d))
      | none => (s, 0)
    else if 6 ≤ Bk.op d then (s, 0)
    else s.collResult p b bytes
  if q.2 = 1 then q.1
  else
    let s := if q.2 = 2 then q.1.collFailed p b 5 else q.1
    let x := s.collX p b nf
    if x.2 = 1 then x.1
    else
      let s := if x.2 = 2 then x.1.collFailed p b 5 else x.1
      let failed := ((s.collRun? p b).map (fun r => r.fail != 0)).getD false
      let s :=
        if failed then s
        else if Bk.op d = 5 then
          (s.upColl p (fun c => { c with permuted := if c.permuted.contains (Bk.shard d) then c.permuted else c.permuted ++ [Bk.shard d] })).w F.COLL_WIN_EPOCHNEXT p 0 1
        else if Bk.op d = 7 then
          s.upColl p (fun c => { c with shards := c.shards.map (fun y =>
            if y.2.group = Bk.shard d then (y.1, if y.2.cur = 0 then { y.2 with held1 := false } else { y.2 with held0 := false }) else y) })
        else s
      s.collNotify p b nf (!failed && !s.thinSkip p d && bytes.any (·.2))

/-- Carry bucket b on: its path, and its end once every input is here. -/
def State.collStep (s : State) (p b : Nat) : State :=
  match s.collRun? p b with
  | some r =>
    if r.final ∨ !(r.started || decide (6 ≤ Bk.op (s.bucket p b))) then s
    else
      let s := if Bk.op (s.bucket p b) < 6 then s.collPath p b else s
      match s.collInputs p b with
      | some l => s.collFinish p b l
      | none => s
  | none => s
/-- Carry on every bucket of the window. (DEDUCED, unsafe: log 64) -/
def State.collSteps (s : State) (p : Nat) : State := ((s.collOf p).runs.map (·.bucket)).foldl (fun s b => s.collStep p b) s

end Sys2Proof.Machine
end

