-- ==== Sys2Proof/Machine/Collective.lean ====
section
/-! DEFINITION. The collective engine's rows (spec 09_collectives.md, R249–R275): contribution writes, the start and publication of buckets,
notices, the watchdog, PERMUTE, and commits at a landing (R269). -/

namespace Sys2Proof.Machine

/-! Contributions (R249, R250). -/

/-- Send a DACK (R327): status 0 accepted, 1–8 of Table 7.6, 9 refused with R220's reason. -/
def State.dack (s : State) (ctx cls seq status reason : Nat) : State :=
  s.peerSend ctx 4 cls (status + reason * 16) (seq % 2 ^ 32 + cls * 2 ^ 32) 0 0 0 (fun _ => none)
/-- CONTRIBUTION_WRITE (R249, R250): the stairwell takes tile n's oldest line write, which lies in the contribution area: it is accepted for
its bucket or held; a line that no slice holds is written. -/
def execContributionWrite (n : Nat) (s : State) : Res :=
  onTile n 0 (
    match (s.tile n).nextOut, s.partOf n with
    | some l, some p =>
      match (s.tile n).instr? l.id with
      | some i =>
        if St.tgt i.desc = 1 ∨ !s.inCarea p l.addr ∨ !s.stMayWrite n then s
        else match s.sliceOf p l.addr with
          | none => (s.ownWrite n p l i.flight).1
          | some b =>
            if s.contribOk p b then
              let r := s.ownWrite n p l i.flight
              if r.2 then r.1.contribAccept p b l.mask else r.1
            else (s.outTaken n l none true).contribHold p ⟨l.addr, l.data, l.mask, l.poison, .tile n l.id⟩
      | none => s
    | _, _ => s)

/-- A held line has been dealt with: its writer hears of it. -/
def State.heldDone (s : State) (p : Nat) (x : HeldLine) : State :=
  let s := s.upColl p (fun c => { c with held := c.held.erase x })
  match x.who with
  | .tile n id => s.upTile n (fun t => { t with lineOut := match t.lineOut.findIdx? (fun l => l.id == id && l.addr == x.addr && l.held) with
      | some k => t.lineOut.modify k (fun l => { l with held := false })
      | none => t.lineOut })
  | .peer c cls seq => if (s.collOf p).held.any (fun y => y.who == x.who) then s else s.dack c cls seq 0 0
  | .host | .unit => s

/-- HELD_LINE_ACCEPT (R249): held line j of partition p is accepted once its bucket is in the window and not fully posted. -/
def execHeldLineAccept (p j : Nat) (s : State) : Res :=
  if 8 ≤ p then .fault .noSuchUnit
  else .next (
    match (s.collOf p).held[j]? with
    | none => s
    | some x =>
      match s.sliceOf p x.addr with
      | none => s
      | some b =>
        let e := pageOf x.addr
        let why := s.pageReason p e true
        if !s.contribOk p b then s
        else if why ≠ 0 then
          (match x.who with
           | .tile n _ => s.memRefuse (n / 64) p e why true (s.tile n).flight
           | .host => s
           | .unit => s.event (some p) 0x8304 [(e, 4), (why, 1), (1, 1), (0, 1)]
           | .peer .. => (s.partFault p).event (some p) 0x8304 [(e, 4), (why, 1), (1, 1), (0, 1)]).heldDone p x
        else if s.pageHeld e then (if Pm.hold (s.page e) = 1 then s.askCopy e none else s)
        else
          let r := match x.who with
            | .tile n _ => s.hallWrite (n / 64) x.addr x.data x.mask x.poison
            | _ => s.writeLine x.addr x.data x.mask x.poison
          if r.2 then (r.1.contribAccept p b x.mask).heldDone p x else r.1)

/-! Start and publication (R250, R253, R271). -/

/-- BUCKET_START (R250, R257): bucket b, posted here and on every other member, begins its reduction; a PERMUTE below it must have
completed first (R273). -/
def execBucketStart (p b : Nat) (s : State) : Res :=
  if 8 ≤ p then .fault .noSuchUnit
  else .next (
    match s.collRun? p b with
    | some r =>
      if r.started ∨ Bk.op (s.bucket p b) = 5 ∨
          (s.collOf p).runs.any (fun x => decide (x.bucket < b) && Bk.op (s.bucket p x.bucket) == 5 && !x.final) then s
      else (s.collStart p b).collSteps p
    | none => s)

/-- The status code of a reason of Table 9.6 (Table 13.5). (DEDUCED, unsafe: log 68) -/
def collStatus (why : Nat) : Nat := if why = 5 then 0x304 else 0x402 + why

/-- Publish bucket b, the watermark (R253, R260, R262, R271). -/
def State.collPublish (s : State) (p : Nat) (r : CollRun) : State :=
  let b := r.bucket
  let st := s.g F.COLL_STEP_STEP p
  let s := s.inc F.COLL_DONE_COUNT p 0 1
  let s := match r.nf with
    | some x =>
      if s.g F.COLL_FIRST_A_VALID p = 1 then s
      else (s.wreg R.COLL_FIRST_A p 0 (setFields 0 [(F.COLL_FIRST_A_BUCKET, b), (F.COLL_FIRST_A_RANK, x.rank), (F.COLL_FIRST_A_ARISEN, if x.arisen then 1 else 0),
        (F.COLL_FIRST_A_VALID, 1), (F.COLL_FIRST_A_STEP, st)])).w F.COLL_FIRST_B_ELEM p 0 x.elem
    | none => s
  let s :=
    if r.fail = 0 then s
    else
      let s := s.inc F.COLL_FAILS_COUNT p 0 1
      let s := if s.g F.COLL_FAIL_VALID p = 1 then s
        else s.wreg R.COLL_FAIL p 0 (setFields 0 [(F.COLL_FAIL_BUCKET, b), (F.COLL_FAIL_REASON, r.fail), (F.COLL_FAIL_VALID, 1), (F.COLL_FAIL_STEP, st)])
      (s.partFault p).event (some p) 0x8403 [(b, 2), (collStatus r.fail, 2), (st, 4)]
  let s := if r.poisoned then s.partFault p else s
  let s := s.upColl p (fun c => { c with runs := c.runs.filter (fun x => x.bucket != b), ins := c.ins.filter (fun x => !(x.step == st && x.bucket == b)) })
  let s :=
    if b + 1 = s.g F.COLL_PLAN_NBUCK p then
      ((s.w F.COLL_WIN_WATER p 0 0).w F.COLL_STEP_STEP p 0 ((st + 1) % 2 ^ 32)).upColl p (fun c => { c with bytes := [], vers := [] })
    else s.w F.COLL_WIN_WATER p 0 (b + 1)
  let s := s.upColl p (fun c => { c with heldR := c.heldR.filter (fun x => s.resultHeld p x.2) })
  (s.servePeerReads.collPost p).collSteps p

/-- BUCKET_PUBLISH (R253–R255): the watermark bucket, its results written and its notices acknowledged, is published. -/
def execBucketPublish (p : Nat) (s : State) : Res :=
  if 8 ≤ p then .fault .noSuchUnit
  else .next (
    let s := s.collSteps p
    match s.collRun? p (s.watermark p) with
    | some r => if r.final ∧ r.notices = 0 then s.collPublish p r else s
    | none => s)

/-! Notices (R255, R261). -/

/-- The non-finite record of an accepted notice word (Table 9.3). -/
def noticeRecord (w : Nat) : NonFin := ⟨fld w 16 32, fld w 0 16, fld w 51 12, fld w 63 32, fld w 49 1 == 1⟩

/-- NOTICE_DELIVERY (R150, R151, R170, R255, R261, R298): notice packet `idx` meets the alcove check of its tile. A refused shadow notice
records a fault for the partition. -/
def execNoticeDelivery (idx : Nat) (s : State) : Res :=
  .next (
    match s.net[idx]? with
    | some q =>
      match q.body with
      | .coll dst p b addr nonfin words =>
        if !(q.arrived && s.firstOfFlow q) then s
        else
          let s := s.dropPkt q.id
          let src : Src := ⟨some q.tag, none, q.tag⟩
          let s := match s.alcoveCheck dst addr words.length true 2 q.cls src with
            | .ok _ =>
              let s := s.deliver dst addr words
              if nonfin then s.upTile dst (fun t => { t with pendV := nfMin t.pendV ((words.head?).map (fun w => noticeRecord w.1)) }) else s
            | .error (why, alc) =>
              let s := s.alcViolation dst addr true 2 q.cls src why alc
              if q.cls = 3 then s.partFault p else s
          if q.cls = 3 then s else s.noticeDone p b
      | _ => s
    | none => s)

/-! The watchdog (R258). -/

/-- The lowest rank whose input a bucket still lacks here, 0xFFF when it lies further along the path. -/
def State.waitRank (s : State) (p b : Nat) : Nat :=
  let d := s.bucket p b
  let g := s.cG p
  let r := s.cR p
  let k := r / s.cS p
  let mine := (List.range g).filter (fun z => z % s.cS p == r % s.cS p)
  let lacks : List Nat :=
    match Bk.op d with
    | 0 | 1 =>
      if s.thinSkip p d then (List.range g).filter (fun z => (s.collFrom p b 6 z z).isNone)
      else ((List.range (s.cS p)).map (k * s.cS p + ·)).filter (fun a => mine.any (fun z => (s.collFrom p b 1 z a).isNone && (s.collIns p b 2 z).isEmpty))
    | 2 => (List.range g).filter (fun z => (s.collFrom p b 4 z z).isNone)
    | 3 => if (s.collFrom p b 4 (Bk.keep d) (Bk.keep d)).isNone then [Bk.keep d] else []
    | 4 => (List.range g).filter (fun a => (s.collFrom p b 1 r a).isNone && (s.collFrom p b 4 r a).isNone)
    | 5 => match s.collRun? p b with
      | some x => (x.moves.filter (fun m => m.2.1 == r && (s.collFrom p b 1 r m.1).isNone && (s.collFrom p b 4 r m.1).isNone)).map (·.1)
      | none => []
    | _ => []
  (leastBy id (lacks.filter (· != r))).getD 0xFFF

/-- COLLECTIVE_SLOW (R258): bucket b has been posted for COLL.WDOG.TIMEOUT milliseconds and is not published. -/
def execCollectiveSlow (p b : Nat) (s : State) : Res :=
  if 8 ≤ p then .fault .noSuchUnit
  else .next (
    match s.collRun? p b with
    | some r =>
      if r.slow ∨ s.now < r.postedAt + 1000000 * s.g F.COLL_WDOG_TIMEOUT p then s
      else
        let w := s.waitRank p b
        let s := (s.upRun p b (fun r => { r with slow := true })).inc F.COLL_SLOW_COUNT p 0 1
        let s := ((s.w F.COLL_SLOW_BUCKET p 0 b).w F.COLL_SLOW_WAITRANK p 0 w).w F.COLL_SLOW_VALID p 0 1
        s.event (some p) 0x8402 [(b, 2), (w, 2), (s.g F.COLL_STEP_STEP p, 4)]
    | none => s)

/-! Re-sharding (R272, R273). -/

/-- The table of a PERMUTE (Table 9.5). -/
def moveTable (n : Nat) (l : List (Nat × Bool)) : List (Nat × Nat × Nat × Nat × Nat) :=
  (pieces 16 n l).map (fun b => let v := leVal (b.map (·.1)); (fld v 0 12, fld v 12 12, fld v 32 32, fld v 64 32, fld v 96 32))

/-- Why a PERMUTE fails at this rank: 0 not at all (R272). -/
def State.moveBad (s : State) (p g : Nat) (m : List (Nat × Nat × Nat × Nat × Nat)) : Nat :=
  let ms := s.members p g
  let elems := ((ms.head?).map (fun x => x.2.elems)).getD 0
  let clash := m.zipIdx.any (fun x => m.zipIdx.any (fun y => decide (x.2 < y.2) && x.1.2.1 == y.1.2.1 &&
    overlaps x.1.2.2.2.1 (x.1.2.2.2.1 + x.1.2.2.2.2) y.1.2.2.2.1 (y.1.2.2.2.1 + y.1.2.2.2.2)))
  let out := m.any (fun x => decide (s.cG p ≤ x.1) || decide (s.cG p ≤ x.2.1) || decide (elems < x.2.2.1 + x.2.2.2.2) || decide (elems < x.2.2.2.1 + x.2.2.2.2) || x.2.2.2.2 % 96 != 0)
  if out || clash || ms.any (fun x => x.2.held x.2.other) then 4 else 0

/-- The bytes this rank sends to rank z: each member's moves in table order. None while a line is under repair. -/
def State.moveRead (s : State) (p r z : Nat) (moves : List (Nat × Nat × Nat × Nat × Nat)) : List (Nat × Shard) → State × Option (Option (List (Nat × Bool)))
  | [] => (s, some (some []))
  | x :: rest =>
    let w := fmtBytes x.2.fmt
    let q := (moves.filter (fun m => m.1 == r && m.2.1 == z)).foldl (fun (a : State × Option (Option (List (Nat × Bool)))) m =>
      match a.2 with
      | some (some l) =>
        let t := a.1.collRead p (x.2.slot x.2.cur + m.2.2.1 * w) (m.2.2.2.2 * w)
        (t.1, t.2.map (fun o => o.map (l ++ ·)))
      | _ => a) (s, some (some []))
    match q.2 with
    | some (some l) =>
      let t := q.1.moveRead p r z moves rest
      (t.1, t.2.map (fun o => o.map (l ++ ·)))
    | _ => q

/-- The bytes this rank sends to each rank: none while a line is under repair, `none` within for a refused read. -/
def State.moveReads (s : State) (p b : Nat) (moves : List (Nat × Nat × Nat × Nat × Nat)) : List Nat → State × Option (List (Nat × Option (List (Nat × Bool))))
  | [] => (s, some [])
  | z :: zs =>
    let q := s.moveRead p (s.cR p) z moves (s.members p (Bk.shard (s.bucket p b)))
    let t := q.1.moveReads p b moves zs
    (t.1, match q.2, t.2 with | some o, some l => some ((z, o) :: l) | _, _ => none)
/-- Send what a PERMUTE moves from this rank; a refused read fails the bucket. -/
def State.moveSend (s : State) (p b : Nat) (l : List (Nat × Option (List (Nat × Bool)))) : State :=
  let d := s.bucket p b
  l.foldl (fun s x =>
    match x.2 with
    | some y => s.toHost p d (x.1 % s.cS p) (s.collMake p b 1 x.1 (s.cR p) none false (0, 0) y)
    | none => (s.collFailed p b 5).toHost p d (x.1 % s.cS p) (s.collMake p b 1 x.1 (s.cR p) none true (0, 0) [])) s

/-- PERMUTE_START (R272, R273): the lowest posted PERMUTE starts once every bucket below it has completed its reduction. A rank that fails by its own case tells
the ranks it moves to, every rank where it cannot read its table, and still waits for what they send. -/
def execPermuteStart (p : Nat) (s : State) : Res :=
  if 8 ≤ p then .fault .noSuchUnit
  else .next (
    match leastBy (·.bucket) ((s.collOf p).runs.filter (fun r => Bk.op (s.bucket p r.bucket) == 5 && !r.started)) with
    | none => s
    | some r =>
      let b := r.bucket
      let d := s.bucket p b
      let below := (List.range (b - s.watermark p)).map (s.watermark p + ·)
      let tell := fun (s : State) (zs : List Nat) => zs.foldl (fun (s : State) (z : Nat) =>
        s.toHost p d (z % s.cS p) (s.collMake p b 1 z (s.cR p) none true (0, 0) [])) s
      if below.any (fun x => !((s.collRun? p x).map (·.final)).getD false) ∨
          (s.collOf p).runs.any (fun x => x.started && !x.final && x.epoch == s.g F.COLL_STEP_EPOCH p) then s
      else
        let q := s.collRead p (Bk.xaddr d) (16 * Bk.e d)
        let start := fun (s : State) (m : List (Nat × Nat × Nat × Nat × Nat)) => s.upRun p b (fun x => { x with started := true, moves := m })
        match q.2 with
        | none => q.1
        | some none => (tell (start (q.1.collFailed p b 5) []) (List.range (s.cG p))).collSteps p
        | some (some l) =>
          let m := moveTable (Bk.e d) l
          let why := if l.any (·.2) then 4 else q.1.moveBad p (Bk.shard d) m
          let mine := fun (m : List (Nat × Nat × Nat × Nat × Nat)) => ((m.filter (fun x => x.1 == s.cR p)).map (·.2.1)).eraseDups
          if l.any (·.2) then (tell (start (q.1.collFailed p b 4) []) (List.range (s.cG p))).collSteps p
          else if why ≠ 0 then
            let ok := m.filter (fun x => decide (x.1 < s.cG p) && decide (x.2.1 < s.cG p))
            (tell (start (q.1.collFailed p b why) ok) (mine ok)).collSteps p
          else
            let t := q.1.moveReads p b m (mine m)
            match t.2 with
            | none => t.1
            | some out => ((start t.1 m).moveSend p b out).collSteps p)

/-! Commits at a landing (R269). -/

/-- One posted COMMIT takes effect, or fails where a member's other slot is HELD. -/
def State.collCommit1 (s : State) (p b : Nat) : State × Bool :=
  let g := Bk.shard (s.bucket p b)
  let s := s.upColl p (fun c => { c with commits := c.commits.filter (· != b) })
  if (s.members p g).any (fun x => x.2.held x.2.other) then (s.collFailed p b 3, false)
  else
    let moved := (s.collOf p).permuted.contains g
    let up := fun (x : Shard) =>
      let v := x.ver x.cur
      let v : Nat × Nat := ((if moved then v.1 + 1 else v.1) % 2 ^ 16, (v.2 + 1) % 2 ^ 32)
      if x.cur = 0 then { x with cur := 1, ver1 := v, held1 := true } else { x with cur := 0, ver0 := v, held0 := true }
    let s := s.upColl p (fun c => { c with shards := c.shards.map (fun x => if x.2.group = g then (x.1, up x.2) else x), permuted := c.permuted.filter (· != g) })
    let s := if moved then (s.w F.COLL_STEP_EPOCH p 0 ((s.g F.COLL_STEP_EPOCH p + 1) % 2 ^ 16)).w F.COLL_WIN_EPOCHNEXT p 0 (if (s.collOf p).permuted.isEmpty then 0 else 1) else s
    (s, true)
/-- Every posted COMMIT at the completion of a landing, except above a PERMUTE that has not completed (R273); whether one took effect. -/
def State.collCommit (s : State) (p : Nat) : State × Bool :=
  ((s.collOf p).commits.filter (fun b => !(s.collOf p).runs.any (fun x => decide (x.bucket < b) && Bk.op (s.bucket p x.bucket) == 5 && !x.final))).foldl (fun a b => let r := a.1.collCommit1 p b; (r.1, a.2 || r.2)) (s, false)

/-! Arrival of a packet (R257, R260). -/

/-- Whether a packet brings a segment or move that this rank passes on along the ring (R257, R272). -/
def State.collTransit (s : State) (p : Nat) (x : CollIn) : Bool :=
  let op := Bk.op (s.bucket p x.bucket)
  (op == 4 || op == 5) && x.shard != s.cR p && x.shard % s.cS p == s.cR p % s.cS p && s.g F.COLL_PLAN_VALID p == 1
/-- The collective data of a packet enters the bucket's path: a chunk of the input that its prefix names. A segment or move on its way goes on at once, whether
or not the bucket is done here; other packets of earlier steps and published buckets are dropped. -/
def State.collArrive (s : State) (p : Nat) (x : CollIn) : State :=
  let st := s.g F.COLL_STEP_STEP p
  if s.collTransit p x then
    let s := s.inc F.COLL_RX_LINES p 0 ((x.size + 63) / 64)
    match s.nextCtx p with
    | some c => s.collSend p c (s.bucket p x.bucket) { x with stage := 4 }
    | none => s
  else if diff32 x.step st < 0 ∨ (x.step = st ∧ x.bucket < s.watermark p) then s
  else
    let same := fun (y : CollIn) => y.step == x.step && y.bucket == x.bucket && y.stage == x.stage && y.shard == x.shard && y.srank == x.srank
    let s := s.inc F.COLL_RX_LINES p 0 ((x.size + 63) / 64)
    let join := fun (y : CollIn) => { y with got := x.got.foldl (fun g k => addChunk k g) y.got, nf := nfMerge y.nf x.nf, failed := y.failed || x.failed }
    let s := s.upColl p (fun c => { c with ins := if c.ins.any same then c.ins.map (fun y => if same y then join y else y) else c.ins ++ [x] })
    s.collSteps p

end Sys2Proof.Machine
end

