-- ==== Sys2Proof/Machine/Protect.lean ====
section
/-! DEFINITION. State protection at the owner (spec 11_state_protection.md, R293–R307): commit landings, the chooser, commit records,
catch-up, digests, snapshots, the loss of a link, and the risk index. -/

namespace Sys2Proof.Machine

def Prot.empty : Prot := ⟨[], none, none, false, [], [], 0, [], none, 0, [], []⟩
def State.protOf (s : State) (p : Nat) : Prot := Sparse.get Prot.empty s.prot p
def State.upProt (s : State) (p : Nat) (f : Prot → Prot) : State := { s with prot := Sparse.upd Prot.empty s.prot p f }
/-- The pages of a tensor, in order (R293). -/
def Tensor.pages (t : Tensor) : List Nat := (List.range t.npages).map (t.page + ·)
def State.tensor? (s : State) (p i : Nat) : Option Tensor := (s.protOf p).tensors[i]?
def State.upTensor (s : State) (p i : Nat) (f : Tensor → Tensor) : State := s.upProt p (fun x => { x with tensors := x.tensors.modify i f })
/-- The method a tensor is protected by: without a registered plan every tensor is a snapshot tensor (R294). -/
def State.methodOf (s : State) (p : Nat) (t : Tensor) : Nat := if s.g F.COLL_PLAN_VALID p = 0 then 1 else t.method
/-- The tensors in the snapshot method. -/
def State.snapTensors (s : State) (p : Nat) : List Nat :=
  (List.range (s.protOf p).tensors.length).filter (fun i => ((s.tensor? p i).map (s.methodOf p)).getD 0 == 1)
/-- Change the entries of pages; the cut is made at once. -/
def State.upPages (s : State) (l : List Nat) (f : BitVec 64 → BitVec 64) : State := l.foldl (fun s e => s.setPage e (f (s.page e))) s

/-! Pages as they are sent (R240, R300, R304). -/

/-- The lines of page e: from COPYF while COPYV is 1, otherwise as they stand (R231). None while one is under repair or held (R254). -/
def State.pageImage (s : State) (e : Nat) : State × Option (List LineVal) :=
  if Pm.copyv (s.page e) = 1 then
    let f := Pm.copyf (s.page e)
    (List.range frameLines).foldl (fun (a : State × Option (List LineVal)) l =>
      let r := a.1.readFrame f l none false
      match a.2, r.2 with
      | some ls, some v => (r.1, some (ls ++ [v]))
      | _, _ => (r.1, none)) (s, some [])
  else
    let h := s.holdRead (Pm.owner (s.page e)) (2 ^ 51) (e * 2 ^ 23) (2 ^ 23)
    if h.2 then (h.1, none) else s.readLines (e * 2 ^ 23) frameLines
/-- Page e has been sent: HOLD clears, its copy's frame returns to the pool, and writes that waited for it are released (R240). -/
def State.pageSent (s : State) (e : Nat) : State :=
  let v := s.page e
  let used := (s.pageMap.filter (fun (x : Nat × BitVec 64) => Pm.copyv x.2 == 1)).length
  let s : State := if Pm.copyv v = 1 ∧ s.pool.length + used ≤ s.poolSize then { s with pool := s.pool ++ [Pm.copyf v] } else s
  (s.setPage e (Pm.setCopyv (Pm.setHold v 0) 0)).releaseHeld e
/-- `digest` of R301 over bytes from byte offset o. -/
def digestBytes (o : Nat) (b : List Nat) : Nat :=
  ((pieces 8 (b.length / 8) b).zipIdx.foldl (fun (d : BitVec 64) x => d ^^^ mix64 (BitVec.ofNat 64 (leVal x.1) ^^^ BitVec.ofNat 64 (o + 8 * x.2))) 0#64).toNat
/-- Bytes of lines, a poisoned line as zero bytes. -/
def plainBytes (l : List LineVal) : List Nat := l.flatMap (fun v => if v.poison then List.replicate 64 0 else leBytes 64 v.data.toNat)

/-! Jobs (R305). -/

/-- Whether a job is due: a snapshot, a catch-up, a digest read. -/
def State.snapWanted (s : State) (p : Nat) : Bool :=
  let x := s.protOf p
  x.bufs.isSome && !x.tensors.isEmpty && (x.snapDue || decide (s.g F.SP_DUE_TIME p ≤ s.now))
def State.linkIsUp (s : State) (p : Nat) : Bool := s.g F.SP_LINK_VALID p == 1 && s.g F.SP_LINK_UP p == 1
def State.catchWanted (s : State) (p : Nat) : Bool := !(s.protOf p).catchDue.isEmpty && s.linkIsUp p
/-- Whether a job waits: one runs, and another is due; a digest read that runs is not another. -/
def State.protWaits (s : State) (p : Nat) : Bool :=
  let x := s.protOf p
  x.job.isSome && (s.snapWanted p || s.catchWanted p || (!x.digestDue.isEmpty && x.job != some .digest))
/-- The running job ends. What waited for it goes on waiting, for the next commit landing. -/
def State.jobEnd (s : State) (p : Nat) : State :=
  (s.w F.SP_SNAP_DEFERRED p 0 (if s.protWaits p then 1 else 0)).upProt p (fun x => { x with job := none })

/-! Snapshots (R303, R304). -/

/-- The tensor entry (Table 11.1). -/
def Tensor.entry (t : Tensor) : Nat := t.page + t.npages * 2 ^ 19 + t.kind * 2 ^ 38 + t.force * 2 ^ 39 + t.rate * 2 ^ 41 + t.shpage * 2 ^ 64
/-- Header and tensor table of an image (Table 11.6). -/
def snapHead (step epoch halls time : Nat) (l : List Tensor) : List Nat :=
  leBytes 4 0x50414E53 ++ leBytes 8 Config.serial ++ leBytes 4 step ++ leBytes 2 epoch ++ [halls, 0] ++ leBytes 8 time ++ leBytes 2 l.length ++ leBytes 34 0 ++
  l.flatMap (fun t => leBytes 16 t.entry) ++ List.replicate ((64 - 16 * l.length % 64) % 64) 0
/-- Where the first page image stands, for n tensors. -/
def snapBase (n : Nat) : Nat := 64 + up64 (16 * n)

/-- The snapshot interval of partition p in a tier, in ns (Table 11.9). -/
def State.interval (s : State) (p tier : Nat) : Nat := s.g F.SP_CFG_INTERVAL p * 1000000000 / (match tier with | 0 => 1 | 1 => 4 | _ => 16)
/-- Abandon the running snapshot (R304): cause 1 kill or release, 2 host write. -/
def State.snapFail (s : State) (p cause : Nat) : State :=
  match (s.protOf p).job with
  | some (.snapshot buf _ _ _ _ pages sent _ _) =>
    let s := (pages.zipIdx.filter (fun (e : Nat × Nat) => !sent.any (fun y => y.1 == e.2))).foldl (fun s (e : Nat × Nat) => s.pageSent e.1) s
    let s := ((s.jobEnd p).w F.SP_SNAP_ACTIVE p 0 0).inc F.SP_SNAP_COUNT_FAILED p 0 1
    s.event (some p) 0x8505 [(buf, 1), (cause, 1)]
  | _ => s
/-- Write a part of the running image into its buffer; one that the buffer cannot take, or whose queue pair is in error, fails the snapshot (R304, R323). -/
def State.snapWrite (s : State) (p hb off : Nat) (b : List Nat) : State :=
  if s.bufTakes hb (off + b.length) then s.hostOp hb b.length (.hostWrite hb off b) (.snapshot p) else s.snapFail p 2
/-- Start a snapshot at a landing (R304): HOLD on every snapshot page, then the header and the table of all registered tensors go out. (DESIGN CHOICE, unsafe: log 77) -/
def State.snapStart (s : State) (p a b : Nat) : State :=
  let ids := s.snapTensors p
  let ts := ids.filterMap (fun i => s.tensor? p i)
  let pages := ts.flatMap Tensor.pages
  let buf := if s.g F.SP_SNAP_VALIDIMG p = 1 then 1 - s.g F.SP_SNAP_BUF p else 0
  let step := s.g F.SP_COMMIT_STEP p
  let head := snapHead step (s.g F.COLL_STEP_EPOCH p) (s.hallsOf p).length s.now (s.protOf p).tensors
  let s := s.upPages pages (fun v => Pm.setHold v 1)
  let s := (s.w F.SP_SNAP_ACTIVE p 0 1).wreg R.SP_SNAP_PROG p 0 (setFields 0 [(F.SP_SNAP_PROG_SENT, 0), (F.SP_SNAP_PROG_TOTAL, pages.length)])
  let s := s.upProt p (fun x => { x with job := some (.snapshot buf step (s.g F.COLL_STEP_EPOCH p) s.now ids pages [] (digestBytes 0 head) 0), snapDue := false, lastSnap := s.now })
  let s := s.w F.SP_DUE_TIME p 0 (s.now + s.interval p (s.g F.SP_RISK_TIER 0))
  s.snapWrite p (if buf = 0 then a else b) 0 head

/-- SNAPSHOT_PAGE_SENT (R240, R304): the part sent last is in the host buffer: the next page follows (one whose copy waits for the pool goes
first), then the status table, then the trailer; after the trailer the image is complete. -/
def execSnapshotPageSent (p : Nat) (s : State) : Res :=
  if 8 ≤ p then .fault .noSuchUnit
  else .next (
    match (s.protOf p).job, (s.protOf p).bufs with
    | some (.snapshot buf step epoch time ids pages sent dg phase), some hb =>
      let h := if buf = 0 then hb.1 else hb.2
      let base := snapBase (s.protOf p).tensors.length
      let n := pages.length
      if s.foyer.qps.any (fun q => q.2.ops.any (fun o => o.why == .snapshot p)) then s
      else
        let todo := pages.zipIdx.filter (fun (e : Nat × Nat) => !sent.any (fun y => y.1 == e.2))
        let pick := match todo.find? (fun (e : Nat × Nat) => s.pool.isEmpty && s.copies.any (fun c => c.page == e.1) && Pm.hold (s.page e.1) == 1) with
          | some x => some x
          | none => todo.head?
        match pick with
        | some x =>
          let r := s.pageImage x.1
          match r.2 with
          | none => r.1
          | some ls =>
            let b := plainBytes ls
            let off := base + x.2 * 2 ^ 23
            let s := r.1.pageSent x.1
            let s := s.upProt p (fun y => { y with job := some (.snapshot buf step epoch time ids pages (sent ++ [(x.2, ls.any (·.poison))]) (dg ^^^ digestBytes off b) 0) })
            (s.inc F.SP_SNAP_PROG_SENT p 0 1).snapWrite p h off b
        | none =>
          let st := (List.range n).map (fun i => if sent.contains (i, true) then 1 else 0)
          let st := st ++ List.replicate ((64 - n % 64) % 64) 0
          let off := base + n * 2 ^ 23
          match phase with
          | 0 => (s.upProt p (fun y => { y with job := some (.snapshot buf step epoch time ids pages sent (dg ^^^ digestBytes off st) 1) })).snapWrite p h off st
          | 1 =>
            let tr := leBytes 8 dg ++ leBytes 4 0x4B4F4E53 ++ leBytes 52 0
            (s.upProt p (fun y => { y with job := some (.snapshot buf step epoch time ids pages sent dg 2) })).snapWrite p h (off + st.length) tr
          | _ =>
            let s := s.jobEnd p
            let s := s.wreg R.SP_SNAP p 0 (setFields 0 [(F.SP_SNAP_BUF, buf), (F.SP_SNAP_VALIDIMG, 1), (F.SP_SNAP_DEFERRED, s.g F.SP_SNAP_DEFERRED p), (F.SP_SNAP_STEP, step)])
            let s := s.inc F.SP_SNAP_COUNT_DONE p 0 1
            s.event (some p) 0x8504 [(buf, 1), (if sent.any (·.2) then 1 else 0, 1), (step, 4), (n, 4)]
    | _, _ => s)

/-! The link (R295, R297, R300–R302). -/

/-- Send a CTRL packet (Table 12.6). -/
def State.sendCtrl (s : State) (ctx sub cls extra addr pmask plen payload : Nat) : State :=
  s.peerSend ctx 10 cls (sub + extra * 2 ^ 8) addr pmask plen payload (fun _ => none)
/-- The slice of set rank 0 of the step's first COMMIT bucket, 192 bytes (R297); poisoned bytes, a refused page and no such bucket read as zero. None while a line
is under repair. -/
def State.commitSlice (s : State) (p : Nat) : State × Option (List Nat) :=
  match (s.collOf p).plan.find? (fun d => Bk.op d == 6) with
  | some d =>
    let r := s.collRead p (Bk.caddr d) 192
    (r.1, r.2.map (fun l => (l.map (fun l => l.map (fun x => if x.2 then 0 else x.1))).getD (List.replicate 192 0)))
  | none => (s, some (List.replicate 192 0))
/-- The commit record (R297, Table 11.2): its header, then the slice. -/
def State.commitRecord (s : State) (p bits : Nat) : State :=
  let c := s.collOf p
  let legs := (c.plan.filter (fun d => Bk.leg d == 1 && decide (Bk.op d ≤ 1) && !s.thinSkip p d)).length
  let head := leBytes 4 (s.g F.SP_COMMIT_STEP p) ++ leBytes 2 (s.g F.COLL_STEP_EPOCH p) ++ [bits % 8, 0] ++ leBytes 2 legs ++ leBytes 54 0
  let r := s.commitSlice p
  r.1.sendCtrl (s.g F.SP_LINK_CTX p) 3 0 0 0 0 256 (leVal (head ++ r.2.getD (List.replicate 192 0)))

/-- The digest reads due for the tensors that `i` names are given up: HOLD clears on their pages. -/
def State.digestDrop (s : State) (p : Nat) (i : Nat → Bool) : State :=
  let x := s.protOf p
  let gone := x.digestDue.filter (fun d => i d.1)
  let s := gone.foldl (fun (s : State) (d : Nat × Nat) => (((s.tensor? p d.1).map Tensor.pages).getD []).foldl (fun (s : State) (e : Nat) => s.pageSent e) s) s
  let s := s.upProt p (fun x => { x with digestDue := x.digestDue.filter (fun d => !i d.1), digests := x.digests.filter (fun d => !i d.1), theirs := x.theirs.filter (fun d => !i d.1) })
  if (s.protOf p).job = some .digest ∧ (s.protOf p).digestDue.isEmpty then s.jobEnd p else s
/-- Tensor i leaves the shadow method: SHADOW clears on its pages (R294), and no digest of it is compared any more. -/
def State.unshadow (s : State) (p i : Nat) : State :=
  let s := s.digestDrop p (· == i)
  s.upPages (((s.tensor? p i).map Tensor.pages).getD []) (fun v => Pm.setShadow v 0)
/-- The chooser for tensor i (R294). -/
def State.choose (s : State) (p i : Nat) : State :=
  match s.tensor? p i with
  | none => s
  | some t =>
    let m := if t.force = 1 then 1 else if t.force = 2 then 0
      else if t.kind = 0 ∧ s.g F.SP_CFG_SHMIN p ≤ 8 * t.npages ∧ s.g F.SP_CFG_SHRATE p ≤ t.rate ∧ s.linkIsUp p then 2 else 1
    if m = 2 then
      if t.catching ∨ (t.method = 2 ∧ Pm.shadow (s.page t.page) = 1) then s
      else (s.upTensor p i (fun t => { t with method := 1, catching := true })).upProt p (fun x => { x with catchDue := x.catchDue ++ [i] })
    else
      let s := if t.method = 2 then s.unshadow p i else s
      (s.upTensor p i (fun t => { t with method := m, catching := false })).upProt p (fun x => { x with catchDue := x.catchDue.filter (· != i) })

/-- Send the next page of the running catch-up once the packets of the page before are acknowledged (R300, step 2). A packet names the shadow
byte offset and the owner's page in ADDR; the tensor, whether its page is the last, and the step in AUX. -/
def State.catchStep (s : State) (p : Nat) : State :=
  match (s.protOf p).job with
  | some (.catchup i step (e :: rest)) =>
    let ctx := s.g F.SP_LINK_CTX p
    match s.peer? ctx, s.tensor? p i with
    | some c, some t =>
      if c.unacked.any (fun k => k.typ == 10 && k.aux % 256 == 4) then s
      else
        let r := s.pageImage e
        match r.2 with
        | none => r.1
        | some ls =>
          let k := c.pmax / 64
          let n := (ls.length + k - 1) / k
          let s := (pieces k n ls).zipIdx.foldl (fun s (x : List LineVal × Nat) =>
            let pm := (x.1.zipIdx.map (fun v => if v.1.poison then 2 ^ v.2 else 0)).sum
            let last := if rest.isEmpty then 1 else 0
            s.sendCtrl ctx 4 3 (i % 2 ^ 10 + last * 2 ^ 10 + step % 2 ^ 13 * 2 ^ 11) ((t.shpage + (e - t.page)) * 2 ^ 23 + x.2 * k * 64 + e * 2 ^ 42) pm
              (64 * x.1.length) (leVal (plainBytes x.1))) r.1
          (s.pageSent e).upProt p (fun y => { y with job := some (.catchup i step rest) })
    | _, _ => s
  | _ => s

/-- Start the catch-up of tensor i at the committed step (R300, step 1). -/
def State.catchStart (s : State) (p i : Nat) : State :=
  match s.tensor? p i with
  | some t =>
    let s := (s.upPages t.pages (fun v => Pm.setHold v 1)).w F.SP_LINK_CATCHUP p 0 1
    (s.upProt p (fun x => { x with job := some (.catchup i (s.g F.SP_COMMIT_STEP p) t.pages), catchDue := x.catchDue.filter (· != i), base := s.g F.SP_COMMIT_STEP p })).catchStep p
  | none => s.upProt p (fun x => { x with catchDue := x.catchDue.filter (· != i) })

/-- Drop the catch-up under way; its pages are let go. -/
def State.catchStop (s : State) (p : Nat) : State :=
  match (s.protOf p).job with
  | some (.catchup _ _ todo) => (todo.foldl (fun (s : State) (e : Nat) => s.pageSent e) (s.jobEnd p)).w F.SP_LINK_CATCHUP p 0 0
  | _ => s

/-! Digest checks (R301). -/

/-- The digest of a tensor as its pages are sent (R240, R301); none while a line is under repair. -/
def State.tensorDigest (s : State) (pages : List Nat) : State × Option Nat :=
  pages.zipIdx.foldl (fun (a : State × Option Nat) (e : Nat × Nat) =>
    let r := a.1.pageImage e.1
    match a.2, r.2 with
    | some d, some ls => (r.1, some (d ^^^ digestBytes (e.2 * 2 ^ 23) (plainBytes ls)))
    | _, _ => (r.1, none)) (s, some 0)
/-- The buddy's digest of tensor i at a step differs from the own one: SHADOW_DIVERGED, and a catch-up of the tensor follows. -/
def State.diverged (s : State) (p i st : Nat) : State :=
  let s := (s.inc F.SP_DIGEST_MISMATCH p 0 1).event (some p) 0x8502 [(i, 2), (st, 4)]
  ((s.unshadow p i).upTensor p i (fun t => { t with method := 1, catching := true })).upProt p (fun y => { y with catchDue := y.catchDue ++ [i] })
/-- Both digests of tensor i at a step are here: they are compared. -/
def State.digestCheck (s : State) (p i st own theirs : Nat) : State :=
  let s := (s.upProt p (fun y => { y with
    digests := y.digests.filter (fun x => !(x.1 == i && x.2.1 == st)), theirs := y.theirs.filter (fun x => !(x.1 == i && x.2.1 == st)) })).inc F.SP_DIGEST_CHECKS p 0 1
  if own = theirs then s else s.diverged p i st
/-- At the commit landing of step s a digest check is due every SP.CFG2.DIGEST steps after the latest catch-up's: HOLD is set on the pages of each shadowed
tensor. While one is still due no other is taken up. (DEDUCED, unsafe: log 81) -/
def State.digestTake (s : State) (p : Nat) : State :=
  let x := s.protOf p
  let st := s.g F.SP_COMMIT_STEP p
  let dg := s.g F.SP_CFG2_DIGEST p
  if dg = 0 ∨ st = x.base ∨ (st + 2 ^ 32 - x.base) % 2 ^ 32 % dg ≠ 0 ∨ !x.digestDue.isEmpty ∨ !s.linkIsUp p then s
  else
    let ts := x.tensors.zipIdx.filter (fun t => t.1.method == 2)
    (s.upPages (ts.flatMap (fun t => t.1.pages)) (fun v => Pm.setHold v 1)).upProt p (fun x => { x with digestDue := ts.map (fun t => (t.2, st)) })
/-- The owner's digest reads, tensor by tensor; one with a line under repair waits. A digest is compared at once where the buddy's has come. -/
def State.digestStep (s : State) (p : Nat) : State :=
  if (s.protOf p).job ≠ some .digest then s
  else
    let s := (s.protOf p).digestDue.foldl (fun (s : State) (d : Nat × Nat) =>
      let pages := ((s.tensor? p d.1).map Tensor.pages).getD []
      let r := s.tensorDigest pages
      match r.2 with
      | none => r.1
      | some v =>
        let s := pages.foldl (fun (s : State) (e : Nat) => s.pageSent e) r.1
        let s := s.upProt p (fun x => { x with digestDue := x.digestDue.filter (· != d), digests := x.digests ++ [(d.1, d.2, v)] })
        match (s.protOf p).theirs.find? (fun x => x.1 == d.1 && x.2.1 == d.2) with
        | some y => s.digestCheck p d.1 d.2 v y.2.2
        | none => s) s
    if (s.protOf p).digestDue.isEmpty ∧ (s.protOf p).job = some .digest then s.jobEnd p else s
/-- The buddy's digest of tensor i at a step (R301): it is compared with the own one, or kept until that is read; one that no check asked for is dropped. -/
def State.spDigest (s : State) (p i st d : Nat) : State :=
  match (s.protOf p).digests.find? (fun x => x.1 == i && x.2.1 == st) with
  | some x => s.digestCheck p i st x.2.2 d
  | none => if (s.protOf p).digestDue.contains (i, st) then s.upProt p (fun y => { y with theirs := y.theirs ++ [(i, st, d)] }) else s

/-! Commit landings (R294, R305). -/

/-- Start what is due at a commit landing, one job at a time: snapshot, then catch-up, then digest (R305). -/
def State.protJobs (s : State) (p : Nat) (committed : Bool) : State :=
  let x := s.protOf p
  let s :=
    if x.job.isSome then s
    else match s.snapWanted p, x.bufs, committed && s.catchWanted p, x.catchDue with
      | true, some hb, _, _ => s.snapStart p hb.1 hb.2
      | _, _, true, i :: _ => s.catchStart p i
      | _, _, _, _ => if committed && !x.digestDue.isEmpty then (s.upProt p (fun x => { x with job := some .digest })).digestStep p else s
  s.w F.SP_SNAP_DEFERRED p 0 (if s.protWaits p then 1 else 0)

/-- What a landing's completion brings to commits and protection before any tile resumes (R269, R294, R297, R304, R305). -/
def State.protLanding (s : State) (p bits : Nat) : State :=
  let c := s.collCommit p
  if c.2 then
    let s := c.1.w F.SP_COMMIT_STEP p 0 (s.g F.COLL_STEP_STEP p)
    let s : State := { s with pageMap := (s.pageMap.map (fun e => if Pm.valid e.2 = 1 ∧ Pm.owner e.2 = p then (e.1, Pm.setWsc e.2 0) else e)) }
    let s := (List.range (s.protOf p).tensors.length).foldl (fun s i => s.choose p i) s
    let s := if s.linkIsUp p then s.commitRecord p bits else s
    (((s.digestTake p).digestStep p).protJobs p true).collSteps p
  else
    let s := if s.g F.COLL_PLAN_VALID p = 0 then c.1.protJobs p false else c.1
    ((s.catchStep p).digestStep p).collSteps p

/-- The link is lost (R302). -/
def State.linkLose (s : State) (p : Nat) : State :=
  let s := (s.protOf p).tensors.zipIdx.foldl (fun (s : State) (t : Tensor × Nat) => if t.1.method = 2 then s.unshadow p t.2 else s) s
  let s := (s.catchStop p).digestDrop p (fun _ => true)
  let s := s.upProt p (fun x => { x with tensors := x.tensors.map (fun (t : Tensor) => { t with catching := false }), catchDue := [], snapDue := true })
  let s := ((s.w F.SP_LINK_UP p 0 0).w F.SP_LINK_CATCHUP p 0 0).inc F.SP_LAG_LOST p 0 1
  s.event (some p) 0x8503 [(s.g F.SP_LINK_CTX p, 2)]

/-- LINK_LOST (R302): a leg, a record, catch-up data or a repair read has been unacknowledged for 1 s. -/
def execLinkLost (p : Nat) (s : State) : Res :=
  if 8 ≤ p then .fault .noSuchUnit
  else .next (
    let late := match s.peer? (s.g F.SP_LINK_CTX p) with
      | some c => c.unacked.any (fun k => decide (k.since + 1000000000 ≤ s.now) &&
          ((k.typ == 7 && k.cls == 3) || k.typ == 8 || (k.typ == 10 && (k.aux % 256 == 3 || k.aux % 256 == 4 || k.aux % 256 == 5))))
      | none => false
    if s.linkIsUp p && late then s.linkLose p else s)

/-- The buddy acknowledges step `st` (R298, R300): the end of a catch-up, or a replay; `again` asks for a new catch-up (R296). -/
def State.spAck (s : State) (p st : Nat) (again : Bool) : State :=
  if again then
    let ids := (List.range (s.protOf p).tensors.length).filter (fun i => ((s.tensor? p i).map (fun t => t.method == 2 || t.catching)).getD false)
    let s := ids.foldl (fun (s : State) (i : Nat) => (s.unshadow p i).upTensor p i (fun t => { t with method := 1, catching := true })) s
    (s.catchStop p).upProt p (fun x => { x with catchDue := ids })
  else
    let s := s.w F.SP_LINK_ACKED p 0 st
    match (s.protOf p).job with
    | some (.catchup i step []) =>
      if step ≠ st then s
      else match s.tensor? p i with
        | some t =>
          let s := (s.upPages t.pages (fun v => Pm.setShadow v 1)).w F.SP_LINK_CATCHUP p 0 0
          let s := (s.upTensor p i (fun t => { t with method := 2, catching := false })).jobEnd p
          s.event (some p) 0x8501 [(i, 2), (st, 4)]
        | none => s.jobEnd p
    | _ => s

/-! Restore from a shadow (R309). -/

/-- RESTORE_SHADOW_DONE (R309): the buddy has reported its STEP and epoch, and the shadow pages `pages` (page and its lines' bytes) have come: they
are written, SHADOW is set and WSC cleared, or the restore fails where an adopted partition's committed step differs. -/
def execRestoreShadowDone (p step epoch : Nat) (pages : List (Nat × List Nat)) (s : State) : Res :=
  if 8 ≤ p then .fault .noSuchUnit
  else .next (
    match (s.protOf p).restore, s.part? p with
    | some r, some x =>
      let ts := r.tensors.filterMap (fun i => s.tensor? p i)
      let need := (ts.flatMap Tensor.pages).filter (fun e => !x.adopted || Pm.wsc (s.page e) == 1)
      if r.source ≠ 0 then s
      else if x.adopted ∧ s.g F.SP_COMMIT_STEP p ≠ step then (s.upProt p (fun y => { y with restore := none })).cmdDone r.cmd 0x0503
      else if need.any (fun e => !pages.any (fun q => q.1 == e)) then s
      else
        let s := (pages.filter (fun q => need.contains q.1)).foldl (fun s q =>
          (s.dropPage q.1 |>.clearFrame (Pm.frame (s.page q.1)) |> fun s => (pieces 64 frameLines q.2).zipIdx.foldl (fun s (l : List Nat × Nat) =>
            s.writeFrame (Pm.frame (s.page q.1)) l.2 (leVal l.1) false) s)) s
        let s := s.upPages (ts.flatMap Tensor.pages) (fun v => Pm.setWsc (Pm.setShadow v 1) 0)
        let s := r.tensors.foldl (fun s i => s.upTensor p i (fun t => { t with method := 2, catching := false })) s
        let s := ((s.w F.SP_COMMIT_STEP p 0 step).w F.SP_LINK_ACKED p 0 step).upProt p (fun y => { y with restore := none })
        (s.event (some p) 0x8506 [(0, 1), (epoch, 2), (step, 4)]).cmdDone r.cmd 0
    | _, _ => s)

/-! The risk index (R306, R307). -/

/-- Points of one source of corrected errors: r1 in the last 60 s, r24 per 60 s over the preceding 24 h. -/
def cePoints (r1 r24 : Nat) : Nat := let q := (r1 + 1) / (r24 + 1); if q < 2 then 0 else min 32 (8 * Nat.log2 q)
/-- The highest valid reading of the junction sensors 0–85, in thousandths of a degree; none valid gives none. -/
def State.hottest (s : State) : Option Int :=
  (List.range 86).foldl (fun a i =>
    if s.g F.MB_SENSOR_VALID 0 i = 0 then a
    else let t := sext (s.g F.MB_SENSOR_VALUE 0 i) 32; match a with | some x => some (max x t) | none => some t) none
/-- Points of the temperature margin, readings being in thousandths of a degree; a fraction of a point does not count. (DESIGN CHOICE, unsafe: log 191) -/
def tempPoints (t : Option Int) : Nat :=
  match t with
  | none => 0
  | some t => let m := 105000 - t; if 20000 ≤ m then 0 else min 64 ((4 * (20000 - m)).toNat / 1000)
/-- Recompute SP.DUE of every partition for a tier (R307). -/
def State.riskDue (s : State) (tier : Nat) : State :=
  s.parts.foldl (fun s x =>
    let s := s.w F.SP_DUE_TIME x.num 0 ((s.protOf x.num).lastSnap + s.interval x.num tier)
    if tier = 3 then s.upProt x.num (fun y => { y with snapDue := true }) else s) s
/-- Change to a tier and report it. -/
def State.riskTier (s : State) (index old new : Nat) : State :=
  let s := ((s.w F.SP_RISK_TIER 0 0 new).inc F.SP_TIERS_COUNT 0 0 1).event none 0x8507 [(index, 1), (old, 1), (new, 1)]
  let s := if new = 3 then s.event none 0x8508 [(index, 1)] else s
  (s.riskDue new).upMss (fun m => { m with below := 0 })

/-- RISK_INDEX_UPDATE (R306, R307): the MSS recomputes the index, once a second. The physical layers bring the counts of that second: corrected
codewords of links (sub-port index, count) and corrected link errors of controllers (controller, count). (DEDUCED, unsafe: log 82) -/
def execRiskIndexUpdate (fec : List (Nat × Nat)) (mem : List (Nat × Nat)) (s : State) : Res :=
  if fec.any (fun x => decide (72 ≤ x.1)) ∨ mem.any (fun x => decide (32 ≤ x.1)) then .fault .noSuchUnit
  else .next (
    let s := fec.foldl (fun s x => s.inc F.LINK_FEC_CW_COUNT (x.1 / 2) (x.1 % 2) x.2) s
    let s := mem.foldl (fun s x => s.inc F.MEMC_LINK_CE_COUNT x.1 0 x.2) s
    let m := s.mss
    let now : Nat × Nat × Nat := (m.ceSram, m.ceDram + (mem.map (·.2)).sum, (fec.map (·.2)).sum)
    let hist := (now :: m.ceHist).take 60
    let add := fun (a b : Nat × Nat × Nat) => (a.1 + b.1, a.2.1 + b.2.1, a.2.2 + b.2.2)
    let r1 := hist.foldl add (0, 0, 0)
    let day := m.store.history.foldl add (0, 0, 0)
    let hour := add m.ceHour now
    let full := decide (3600 ≤ m.ceSecs + 1)
    let cep := cePoints r1.1 (day.1 / 1440) + cePoints r1.2.1 (day.2.1 / 1440) + cePoints r1.2.2 (day.2.2 / 1440)
    let tp := tempPoints s.hottest
    let flaps := m.flaps.filter (fun t => decide (s.now < t + 600000000000))
    let ues := m.ues.filter (fun t => decide (s.now < t + 3600000000000))
    let fp := min 32 (8 * flaps.length)
    let e := s.g F.MB_HOLDUP_EMJ 0
    let hp := if s.g F.MB_HOLDUP_FAILED 0 = 1 then 48 else if s.g F.MB_HOLDUP_VALID 0 = 0 ∨ 37500 ≤ e then 0 else if 25000 ≤ e then 24 else 48
    let up := min 192 (48 * ues.length)
    let index := min 255 (cep + tp + fp + hp + up)
    let s := s.upMss (fun m => { m with ceSram := 0, ceDram := 0, ceHist := hist, ceHour := if full then (0, 0, 0) else hour, ceSecs := if full then 0 else m.ceSecs + 1, flaps := flaps, ues := ues })
    let s := if full then s.persist (fun q => { q with history := (hour :: q.history).take 24 }) else s
    let old := s.g F.SP_RISK_TIER 0
    let s := s.wreg R.SP_RISK 0 0 (setFields 0 [(F.SP_RISK_INDEX, index), (F.SP_RISK_TIER, old), (F.SP_RISK_CEPTS, cep), (F.SP_RISK_TEMPPTS, tp),
      (F.SP_RISK_FLAPPTS, fp), (F.SP_RISK_HOLDPTS, hp), (F.SP_RISK_UEPTS, up)])
    let t1 := s.g F.SP_TIERCFG_T1 0
    let t2 := s.g F.SP_TIERCFG_T2 0
    let t3 := s.g F.SP_TIERCFG_T3 0
    let want := if t3 ≤ index then 3 else if t2 ≤ index then 2 else if t1 ≤ index then 1 else 0
    let bar := match old with | 1 => t1 | 2 => t2 | _ => t3
    if old < want then s.riskTier index old want
    else if old ≠ 0 ∧ index < bar - 16 then
      (if 60 ≤ s.mss.below + 1 then s.riskTier index old (old - 1) else s.upMss (fun m => { m with below := m.below + 1 }))
    else s.upMss (fun m => { m with below := 0 }))

end Sys2Proof.Machine
end

