-- ==== Sys2Proof/Machine/Buddy.lean ====
section
/-! DEFINITION. State protection at the buddy (spec 11_state_protection.md, R295–R301): legs, records, shadow pages, replays and repair
answers; then the completion of a landing with all that happens before any tile resumes. -/

namespace Sys2Proof.Machine

def State.inLink? (s : State) (p k : Nat) : Option InLink := Sparse.find? (s.protOf p).links k
def State.upInLink (s : State) (p k : Nat) (f : InLink → InLink) : State := s.upProt p (fun x => { x with links := Sparse.modify x.links k f })
/-- The incoming link of partition p over a context. -/
def State.linkOf (s : State) (p ctx : Nat) : Option Nat :=
  (List.range 2).find? (fun k => s.g F.SP_IN_CFG_VALID p k == 1 && ((s.inLink? p k).map (·.bound)).getD false && s.g F.SP_IN_CFG_CTX p k == ctx)
/-- Protection traffic over a context that no incoming link names binds the lowest unbound link to it: LINK_IN names no context. (DESIGN CHOICE, unsafe: log 75) -/
def State.linkBind (s : State) (p ctx : Nat) : State :=
  if (s.linkOf p ctx).isSome then s
  else match (List.range 2).find? (fun k => s.g F.SP_IN_CFG_VALID p k == 1 && !((s.inLink? p k).map (·.bound)).getD true) with
    | some k => (s.w F.SP_IN_CFG_CTX p k ctx).upInLink p k (fun x => { x with bound := true })
    | none => s
/-- Slot q of a step: its byte base in the leg area (R296). RHALF and ROFF are those of the plan that this partition registers, which is the owner's. (DESIGN CHOICE, unsafe: log 190) -/
def State.legBase (s : State) (p k st : Nat) : Nat :=
  s.g F.SP_IN_CFG_LBASE p k + st % max 1 (s.g F.SP_IN_CFG_LSTEPS p k) * (s.g F.COLL_RHALF_RHALF p + 256)
/-- Whether a step's slot still holds a step that has not been replayed (R296, R300). -/
def State.legBlocked (s : State) (p k st : Nat) : Bool :=
  match s.inLink? p k with
  | none => true
  | some x =>
    let before := add32 st (2 ^ 32 - s.g F.SP_IN_CFG_LSTEPS p k)
    if s.g F.SP_IN_STATE_CATCHUP p k = 1 then decide (0 < diff32 before (add32 x.step (2 ^ 32 - 1)))
    else x.built && !x.broken && decide (0 < diff32 before (s.g F.SP_IN_STATE_STEP p k))
/-- Whether a leg or record of a step comes too late: its step has been replayed or caught up with, or its slot has gone to a later step. -/
def State.legLate (s : State) (p k st : Nat) : Bool :=
  match s.inLink? p k with
  | none => true
  | some x =>
    let n := max 1 (s.g F.SP_IN_CFG_LSTEPS p k)
    let later := fun (t : Nat) => t % n == st % n && decide (0 < diff32 t st)
    (if s.g F.SP_IN_STATE_CATCHUP p k = 1 then decide (diff32 st x.step ≤ 0) else x.built && !x.broken && decide (diff32 st (s.g F.SP_IN_STATE_STEP p k) ≤ 0)) ||
      x.legs.any (fun l => later l.1) || x.recs.any (fun r => later r.1)
/-- The slot of a step goes to it: what another step left there is gone. -/
def State.slotTake (s : State) (p k st : Nat) : State :=
  let n := max 1 (s.g F.SP_IN_CFG_LSTEPS p k)
  s.upInLink p k (fun y => { y with legs := y.legs.filter (fun l => l.1 == st || l.1 % n != st % n), recs := y.recs.filter (fun r => r.1 == st || r.1 % n != st % n) })
/-- A leg or record is discarded: the owner is asked for a catch-up from its next commit landing (R296). -/
def State.linkBreak (s : State) (p k : Nat) : State :=
  match s.inLink? p k with
  | some x => if x.broken then s else (s.upInLink p k (fun x => { x with broken := true })).sendCtrl (s.g F.SP_IN_CFG_CTX p k) 2 0 1 (s.g F.SP_IN_STATE_STEP p k) 0 0 0
  | none => s

/-- A chunk of a leg arrives (R296): false while its write must wait. Without a plan at this partition no place is known for it, and it is discarded. -/
def State.legArrive (s : State) (p k : Nat) (x : CollIn) : State × Bool :=
  if s.legLate p k x.step then (s, true)
  else if s.g F.COLL_PLAN_VALID p = 0 ∨ s.legBlocked p k x.step ∨ x.bytes.any (·.2) then (s.linkBreak p k, true)
  else
    let off := (x.got.head?.map (·.1)).getD 0
    let q := s.collWrite p (s.legBase p k x.step + Bk.roff (s.bucket p x.bucket) + off) (toLines x.bytes)
    if q.2 = 1 then (q.1, false)
    else
      let more := fun (l : Nat × Nat × Nat) => if l.1 = x.step ∧ l.2.1 = x.bucket then (l.1, l.2.1, l.2.2 + x.size) else l
      ((q.1.slotTake p k x.step).upInLink p k (fun y => { y with
        legs := if y.legs.any (fun l => l.1 == x.step && l.2.1 == x.bucket) then y.legs.map more else y.legs ++ [(x.step, x.bucket, x.size)] }), true)
/-- A commit record arrives (R297). -/
def State.recordArrive (s : State) (p k : Nat) (b : List Nat) : State × Bool :=
  let st := leVal (b.take 4)
  let met := fun (s : State) => s.upInLink p k (fun y => { y with seen := (st :: y.seen).take 16 })
  if s.legLate p k st then (met s, true)
  else if s.g F.COLL_PLAN_VALID p = 0 ∨ s.legBlocked p k st then (met (s.linkBreak p k), true)
  else
    let q := s.collWrite p (s.legBase p k st + s.g F.COLL_RHALF_RHALF p) (toLines (b.map (fun x => (x, false))))
    if q.2 = 1 then (q.1, false)
    else (met ((q.1.slotTake p k st).upInLink p k (fun y => { y with recs := (y.recs.filter (fun r => r.1 != st)) ++ [(st, leVal ((b.drop 8).take 2))] })), true)

/-- Whether the legs of a step are all here (R298, step 4). -/
def State.legsReady (s : State) (p : Nat) (x : InLink) (st n : Nat) : Bool :=
  (s.g F.COLL_PLAN_VALID p == 1 || n == 0) &&
  decide (n ≤ (x.legs.filter (fun l => l.1 == st && decide (4 * (Bk.e (s.bucket p l.2.1) / max 1 (s.cG p)) ≤ l.2.2))).length)

/-- The digests of the shadows at the step just replayed go to the owner (R301); one with a line under repair waits. -/
def State.sendDigests (s : State) (p k : Nat) : State :=
  match s.inLink? p k with
  | none => s
  | some x =>
    x.digTodo.foldl (fun s i =>
      let r := s.tensorDigest ((x.map.filter (fun m => m.2.1 == i)).map (fun m => x.shpage + m.1))
      match r.2 with
      | some d => (r.1.sendCtrl (s.g F.SP_IN_CFG_CTX p k) 5 0 i d 0 8 (s.g F.SP_IN_STATE_STEP p k)).upInLink p k (fun y => { y with digTodo := y.digTodo.filter (· != i) })
      | none => r.1) s

/-- REPLAY_NOTICE (R298, step 4): digests of the step before go out first (R301); the record and legs of the next step are present and no replay or catch-up runs: REPLAYING is set and the
notice of Table 11.4 goes to NTILE. -/
def execReplayNotice (p k : Nat) (s : State) : Res :=
  if 8 ≤ p ∨ 2 ≤ k then .fault .noSuchUnit
  else .next (
    let s := s.sendDigests p k
    match s.inLink? p k with
    | none => s
    | some x =>
      let st := add32 (s.g F.SP_IN_STATE_STEP p k) 1
      if !x.digTodo.isEmpty ∨ s.g F.SP_IN_CFG_VALID p k = 0 ∨ s.g F.SP_IN_STATE_REPLAYING p k = 1 ∨ s.g F.SP_IN_STATE_CATCHUP p k = 1 ∨ x.broken ∨ !x.built then s
      else match x.recs.find? (fun r => r.1 == st) with
        | none => s
        | some r =>
          if !s.legsReady p x st r.2 then s
          else
            let n := s.devTile p (s.g F.SP_IN_NOTICE_NTILE p k)
            let w := st + st % max 1 (s.g F.SP_IN_CFG_LSTEPS p k) * 2 ^ 32 + (if x.first then 2 ^ 36 else 0) + k * 2 ^ 37
            let s := (s.w F.SP_IN_STATE_REPLAYING p k 1).upInLink p k (fun x => { x with step := st, first := false })
            s.handPkt p (n / 64) (n / 64) 3 (.coll n p 0 (s.g F.SP_IN_NOTICE_NADDR p k) false [(w, false)]))

/-- DONE_WRITE (R298, steps 6 and 7): tile n's oldest line write, to the DONE address of a link, is made; with the step being replayed the replay ends and is
acknowledged, with another a fault is recorded. -/
def execDoneWrite (n : Nat) (s : State) : Res :=
  onTile n 0 (
    match (s.tile n).nextOut, s.partOf n with
    | some l, some p =>
      match (s.tile n).instr? l.id, s.doneLink p l.addr with
      | some i, some k =>
        if St.tgt i.desc = 1 ∨ s.inCarea p l.addr ∨ !s.stMayWrite n then s
        else
          let r := s.ownWrite n p l i.flight
          if !r.2 then r.1
          else
            let s := r.1
            let st := ((s.inLink? p k).map (·.step)).getD 0
            if s.g F.SP_IN_STATE_REPLAYING p k = 1 ∧ !l.poison ∧ l.data.toNat % 2 ^ 32 = st then
              let s := (s.w F.SP_IN_STATE_STEP p k st).w F.SP_IN_STATE_REPLAYING p k 0
              let s := s.sendCtrl (s.g F.SP_IN_CFG_CTX p k) 2 0 0 st 0 0 0
              let dg := s.g F.SP_CFG2_DIGEST p
              let s := s.upInLink p k (fun x => { x with
                legs := x.legs.filter (fun y => y.1 != st), recs := x.recs.filter (fun y => y.1 != st)
                digTodo := if dg ≠ 0 ∧ (st + 2 ^ 32 - x.base) % 2 ^ 32 % dg = 0 then (x.map.map (·.2.1)).eraseDups else [] })
              s.sendDigests p k
            else s.partFault p
      | _, _ => s
    | _, _ => s)

/-- A catch-up packet (R300, steps 3 and 4): false while its write, or the record of its step, must be waited for. The first of a catch-up begins it anew; with the
last page's last packet it ends, unless a leg was discarded meanwhile. A catch-up does not begin while a replay runs. (DESIGN CHOICE, unsafe: log 80) -/
def State.pageArrive (s : State) (p k aux addr : Nat) (lines : List LineVal) : State × Bool :=
  match s.inLink? p k with
  | none => (s, true)
  | some x =>
    let off := addr % 2 ^ 42
    let sp := off / 2 ^ 23
    let low := aux / 2 ^ 19 % 2 ^ 13
    let begins := s.g F.SP_IN_STATE_CATCHUP p k = 0 ∨ x.step % 2 ^ 13 ≠ low
    match (if begins then x.seen.find? (fun r => r % 2 ^ 13 == low) else some x.step) with
    | none => (s, false)
    | some step =>
      if decide begins && s.g F.SP_IN_STATE_REPLAYING p k == 1 then (s, false)
      else if x.shn ≤ sp then (s, true)
      else
        let q := s.collWrite p (x.shpage * 2 ^ 23 + off) lines
        if q.2 = 1 then (q.1, false)
        else
          let m := (sp, aux / 2 ^ 8 % 2 ^ 10, addr / 2 ^ 42 % 2 ^ 19)
          let got := (if begins then 0 else x.tail) + (if aux / 2 ^ 18 % 2 = 1 then 64 * lines.length else 0)
          let s := (q.1.w F.SP_IN_STATE_CATCHUP p k 1).upInLink p k (fun x => { x with
            step := step, tail := got, broken := x.broken && !decide begins, map := if x.map.contains m then x.map else x.map.filter (fun y => y.1 != sp) ++ [m] })
          if got < 2 ^ 23 ∨ ((s.inLink? p k).map (·.broken)).getD true then (s, true)
          else
            let s := (s.w F.SP_IN_STATE_STEP p k step).w F.SP_IN_STATE_CATCHUP p k 0
            let s := s.upInLink p k (fun x => { x with
              built := true, first := true, tail := 0, base := step, digTodo := [], legs := x.legs.filter (fun l => decide (0 < diff32 l.1 step)), recs := x.recs.filter (fun l => decide (0 < diff32 l.1 step)) })
            (s.sendCtrl (s.g F.SP_IN_CFG_CTX p k) 2 0 0 step 0 0 0, true)

/-- The shadow's line for a repair read of the owner's line at `addr`, committed step `st` (R299); none where it is refused. -/
def State.shadowLine (s : State) (p k st addr : Nat) : State × Option LineVal :=
  match s.inLink? p k with
  | none => (s, none)
  | some x =>
    if s.g F.SP_IN_STATE_STEP p k ≠ st ∨ s.g F.SP_IN_STATE_REPLAYING p k = 1 ∨ s.g F.SP_IN_STATE_CATCHUP p k = 1 ∨ !x.built then (s, none)
    else match x.map.find? (fun m => m.2.2 == pageOf addr) with
      | none => (s, none)
      | some m =>
        let r := s.readLine ((x.shpage + m.1) * 2 ^ 23 + addr % 2 ^ 23)
        match r.2 with
        | some v => if v.poison then (r.1, none) else r
        | none => r

/-! The completion of a landing. -/

/-- LANDING_COMPLETE (R168, R172–R174, R187, R188, R192): the hub sends what its group expects of it; the next landing of partition p completes
once everything it waits for is here. Before any tile resumes, posted COMMITs take effect (R269), the chooser, commit record and due jobs of state
protection run (R294, R297, R304, R305) and prefetch entries activate (R237). A commit landing of a partition with a link waits while the slice that its commit
record carries is under repair. -/
def execLandingComplete (p : Nat) (s : State) : Res :=
  if 8 ≤ p then .fault .noSuchUnit
  else .next (
    let s := s.landGroup p
    let l := add32 (s.g F.LAND_NUM_DONE p) 1
    match s.landBits p l with
    | some bits =>
      let r := if s.linkIsUp p && (s.collCommit p).2 then s.commitSlice p else (s, some [])
      if r.2.isNone then r.1 else r.1.landDone p l bits (fun s => (s.protLanding p bits).pfActivate p l)
    | none => s)

end Sys2Proof.Machine
end

