-- ==== Sys2Proof/Machine/Firmware.lean ====
section
/-! DEFINITION. Images and slots (spec 14, R357, Table 14.7), the log record as bytes (Table 14.5), and the sequences that the MSS wants to start (R349, R350,
R352, R356, R360). -/

namespace Sys2Proof.Machine

/-! Images (R357). -/

def imgMagic : Nat := 0x57464C53
/-- Component i of an image header: type, offset, length, digest. -/
def imgComp (b : List Nat) (i : Nat) : Nat × Nat × Nat × Nat := (parAt b (16 + 80 * i) 2, parAt b (16 + 80 * i + 4) 4, parAt b (16 + 80 * i + 8) 4, parAt b (16 + 80 * i + 16) 64)
def imgVersion (b : List Nat) : Nat := parAt b 4 4
def imgSvn (b : List Nat) : Nat := parAt b 8 2
def imgComps (b : List Nat) : List (Nat × Nat × Nat × Nat) := (List.range (parAt b 10 2)).map (imgComp b)
def imgPart (b : List Nat) (o k : Nat) : List Nat := (b.drop o).take k
/-- Whether an image is valid under R357, its security version apart. -/
def imageSound (b : List Nat) : Bool :=
  let len := parAt b 12 4
  let cs := imgComps b
  let root := imgPart b 656 516
  parAt b 0 4 == imgMagic && decide (imgSvn b ≤ 64) && decide (5 ≤ parAt b 10 2) && decide (parAt b 10 2 ≤ 8) && decide (len ≤ 2 ^ 26) && decide (len ≤ b.length) &&
  Config.sha512 root == Config.rootHash && decide (parAt b 1172 4 ≤ 2408) &&
  (match Config.certKey root (imgPart b 1176 (parAt b 1172 4)) with
   | some k => Config.rsaVerify k (b.take 3584) (imgPart b 3584 512)
   | none => false) &&
  (List.range 5).all (fun t => (cs.filter (fun c => c.1 == t + 1)).length == 1) &&
  cs.all (fun c => c.2.1 % 4096 == 0 && decide (4096 ≤ c.2.1) && decide (c.2.1 + c.2.2.1 ≤ len) && Config.sha512 (imgPart b c.2.1 c.2.2.1) == c.2.2.2)

def Mss.slot (m : Mss) (k : Nat) : FwSlot := if k = 0 then m.slotA else m.slotB
def Mss.setSlot (m : Mss) (k : Nat) (v : FwSlot) : Mss := if k = 0 then { m with slotA := v } else { m with slotB := v }
/-- Whether slot k is valid (R357): not marked invalid, sound, and of a security version at least the fused counter. -/
def Mss.slotOk (m : Mss) (k : Nat) : Bool := m.rec_.marked / 2 ^ k % 2 == 0 && (m.slot k).sound && decide (m.svn ≤ imgSvn (m.slot k).bytes)

/-! The log (R356). -/

/-- A log record's 64 bytes (Table 14.5). DATA is packed by R338. -/
def LogRec.bytes (r : LogRec) : List Nat :=
  let data := r.data.foldl (fun (b : List Nat) (x : Nat × Nat) => b ++ List.replicate ((b.length + x.2 - 1) / max 1 x.2 * x.2 - b.length) 0 ++ leBytes x.2 x.1) []
  let body := leBytes 4 r.seq ++ leBytes 4 r.boot ++ leBytes 8 r.time ++ leBytes 2 r.code ++ [r.part, if r.late then 1 else 0] ++ (data ++ List.replicate 16 0).take 16 ++ List.replicate 24 0
  body ++ leBytes 4 (crc32c body)
/-- Records of the log in flash, and of one sector. -/
def logRoom : Nat := 524288
def logSector : Nat := 1024
/-- Whether a record is a HALL_MARK that still describes a standing mark: its hall is faulty, and no later record is of that hall. -/
def standing (faults : Nat) (later : List LogRec) (r : LogRec) : Bool :=
  match r.data with
  | (h, _) :: _ :: (m, _) :: _ => r.code == 4 && m == 1 && faults / 2 ^ h % 2 == 1 && !later.any (fun x => x.code == 4 && (x.data.head?.map (·.1)) == some h)
  | _ => false
/-- The halls whose latest HALL_MARK stands (R356, Table 1.8), as a mask. -/
def marksOf (l : List LogRec) : Nat :=
  l.foldl (fun a r => match r.data with
    | (h, _) :: _ :: (m, _) :: _ => if r.code = 4 then (let b := a / 2 ^ h % 2; if m = 1 then a + (1 - b) * 2 ^ h else a - b * 2 ^ h) else a
    | _ => a) 0

/-! Sequences (R350, Table 14.2). -/

/-- The kind of a sequence, as the HOLDUP record names it: 1 erase, 2 program, 3 fuse. (DESIGN CHOICE, unsafe: log 134) -/
def FlashOp.kind : FlashOp → Nat
  | .logErase | .slotErase _ => 1
  | .fuse => 3
  | _ => 2
/-- The energy a kind requires, in mJ. -/
def needMj (kind : Nat) : Nat := match kind with | 1 => 15000 | 2 => 6000 | 3 => 1500 | _ => 0
/-- Whether a sequence writes a mirrored region (R349). -/
def FlashOp.mirrored : FlashOp → Bool
  | .logProgram _ | .logErase | .persist _ | .record _ => true
  | _ => false
/-- Sectors of an update. -/
def Update.sectors (u : Update) : Nat := (u.total + 65535) / 65536
/-- The next sequence of an update (Table 14.10): mark the slot, then erase and program each sector, then record the pending slot. -/
def Mss.updateOp (m : Mss) : Option FlashOp :=
  match m.update with
  | none => none
  | some u =>
    let b := m.rec_.marked / 2 ^ u.slot % 2
    match u.phase with
    | 1 => some (.record { m.rec_ with pending := none, tries := 0, marked := m.rec_.marked + (1 - b) * 2 ^ u.slot })
    | 2 => some (if u.erased then .slotProgram u.sector else .slotErase u.sector)
    | 3 => some (.record { m.rec_ with pending := some u.slot, tries := 3, marked := m.rec_.marked - b * 2 ^ u.slot })
    | _ => none
/-- The log's next sequence: the erase of its oldest sector when the buffered records have no room, else their program. -/
def Mss.logOp (m : Mss) : Option FlashOp :=
  if m.logBuf.isEmpty ∨ m.logWait then none
  else if logRoom < m.log.length + min logSector m.logBuf.length then some .logErase
  else some (.logProgram (m.logBuf.take logSector))
/-- What the MSS wants to write, in its order: the second copy of what was begun, the update, the update record, the fuse, the log, the persistent store. -/
def Mss.wanted (m : Mss) : List FlashOp :=
  m.second.toList ++ m.updateOp.toList ++ (m.wantRec.map FlashOp.record).toList ++ (if m.fuseDue then [.fuse] else []) ++ m.logOp.toList ++
  (if m.wantWait then [] else (m.want.map FlashOp.persist).toList)

end Sys2Proof.Machine
end

