-- ==== Sys2Proof/Machine/SwtIn.lean ====
section
/-! DEFINITION. The receiving half of the Stairway Transport (spec 12_ethernet_ports.md, R327–R334): the receive checks, sequence windows,
acknowledgement, retransmission and the end of a context. -/

namespace Sys2Proof.Machine

/-- The router that carries fabric port p's stop (Table 1.3). -/
def perimeterHall (k : Nat) : Nat :=
  if k < 12 then k else if k < 17 then 23 + 12 * (k - 12) else if k < 28 then 70 - (k - 17) else 48 - 12 * (k - 28)

/-- A frame dropped at a sub-port, with the latest cause (Table 12.9). -/
def State.rxDrop (s : State) (port sub why : Nat) : State := (s.inc F.LINK_RX_DROP_COUNT port sub 1).w F.LINK_RX_DROP_LAST port sub why

/-- The routers of the other units of the base die (Table 1.3): host ports H0–H3, the foyer and the management subsystem. -/
def hostHall (q : Nat) : Nat := match q with | 0 => 0 | 1 => 11 | 2 => 71 | _ => 60
def foyerHall : Nat := 29
def mssHall : Nat := 42

/-! The MAC (R313, R315). -/

/-- The service class a received frame is queued as: by its PCP where VLAN is set, else by its DSCP; a value that PORT.QOS does not name is class 2. -/
def State.rxClass (s : State) (port : Nat) (e : EthHead) : Nat :=
  let q := s.regs.rd R.PORT_QOS port 0
  let k := if s.g F.PORT_CFG_VLAN port = 1 then (List.range 4).find? (fun c => (e.tags.head?.map (·.2)) == some (bitsAt q (32 + 4 * c) 3))
    else (List.range 4).find? (fun c => e.dscp == bitsAt q (8 * c) 6)
  k.getD 2
/-- Why the MAC drops a frame (Table 12.9's causes), 0 where it passes: FCS, size, VLAN tag, a full receive buffer. (DESIGN CHOICE, unsafe: log 195) -/
def State.macCause (s : State) (x : Nat) (e : EthHead) : Nat :=
  let p := x / 2
  if !e.fcs then 1
  else if e.size < 64 ∨ s.g F.PORT_CFG_MAXFRAME p < e.size then 5
  else if e.tags.map (·.1) ≠ (if s.g F.PORT_CFG_VLAN p = 1 then [s.g F.PORT_CFG_VID p] else []) then 3
  else if e.full.contains (s.rxClass p e) then 2 else 0
/-- A frame reaches the MAC of sub-port index x: frames with good FCS are counted, and a dropped one with its cause; whether it passes. -/
def State.macIn (s : State) (x : Nat) (e : EthHead) : State × Bool :=
  let why := s.macCause x e
  let s := if e.fcs then s.inc F.LINK_RX_FRAMES_COUNT (x / 2) (x % 2) 1 else s
  if why = 0 then (s, true) else (s.rxDrop (x / 2) (x % 2) why, false)

/-! Sequence windows (R328). -/

/-- SEQ extended by the window position (R328). -/
def extendSeq (next seq : Nat) : Nat := ((next : Int) + diff32 seq next).toNat
inductive SeqCheck where
  | fresh | duplicate | drop
deriving DecidableEq, Repr
/-- What a space's window makes of an extended SEQ. -/
def PeerCtx.window? (c : PeerCtx) (cls q : Nat) : SeqCheck :=
  let n := Sparse.get 0 c.rxNext cls
  if q < n then .duplicate
  else if cls < 2 then (if q = n then .fresh else .drop)
  else if n + 4095 < q then .drop
  else if c.rxGot.contains (cls, q) then .duplicate else .fresh
/-- The lowest number from n on that a space has not received; `fuel` bounds the search. -/
def firstGap (l : List (Nat × Nat)) (cls : Nat) : Nat → Nat → Nat
  | 0, n => n
  | k + 1, n => if l.contains (cls, n) then firstGap l cls k (n + 1) else n
/-- A packet is delivered: the window moves on or its bitmap records it. -/
def PeerCtx.took (c : PeerCtx) (cls q : Nat) : PeerCtx :=
  let got := c.rxGot ++ [(cls, q)]
  let n := firstGap got cls got.length (Sparse.get 0 c.rxNext cls)
  { c with rxNext := Sparse.put 0 c.rxNext cls n, rxGot := got.filter (fun g => !(g.1 == cls && decide (g.2 < n))) }
/-- A space has a gap: packets beyond the next expected. -/
def PeerCtx.gap (c : PeerCtx) (cls : Nat) : Bool := c.rxGot.any (fun g => g.1 == cls)

/-! Acknowledgement (R329). -/

/-- Insert into a rising list. -/
def insertUp (x : Nat) : List Nat → List Nat
  | [] => [x]
  | y :: l => if x < y then x :: y :: l else if x = y then y :: l else y :: insertUp x l
/-- Runs of consecutive numbers of a rising list: first and last. -/
def runsOf : List Nat → List (Nat × Nat)
  | [] => []
  | x :: l => match runsOf l with
    | (a, b) :: r => if x + 1 = a then (x, b) :: r else (x, x) :: (a, b) :: r
    | [] => [(x, x)]
/-- The SACK ranges of a space: at most the four lowest. -/
def PeerCtx.sackRanges (c : PeerCtx) (cls : Nat) : List (Nat × Nat) :=
  (runsOf (((c.rxGot.filter (fun g => g.1 == cls)).map (·.2)).foldl (fun l x => insertUp x l) [])).take 4

/-- Send an ACK for a space, where a link is up (Table 12.6, R329). -/
def State.sendAck (s : State) (ctx cls : Nat) : State :=
  match s.peer? ctx with
  | some c =>
    match (if c.canSend c.keyid then (s.pickLink ctx cls c).filter (fun l => !s.pausedAt l 0) else none) with
    | some l =>
      let r := if cls < 2 then [] else c.sackRanges cls
      let pay := leVal (r.flatMap (fun x => leBytes 4 (x.1 % 2 ^ 32) ++ leBytes 4 (x.2 % 2 ^ 32)))
      let p : SwtPkt := ⟨cls, c.ackCtr, 11, Sparse.get 0 c.ce cls % 2 ^ 16, Sparse.get 0 c.rxNext cls % 2 ^ 32, 0, 8 * r.length, pay, c.keyid, s.now, true, s.now, l, false, 0⟩
      (s.swtEmit ctx l false c p).upPeer ctx (fun c => { c with
        ackCtr := c.ackCtr + 1, ackDue := c.ackDue.filter (fun a => a.1 != cls), ce := Sparse.put 0 c.ce cls 0 })
    | none => s
  | none => s
/-- An arrival is to be acknowledged: at once for class 0 and where a gap appears, otherwise within 2 µs. -/
def State.ackArrival (s : State) (ctx cls : Nat) (atOnce : Bool) : State :=
  let s := s.upPeer ctx (fun c => { c with ackDue := if c.ackDue.any (fun a => a.1 == cls) then c.ackDue else c.ackDue ++ [(cls, s.now)] })
  if cls = 0 ∨ atOnce then s.sendAck ctx cls else s

/-! Receive checks (R333). -/

/-- What the checks leave: the packet is dropped or a duplicate (`done`), or accepted with its context, extended SEQ and payload. -/
inductive RxOut where
  | gone (s : State)
  | good (s : State) (c : PeerCtx) (q payload : Nat)

/-- A packet dropped at a step of R333 is counted against its context too (R344). -/
def State.ctxDrop (s : State) (ctx step : Nat) : State := s.upPeer ctx (fun c => { c with drops := Sparse.put 0 c.drops step (Sparse.get 0 c.drops step + 1) })
/-- Steps 1 to 5 and the window (R333), in order. (DEDUCED, unsafe: log 86) -/
def State.swtCheck (s : State) (f : SwtFrame) : RxOut :=
  let port := f.sub / 2
  let m := s.macIn f.sub f.eth
  if !m.2 then .gone m.1
  else
    let s := m.1
    let h := (swtHeader f.typ f.cls f.enc f.keyid f.retx f.plen f.dctx f.sctx f.seq f.aux f.addr f.pmask).set 0 (16 * f.ver + f.typ)
    if !f.own ∨ f.udp ≠ s.g F.SWT_PORT_UDP 0 ∨ f.ver ≠ 1 ∨ 11 < f.typ then .gone (s.inc F.SWT_DROP2_HDR port 0 1)
    else if crc32c (h ++ leBytes f.plen f.payload ++ (if f.enc then beBytes 16 f.tag else [])) ≠ f.crc then .gone (s.inc F.SWT_DROP_CRC port 0 1)
    else match s.peer? f.dctx with
      | none => .gone (s.inc F.SWT_DROP_CTX port 0 1)
      | some c =>
        if !c.up ∨ c.raddr ≠ f.srcIp ∨ c.rctx ≠ f.sctx ∨ c.enc ≠ f.enc then .gone ((s.inc F.SWT_DROP_CTX port 0 1).ctxDrop f.dctx 4)
        else
          let space := if f.typ = 11 then 4 else f.cls
          let q := extendSeq (Sparse.get 0 c.rxNext space) f.seq
          let pay := if f.enc then (match c.rxKey f.keyid with
              | some k => Config.gcmOpen k.1 (gcmIv k.2 space q) h f.plen f.payload f.tag
              | none => none)
            else some f.payload
          match pay with
          | none => .gone ((s.inc F.SWT_DROP_AUTH port 0 1).ctxDrop f.dctx 5)
          | some pay =>
            let seen := fun (s : State) => if f.eth.ce then (s.inc F.PT_ECN_CE port 0 1).upPeer f.dctx (fun c => { c with ce := Sparse.put 0 c.ce f.cls (Sparse.get 0 c.ce f.cls + 1) }) else s
            if f.typ = 11 then
              (if f.room then .good ((if f.eth.ce then s.inc F.PT_ECN_CE port 0 1 else s).upPeer f.dctx (fun c => { c with rxNext := Sparse.put 0 c.rxNext 4 (max (Sparse.get 0 c.rxNext 4) (q + 1)) })) c q pay
               else .gone ((s.inc F.SWT_DROP_NOBUF port 0 1).ctxDrop f.dctx 7))
            else match c.window? f.cls q with
              | .drop => .gone ((s.inc F.SWT_DROP2_SEQ port 0 1).ctxDrop f.dctx 6)
              | .duplicate => .gone ((seen s).ackArrival f.dctx f.cls false)
              | .fresh => if f.room then .good (seen s) c q pay else .gone ((s.inc F.SWT_DROP_NOBUF port 0 1).ctxDrop f.dctx 7)

/-- The sub-types a row of type CTRL is for; other types have none. -/
def isRow (f : SwtFrame) (typ : Nat) (sub : Option Nat) : Bool :=
  !f.eth.fcs || decide (11 < f.typ) || (f.typ == typ && (match sub with | some k => f.aux % 256 == k | none => true))

/-- A frame of a row arrives at an up fabric sub-port: it is checked, given to its user, and acknowledged. A user that must wait answers false:
the packet is then not yet received. Its payload is given decrypted. -/
def State.swtRow (s : State) (f : SwtFrame) (typ : Nat) (sub : Option Nat) (user : State → PeerCtx → Nat → Nat → State × Bool) : Res :=
  if 64 ≤ f.sub then .fault .noSuchUnit
  else if !s.linkUp f.sub ∨ !isRow f typ sub then .next s
  else match s.swtCheck f with
    | .gone s => .next s
    | .good s1 c q pay =>
      let r := user s1 c q pay
      if !r.2 then .next { s with copies := r.1.copies }
      else
        let s := r.1.inc F.PT_RX_PKTS (f.sub / 2) 0 1
        let s := s.upPeer f.dctx (fun c => c.took f.cls q)
        .next (if s.peerUp f.dctx then s.ackArrival f.dctx f.cls (((s.peer? f.dctx).map (fun c => c.gap f.cls)).getD false) else s)

/-! The sender's side (R329, R331, R333). -/

/-- RTO of a context in ns: max(RTOMIN, 2 × srtt), with RTOMIN of the port last sent on. (DESIGN CHOICE, unsafe: log 88) -/
def State.rto (s : State) (c : PeerCtx) (link : Nat) : Nat := max (1000 * s.g F.SWT_CFG_RTOMIN (link / 2)) (2 * c.srtt)
/-- Retransmit one kept packet, with its original bytes and RETX set. -/
def State.retransmit (s : State) (ctx cls seq : Nat) : State :=
  match s.peer? ctx with
  | some c =>
    match c.unacked.find? (fun p => p.cls == cls && p.seq == seq), s.pickLink ctx cls c with
    | some p, some l =>
      if !c.canSend p.keyid || s.pausedAt l p.cls then s else
      (s.swtEmit ctx l true c p).upPeer ctx (fun c => { c with retx := c.retx + 1, unacked := c.unacked.map (fun q =>
        if q.cls = cls ∧ q.seq = seq then { q with sentAt := s.now, link := l, sacks := 0 } else q) })
    | _, _ => s
  | none => s
/-- The packets whose timer has passed RTO. -/
def State.overdue (s : State) (c : PeerCtx) : List SwtPkt := c.unacked.filter (fun p => p.sent && decide (p.sentAt + s.rto c p.link ≤ s.now))

/-- Note a change of the links: contexts whose link list is empty count the time; others may send again (R331, R334). -/
def State.refreshLinks (s : State) : State :=
  (s.peers.map (·.1)).foldl (fun (s : State) (k : Nat) =>
    match s.peer? k with
    | some c =>
      if !c.up then s
      else if (s.peerLinks c).isEmpty then s.upPeer k (fun c => { c with emptyAt := some (c.emptyAt.getD s.now) })
      else (s.upPeer k (fun c => { c with emptyAt := none })).peerPump k (c.unacked.length + 1)
    | none => s) s
/-- Sending at a paused priority has resumed, or a link has changed, on sub-port index x. -/
def State.resumeTx (s : State) (x : Nat) : State :=
  if x < 64 then s.refreshLinks else ((s.foyer.qps.filter (fun q => q.2.port == (x - 64) / 2)).map (·.1)).foldl (fun (s : State) (n : Nat) => s.qpPump n) s

/-- A context goes down (R334), cause 1 to 4: its packets are discarded, PEER_DOWN is reported, and a shadow link over it is lost (R302). (DEDUCED, unsafe: log 89) -/
def State.peerDown (s : State) (ctx cause : Nat) : State :=
  match s.peer? ctx with
  | some c =>
    if !c.up then s
    else
      let s := s.upPeer ctx (fun c => { c with up := false, unacked := [], pend := [], ackDue := [], credits := [], emptyAt := none })
      let s : State := { s with peerReads := s.peerReads.filter (fun x => x.ctx != ctx) }
      let s := s.event (some c.lpart) 0x8401 [(ctx, 2), (cause, 1)]
      if s.linkIsUp c.lpart && s.g F.SP_LINK_CTX c.lpart == ctx then s.linkLose c.lpart else s
  | none => s

/-- An acknowledgement of a space: cumulative `cum`, ranges, and the CE count it reports. (DEDUCED, unsafe: log 87) -/
def State.ackIn (s : State) (port ctx cls cum : Nat) (ranges : List (Nat × Nat)) (ce : Nat) : State :=
  match s.peer? ctx with
  | none => s
  | some c =>
    let base := (c.unacked.find? (fun p => p.cls == cls)).map (·.seq) |>.getD (Sparse.get 0 c.txSeq cls)
    let cum := extendSeq base cum
    let rs := ranges.map (fun r => (extendSeq base r.1, extendSeq base r.2))
    let inSack := fun (p : SwtPkt) => rs.any (fun r => decide (r.1 ≤ p.seq) && decide (p.seq ≤ r.2))
    let acked := fun (p : SwtPkt) => p.cls == cls && p.sent && (decide (p.seq < cum) || inSack p)
    let gone := c.unacked.filter acked
    let sacked := (gone.filter inSack).map (·.seq)
    let rest := (c.unacked.filter (fun p => !acked p)).map (fun p =>
      if p.cls = cls ∧ p.sent then { p with sacks := p.sacks + (sacked.filter (fun q => decide (p.seq < q))).length } else p)
    let srtt := match gone.getLast? with | some p => ((c.srtt : Int) + (((s.now - p.sentAt : Nat) : Int) - c.srtt) / 8).toNat | none => c.srtt
    let win := Sparse.get 256 c.cwnd cls
    let cutAt := Sparse.get 0 c.cwndAt cls
    let calm := Sparse.get 0 c.cwndAt (cls + 4)
    let cut := decide (2 ≤ cls) && ce != 0 && (cutAt == 0 || decide (cutAt - 1 + c.srtt ≤ s.now))
    let rise := decide (2 ≤ cls) && ce == 0 && (calm == 0 || decide (calm - 1 + c.srtt ≤ s.now))
    let win' := if cut then max (win * 7 / 8) 16 else if rise then min 4096 (win + 8) else win
    let at' := if cut then Sparse.put 0 c.cwndAt cls (s.now + 1) else c.cwndAt
    let at' := if (2 ≤ cls ∧ ce ≠ 0) ∨ rise then Sparse.put 0 at' (cls + 4) (s.now + 1) else at'
    let s := s.upPeer ctx (fun c => { c with unacked := rest, srtt := srtt, cwnd := Sparse.put 256 c.cwnd cls win', cwndAt := at' })
    let s := if cut then s.inc F.PT_ECN_CNP port 0 1 else s
    let s := (rest.filter (fun p => p.cls == cls && decide (3 ≤ p.sacks))).foldl (fun (s : State) (p : SwtPkt) => s.retransmit ctx p.cls p.seq) s
    let s := s.peerPump ctx (rest.length + 1)
    if cls = 3 ∧ s.g F.SP_LINK_VALID c.lpart = 1 ∧ s.g F.SP_LINK_CTX c.lpart = ctx then s.catchStep c.lpart else s

end Sys2Proof.Machine
end

