-- ==== Sys2Proof/Machine/SwtRows.lean ====
section
/-! DEFINITION. The rows of received Stairway Transport packets and of a context's timers (spec 12_ethernet_ports.md, R327–R334; R186, R187,
R192, R202, R220, R242, R249, R257, R296–R301). -/

namespace Sys2Proof.Machine

/-- Lines of a payload: PLEN / 64 of them, with PMASK's poison. -/
def payloadLines (plen payload pmask : Nat) : List LineVal :=
  (List.range (plen / 64)).map (fun i => if pmask / 2 ^ i % 2 = 1 then ⟨0, true⟩ else ⟨BitVec.ofNat 512 (payload / 2 ^ (512 * i)), false⟩)
/-- Refuse a peer's write for partition p (R220): nothing is written, and it is recorded and reported. (DEDUCED, unsafe: log 84) (DESIGN CHOICE, unsafe: log 95) -/
def State.peerRefuse (s : State) (p a : Nat) (why : Nat) (write : Bool) : State :=
  (s.partFault p).event (some p) 0x8304 [(pageOf a, 4), (why, 1), (if write then 1 else 0, 1), (0, 1)]
/-- Whether a peer's line write must wait: a HOLD page or a page being copied, a line under repair, or a block on its way (R231, R233, R235, R240, R242). -/
def State.lineWaits (s : State) (a : Nat) : Bool :=
  s.pageHeld (pageOf a) || s.mending a || (s.holders (blockOf a)).any (fun x => x.2.2.state == .moving || x.2.2.state == .evicting)
/-- Apply a peer's WRITE line by line (R249); lines that are held count for its acknowledgement. (DESIGN CHOICE, unsafe: log 94) -/
def State.peerLines (s : State) (p ctx cls q : Nat) : Nat → List LineVal → State
  | _, [] => s
  | a, v :: l =>
    let all := BitVec.allOnes 64
    let s :=
      if s.contribHeld p a then s.contribHold p ⟨a, v.data, all, v.poison, .peer ctx cls q⟩
      else (s.writeLine a v.data all v.poison).1.contribCount p a all
    s.peerLines p ctx cls q (a + 64) l

/-- SWT_WRITE (R218, R220, R249, R327): the lines are written for LPART through the page map and acknowledged by DACK; a refused write changes
nothing. -/
def execSwtWrite (f : SwtFrame) (s : State) : Res :=
  s.swtRow f 0 none (fun s c q pay =>
    let p := c.lpart
    let a := f.addr / 64 * 64
    let ls := payloadLines f.plen pay f.pmask
    let ads := (List.range ls.length).map (fun i => a + 64 * i)
    let why := fun (x : Nat) => if 2 ^ 42 ≤ x then 1 else s.pageReason p (pageOf x) true
    match ads.find? (fun x => why x != 0) with
    | some x => ((s.peerRefuse p x (why x) true).dack f.dctx f.cls q 9 (why x), true)
    | none =>
      match ads.find? (fun x => !s.contribHeld p x && s.lineWaits x) with
      | some x => (if Pm.hold (s.page (pageOf x)) = 1 then s.askCopy (pageOf x) none else s, false)
      | none =>
        let s := s.peerLines p f.dctx f.cls q a ls
        (if (s.collOf p).held.any (fun y => y.who == .peer f.dctx f.cls q) then s else s.dack f.dctx f.cls q 0 0, true))

/-- SWT_READ (R220, R254, R327): the lines are read for LPART and returned by READ_RESP, once none of them is held. -/
def execSwtRead (f : SwtFrame) (s : State) : Res :=
  s.swtRow f 1 none (fun s c q _ =>
    let x : PeerRead := ⟨f.dctx, f.cls, q, f.addr / 64 * 64, f.aux % 128⟩
    let r := s.answerRead c.lpart x
    if r.2 then r
    else
      let n := (x.lines.filter (fun a => s.resultHeld c.lpart a)).length
      let s : State := { r.1 with peerReads := r.1.peerReads ++ [x] }
      (s.inc F.COLL_HELD_R_COUNT c.lpart 0 n, true))

/-- Forget what a packet's answer was awaited for. -/
def State.dropPend (s : State) (ctx : Nat) (x : PeerPend) : State := s.upPeer ctx (fun c => { c with pend := c.pend.erase x })

/-- READ_RESP (R220, R234, R327): the lines go to the stream load that waits; a refused READ delivers poison. -/
def execReadResp (f : SwtFrame) (s : State) : Res :=
  s.swtRow f 2 none (fun s c _ pay =>
    match c.pend.find? (fun x => match x with | .read cls q _ _ _ _ => cls == f.cls && q % 2 ^ 32 == f.addr % 2 ^ 32 | _ => false) with
    | some (.read cls q n id a k) =>
      let ls := if f.aux % 16 = 0 then payloadLines f.plen pay f.pmask else List.replicate k ⟨0, true⟩
      let s := s.dropPend f.dctx (.read cls q n id a k)
      (if ((s.tile n).instr? id).isNone then s
       else ls.zipIdx.foldl (fun (s : State) (v : LineVal × Nat) => s.giveLine n id (a + 64 * v.2) v.1) s, true)
    | _ => (s, true))

/-- Header word 0 read back (Table 7.5), with the receiving port stop's word 1. -/
def msgHdrOf (w ctx : Nat) : MsgHdr :=
  ⟨fld w 0 13, fld w 13 3, fld w 16 6, fld w 22 6, fld w 28 16, fld w 44 9, fld w 53 4, fld w 57 2, fld w 59 1 == 1, fld w 60 1 == 1, fld w 61 8,
   fld w 69 9, fld w 78 6, true, ctx⟩
/-- The local tile a fabric message is for: the one with an inbound channel INCH from this context, tile and channel. (DESIGN CHOICE, unsafe: log 85) -/
def State.msgTile (s : State) (p : Nat) (h : MsgHdr) : Option Nat :=
  (s.tilesOf p).find? (fun n => s.g F.CHI_CFG_OPEN n h.inch == 1 && s.g F.CHI_CFG_SKIND n h.inch == 2 && s.g F.CHI_CFG_SOURCE n h.inch == h.peer &&
    s.g F.CHI_CFG_STILE n h.inch == h.stile && s.g F.CHI_CFG_SOUTCH n h.inch == h.soutch)

/-- SWT_MSG (R199, R207, R327): the message or WRAP marker goes onto the mesh with header word 1, and its doorbell, from this port stop, onto the
banister. One that names no inbound channel is refused with reason 6, and its words return (R198, R202). -/
def execSwtMsg (f : SwtFrame) (s : State) : Res :=
  s.swtRow f 3 none (fun s c q pay =>
    let h := msgHdrOf (f.aux + f.addr * 2 ^ 32) f.dctx
    match s.msgTile c.lpart h with
    | some n =>
      let words := (List.range h.len).map (fun i => (pay / 2 ^ (96 * i) % 2 ^ 96, false))
      let s := s.sendPkt c.lpart (perimeterHall (f.sub / 2)) (n / 64) 0 h.cls (.msg n h (20000 + q) words)
      (if h.wrap then s else s.sendBan (banPort + f.sub / 2) n (.bell h.inch h.seq (20000 + q)), true)
    | none =>
      let words := if h.wrap then pay % 2 ^ 17 else h.len
      ((if h.reply then s else s.holdCredit f.dctx h.stile h.soutch words false).dack f.dctx h.cls q 6 0, true))

/-- DACK (R90, R204, R327): a line write of a tile, or a message, has been accepted or refused at the peer. -/
def execDack (f : SwtFrame) (s : State) : Res :=
  s.swtRow f 4 none (fun s c _ _ =>
    let hit := fun (cls q : Nat) => cls == f.addr / 2 ^ 32 % 4 && q % 2 ^ 32 == f.addr % 2 ^ 32
    match c.pend.find? (fun x => match x with | .write cls q .. => hit cls q | .msg cls q .. => hit cls q | _ => false) with
    | some (.write cls q n id) =>
      (((s.dropPend f.dctx (.write cls q n id)).upTile n (fun t => { t with lineOut := t.lineOut.filter (fun l => l.peer != some (f.dctx, q)) })).stWindow n, true)
    | some (.msg cls q n j m w) => ((s.dropPend f.dctx (.msg cls q n j m w)).msgAcked n j (if w then 256 + m else m) (f.aux % 16), true)
    | _ => (s, true))

/-- CREDIT (R197, R200, R202, R327): each entry sets or adds to CRED of a local tile's channel. -/
def execCredit (f : SwtFrame) (s : State) : Res :=
  s.swtRow f 5 none (fun s c _ pay =>
    ((List.range f.aux).foldl (fun (s : State) (i : Nat) =>
      let e := pay / 2 ^ (64 * i) % 2 ^ 64
      let lt := fld e 0 13
      if lt < s.tileCount c.lpart then
        let n := s.devTile c.lpart lt
        if fld e 36 1 = 1 then s.w F.CHO_STATE_CRED n (fld e 13 6) (fld e 19 17) else s.creditIn n (fld e 13 6) (fld e 19 17)
      else s) s, true))

/-- LAND_PACKET (R186, R187, R192): an arrival of a child, a release of the parent, or a member's bits. (DEDUCED, unsafe: log 42) -/
def execLandPacket (f : SwtFrame) (s : State) : Res :=
  s.swtRow f 6 none (fun s c _ _ =>
    let p := c.lpart
    let l := f.addr % 2 ^ 32
    let bits := f.addr / 2 ^ 32 % 2 ^ 16
    let d := diff32 l (s.g F.LAND_NUM_DONE p)
    match s.part? p with
    | none => (s, true)
    | some x =>
      let k := x.groupCtx.findIdx (· == f.dctx)
      let r := s.g F.LAND_GROUP_RANK p
      let mode := s.landMode p
      -- the sender's rank: mode 1 the parent's or the child's, mode 2 the k-th of the others
      let rank := if mode = 1 then (if k = 0 then (r - 1) / 32 else 32 * r + k) else if k < r then k else k + 1
      if x.groupCtx.length ≤ k then (s, true)
      else if 4 < d then ((s.partFault p).event (some p) 0x8105 [(l, 4), (rank, 2)], true)
      else match f.aux % 4 with
        | 0 =>
          if mode = 1 ∧ 0 < d then
            let s := s.upLanding p l (fun e => if e.kids.contains rank then e else { e with kids := e.kids ++ [rank], kidBits := e.kidBits ||| bits })
            (s.landGroup p, true)
          else (s, true)
        | 1 => (if mode = 1 ∧ 0 < d then s.upLanding p l (fun e => { e with release := some bits }) else s, true)
        | 2 => (if mode = 2 ∧ 0 ≤ d then s.upPart p (fun x => { x with rankBits := x.rankBits ++ [(l, f.dctx, bits)] }) else s, true)
        | _ => (s, true))

/-- The prefix and data of a COLL packet (Table 12.7). (DESIGN CHOICE, unsafe: log 65) -/
def collOfPacket (d stage bucket plen payload pmask : Nat) : CollIn :=
  let b := leBytes plen payload
  let at_ := fun (o k : Nat) => leVal ((b.drop o).take k)
  let fl := at_ 8 1
  let data := (b.drop 32).zipIdx.map (fun x => if pmask / 2 ^ (x.2 / 64) % 2 = 1 then (0, true) else (x.1, false))
  let bits := if stage = 5 then 32 else elemBits d stage
  ⟨at_ 0 4, bucket, stage, at_ 4 2, at_ 6 2, if fl % 2 = 1 then some ⟨fl / 2 % 2 == 1, at_ 16 2, at_ 18 4⟩ else none, fl / 4 % 2 == 1, fl / 8 % 2 == 1,
   (at_ 10 2, at_ 12 4), [(at_ 22 4 * bits / 8, data)]⟩

/-- COLL (R257, R296, R327): the data enters the bucket's path; a leg is written into the buddy's leg area. -/
def execColl (f : SwtFrame) (s : State) : Res :=
  s.swtRow f 7 none (fun s c _ pay =>
    let stage := f.aux / 2 ^ 16 % 16
    let b := f.aux % 2 ^ 16
    let x := collOfPacket (s.bucket c.lpart b) stage b f.plen pay f.pmask
    if stage = 5 then (let s := s.linkBind c.lpart f.dctx
      match s.linkOf c.lpart f.dctx with | some k => s.legArrive c.lpart k x | none => (s, true))
    else (s.collArrive c.lpart x, true))

/-- REPAIR (R299): answered from the shadow, or refused. -/
def execRepair (f : SwtFrame) (s : State) : Res :=
  s.swtRow f 8 none (fun s c _ _ =>
    let s := s.linkBind c.lpart f.dctx
    let r := match s.linkOf c.lpart f.dctx with | some k => s.shadowLine c.lpart k f.aux f.addr | none => (s, none)
    (match r.2 with
     | some v => r.1.peerSend f.dctx 9 0 0 f.addr 0 64 v.data.toNat (fun _ => none)
     | none => r.1.peerSend f.dctx 9 0 1 f.addr 0 0 0 (fun _ => none), true))

/-- REPAIR_RESP (R242, Table 8.8): the line is written into its frame, or is lost. -/
def execRepairResp (f : SwtFrame) (s : State) : Res :=
  s.swtRow f 9 none (fun s c _ pay =>
    let e := pageOf f.addr
    let l := pageLine f.addr
    let s := match c.pend.find? (fun x => match x with | .repair _ _ e' l' => e' == e && l' == l | _ => false) with
      | some x => s.dropPend f.dctx x
      | none => s
    (if !s.repairing e l then s
     else if f.aux % 2 = 0 then (s.repairLine e l (pay % 2 ^ 512)).servePeerReads else (s.repairFail e l).servePeerReads, true))

/-- KEEPALIVE (R334): nothing beyond its acceptance. -/
def execKeepalive (f : SwtFrame) (s : State) : Res := s.swtRow f 10 (some 0) (fun s _ _ _ => (s, true))

/-- PART_END (R334): the peer's partition has ended, and the context goes down. -/
def execPartEnd (f : SwtFrame) (s : State) : Res := s.swtRow f 10 (some 1) (fun s _ _ _ => (s.peerDown f.dctx 3, true))

/-- SP_ACK (R298, R300): the buddy acknowledges a step. -/
def execSpAck (f : SwtFrame) (s : State) : Res :=
  s.swtRow f 10 (some 2) (fun s c _ _ =>
    (if s.linkIsUp c.lpart && s.g F.SP_LINK_CTX c.lpart == f.dctx then s.spAck c.lpart (f.addr % 2 ^ 32) (f.aux / 2 ^ 8 % 2 == 1) else s, true))

/-- SP_RECORD (R297): the commit record is written into its slot. -/
def execSpRecord (f : SwtFrame) (s : State) : Res :=
  s.swtRow f 10 (some 3) (fun s c _ pay =>
    let s := s.linkBind c.lpart f.dctx
    match s.linkOf c.lpart f.dctx with | some k => s.recordArrive c.lpart k (leBytes 256 pay) | none => (s, true))

/-- SP_PAGE (R300): lines of a catch-up page are written into the shadow area. -/
def execSpPage (f : SwtFrame) (s : State) : Res :=
  s.swtRow f 10 (some 4) (fun s c _ pay =>
    let s := s.linkBind c.lpart f.dctx
    match s.linkOf c.lpart f.dctx with | some k => s.pageArrive c.lpart k f.aux f.addr (payloadLines f.plen pay f.pmask) | none => (s, true))

/-- SP_DIGEST (R301): the buddy's digest of a tensor is compared with the owner's. -/
def execSpDigest (f : SwtFrame) (s : State) : Res :=
  s.swtRow f 10 (some 5) (fun s c _ pay =>
    (if s.linkIsUp c.lpart && s.g F.SP_LINK_CTX c.lpart == f.dctx then s.spDigest c.lpart (f.aux / 2 ^ 8 % 2 ^ 10) (pay % 2 ^ 32) f.addr else s, true))

/-- ACK (R329, R333): kept packets are retired, gaps retransmitted, and the window adjusted. -/
def execAck (f : SwtFrame) (s : State) : Res :=
  if 64 ≤ f.sub then .fault .noSuchUnit
  else if !s.linkUp f.sub ∨ !isRow f 11 none then .next s
  else match s.swtCheck f with
    | .gone s => .next s
    | .good s _ _ pay =>
      let rs := (List.range (min 4 (f.plen / 8))).map (fun i => (pay / 2 ^ (64 * i) % 2 ^ 32, pay / 2 ^ (64 * i + 32) % 2 ^ 32))
      .next ((s.inc F.PT_RX_PKTS (f.sub / 2) 0 1).ackIn (f.sub / 2) f.dctx f.cls (f.addr % 2 ^ 32) rs (f.aux % 2 ^ 16))

/-! Timers (R202, R329, R334). -/

/-- ACK_TIMER (R329): an arrival has waited 2 µs for its acknowledgement. -/
def execAckTimer (ctx cls : Nat) (s : State) : Res :=
  if 8192 ≤ ctx then .fault .noSuchUnit
  else .next (
    match s.peer? ctx with
    | some c => if c.up && c.ackDue.any (fun a => a.1 == cls && decide (a.2 + 2000 ≤ s.now)) then s.sendAck ctx cls else s
    | none => s)

/-- RETRANSMIT_TIMEOUT (R329): every packet of the context whose timer has passed RTO is sent again. -/
def execRetransmitTimeout (ctx : Nat) (s : State) : Res :=
  if 8192 ≤ ctx then .fault .noSuchUnit
  else .next (
    match s.peer? ctx with
    | some c => if c.up then (s.overdue c).foldl (fun (s : State) (p : SwtPkt) => s.retransmit ctx p.cls p.seq) s else s
    | none => s)

/-- CREDIT_PACKET_TIMER (R202): the port stop sends the returns it holds for a context. -/
def execCreditPacketTimer (ctx : Nat) (s : State) : Res :=
  if 8192 ≤ ctx then .fault .noSuchUnit
  else .next (
    match s.peer? ctx with
    | some c =>
      if !c.up ∨ c.credits.isEmpty then s
      else
        let l := c.credits.take (c.pmax / 8)
        let pay := leVal (l.flatMap (fun e => leBytes 8 (e.1 + e.2.1 * 2 ^ 13 + e.2.2.1 * 2 ^ 19 + (if e.2.2.2 then 2 ^ 36 else 0))))
        (s.upPeer ctx (fun c => { c with credits := c.credits.drop l.length })).peerSend ctx 5 0 l.length 0 0 (8 * l.length) pay (fun _ => none)
    | none => s)

/-- CONTEXT_DOWN_TIMER (R334): a packet has waited 1 s for its acknowledgement, or the link list has been empty for 1 s. -/
def execContextDownTimer (ctx : Nat) (s : State) : Res :=
  if 8192 ≤ ctx then .fault .noSuchUnit
  else .next (
    match s.peer? ctx with
    | some c =>
      if c.unacked.any (fun p => decide (p.since + 1000000000 ≤ s.now)) then s.peerDown ctx 1
      else if c.emptyAt.any (fun t => decide (t + 1000000000 ≤ s.now)) then s.peerDown ctx 2
      else s
    | none => s)

/-- KEEPALIVE_TIMER (R334): a context that has sent nothing for 10 ms sends CTRL KEEPALIVE. -/
def execKeepaliveTimer (ctx : Nat) (s : State) : Res :=
  if 8192 ≤ ctx then .fault .noSuchUnit
  else .next (
    match s.peer? ctx with
    | some c =>
      if c.up && decide (c.lastTx + 10000000 ≤ s.now) && !c.unacked.any (fun p => p.typ == 10 && p.aux == 0 && !p.sent) then s.sendCtrl ctx 0 0 0 0 0 0 0 else s
    | none => s)

end Sys2Proof.Machine
end

