-- ==== Sys2Proof/Machine/Qpair.lean ====
section
/-! DEFINITION. Queue pairs (spec 12_ethernet_ports.md, R318–R324): the end of a queue pair and of the work it carried, retransmission, and the answers
that a responder sends. -/

namespace Sys2Proof.Machine

def State.qp? (s : State) (n : Nat) : Option Qp := Sparse.find? s.foyer.qps n

/-- A firmware update fails with a status (R360): it is reported, and FW_UPDATE completes with that status. -/
def State.updateFail (s : State) (status : Nat) : State :=
  match s.mss.update with
  | some u =>
    let s := s.upMss (fun m => { m with update := none, pldm := 0 })
    let s := ((s.w F.MB_UPDATE_STATE 0 0 4).w F.MB_UPDATE_LAST 0 0 status).w F.MB_ALERT_UPDATE_FAIL 0 0 1
    let s := s.event none 0x8702 [(status, 2)]
    match u.cmd with
    | some c => s.cmdDone c status
    | none => s
  | none => s

/-- The unit whose work an operation carried reports its own failure (R323). -/
def State.opFailed (s : State) (why : OpWhy) : State :=
  match why with
  | .cmd c => s.cmdDone c 0x0008
  | .snapshot p => s.snapFail p 2
  | .restore p =>
    match (s.protOf p).restore with
    | some r => (s.upProt p (fun y => { y with restore := none })).cmdDone r.cmd 0x0008
    | none => s
  | .update => s.updateFail 0x0008
  | .none | .ring _ | .evring _ | .output _ => s

/-- The queues whose completion ring lies on queue pair n (R341). -/
def State.ringsOn (s : State) (n : Nat) : List Nat :=
  (List.range 64).filter (fun q => s.g F.CQ_CFG_VALID q == 1 && ((Sparse.find? s.foyer.hostbufs (s.g F.CQ_CFG_CRING q)).map (·.qpn)) == some n)
/-- A queue pair goes to the error state (R319, R323): its operations are flushed, and completion rings on it are in error. -/
def State.qpStop (s : State) (n : Nat) : State :=
  match s.qp? n with
  | none => s
  | some q =>
    if !q.ok then s
    else
      let s := s.upQp n (fun q => { q with ok := false, ops := [], cur := none, rnrAt := none, answers := [] })
      let s : State := { s with tiles := s.tiles.map (fun t => (t.1, { t.2 with accepted := t.2.accepted.filter (fun a => a.2 != 2 ^ 32 + n) })) }
      let s := (s.ringsOn n).foldl (fun (s : State) (r : Nat) => (s.w F.CQ_STATUS_RINGERR r 0 1).event none 0x8004 [(r, 1), (2, 1)]) s
      q.ops.foldl (fun (s : State) (o : QpOp) => s.opFailed o.why) s
/-- A NAK or the exhaustion of retries on a requester queue pair (R323): QP_ERROR, with the NAK code or 0. -/
def State.qpError (s : State) (n syndrome : Nat) : State :=
  if ((s.qp? n).map (·.ok)).getD false then (s.event none 0x8003 [(n, 4), (syndrome, 4)]).qpStop n else s

/-- The packets of an operation's output are sent again (Table 12.3, go-back-N). -/
def State.resend (s : State) (n : Nat) : State :=
  match s.qp? n with
  | some q =>
    let s := (q.ops.filter (·.sent)).foldl (fun (s : State) (o : QpOp) =>
      if s.hostMay q.port o.why.cls then (s.hostTx q.port o.n (.rdma n o.psn (s.roceHead q o.why.cls) o.out)).inc F.PT_RETX_PKTS (32 + q.port) 0 o.n else s) (s.upQp n (fun q => { q with retried := q.retried + 1 }))
    s.qpPump n
  | none => s
/-- A retry within the retry count, or the error state (R314, R318). (DEDUCED, unsafe: log 106) -/
def State.qpRetry (s : State) (n : Nat) : State :=
  match s.qp? n with
  | some q => if q.retry ≤ q.tries then s.qpError n 0 else (s.upQp n (fun q => { q with tries := q.tries + 1 })).resend n
  | none => s

/-- Send an answer on a queue pair, with the port's DSCP and tag of a class (R315); a paused priority holds it back, and those after it. -/
def State.roceSend (s : State) (n : Nat) (q : Qp) (kind psn cls : Nat) (payload : List Nat) : State :=
  if !s.hostUp q.port then s
  else if s.hostMay q.port cls && (((s.qp? n).map (·.answers)).getD []).isEmpty then s.hostTx q.port 1 (.roce n kind (psn % 2 ^ 24) (s.roceHead q cls) payload)
  else s.upQp n (fun q => { q with answers := q.answers ++ [(cls, kind, psn % 2 ^ 24, payload)] })
/-- A NAK of kind 1 to 5, counted (Table 12.10). (DEDUCED, unsafe: log 100) -/
def State.roceNak (s : State) (n : Nat) (q : Qp) (kind psn : Nat) : State :=
  let s := (s.roceSend n q kind psn 0 []).upQp n (fun q => { q with nakTx := Sparse.put 0 q.nakTx kind (Sparse.get 0 q.nakTx kind + 1), cur := if kind = 2 ∨ kind = 3 then none else q.cur })
  match kind with
  | 2 => s.inc F.ROCE_NAK_INV (32 + q.port) 0 1
  | 3 => s.inc F.ROCE_NAK_ACC (32 + q.port) 0 1
  | 4 => s.inc F.ROCE_NAK_RD_POISON (32 + q.port) 0 1
  | 5 => s.inc F.ROCE_NAK_RNR (32 + q.port) 0 1
  | _ => s

end Sys2Proof.Machine
end

