-- ==== Sys2Proof/Machine/Access.lean ====
section
/-! DEFINITION. Control space as software reads and writes it (spec 01, R29–R31; spec 13, R339, R347; and each register table): views of other
state, and the effects of writes beyond the field types. -/

namespace Sys2Proof.Machine

/-! Doorbells (R339). -/

/-- A doorbell out of range: it is ignored, OVERRUN is set and QUEUE_ERROR reported. -/
def State.overrun (s : State) (q : Nat) : State := (s.w F.CQ_STATUS_OVERRUN q 0 1).event none 0x8004 [(q, 1), (1, 1)]
/-- A count less another, modulo 2^30. -/
def sub30 (a b : Nat) : Nat := (a + 2 ^ 30 - b % 2 ^ 30) % 2 ^ 30
/-- Set TAIL of queue q. -/
def State.setTail (s : State) (q v : Nat) : State :=
  if s.g F.CQ_CFG_VALID q = 0 then s
  else if 2 ^ s.g F.CQ_CFG_LOGSLOTS q < sub30 v (s.g F.CQ_HEAD_HEAD q) then s.overrun q else s.w F.CQ_TAIL_TAIL q 0 v
/-- Set CHEAD of queue q; completions held for space follow (R341). -/
def State.setChead (s : State) (q v : Nat) : State :=
  if s.g F.CQ_CFG_VALID q = 0 then s
  else
    let c := s.g F.CQ_CHEAD_CHEAD q
    if sub30 (Sparse.get 0 s.foyer.written q) c < sub30 v c then s.overrun q
    else (s.w F.CQ_CHEAD_CHEAD q 0 v).drainDone q (s.foyer.heldDone.length + 1)
/-- Set EHEAD of ring r; `q` is the queue that a bad value is charged to. -/
def State.setEhead (s : State) (q r v : Nat) : State :=
  let h := s.g F.EV_HEAD_HEAD r
  if sub30 (s.g F.EV_TAIL_TAIL r) h < sub30 v h then s.overrun q else s.w F.EV_HEAD_HEAD r 0 v
/-- The doorbell that an immediate value names on a command queue pair's queue (R339). -/
def State.immDoorbell (s : State) (q part imm : Nat) : State :=
  let v := imm % 2 ^ 30
  match imm / 2 ^ 30 % 4 with
  | 0 => s.setTail q v
  | 1 => s.setChead q v
  | 2 => s.setEhead q part v
  | _ => s

/-! Views of the registers that show other state. -/

/-- Directory entries in use: blocks that some gallery holds (R229). -/
def State.dirUsed (s : State) : Nat := ((s.allSlots.map (fun x => x.2.2.block)).eraseDups).length
/-- Views beyond those of Control.lean (Tables 8.9, 8.10, 9.7, 11.11, 13.10, 14.12). (DESIGN CHOICE, unsafe: log 10) -/
def State.regView (s : State) (r : Reg) (k i : Nat) : BitVec 64 :=
  let v := s.regValue r k i
  if r = R.GMEM_FRAMES then setFields v [(F.GMEM_FRAMES_FREE, 465969 - (s.usedFrames.eraseDups.filter (fun f => decide (firstFrame ≤ f) && decide (f < numFrames))).length),
    (F.GMEM_FRAMES_RETIRED, s.retired.length), (F.GMEM_FRAMES_POOL, s.pool.length)]
  else if r = R.GMEM_DIR then setFields v [(F.GMEM_DIR_USED, s.dirUsed)]
  else if r = R.HALL_SW_OUT then setFields v [(F.HALL_SW_OUT_READS, s.outReads k)]
  else if r = R.CQ_STATUS then setFields v [(F.CQ_STATUS_INFLIGHT, (s.foyer.running.filter (fun c => c.hdr.queue == k)).length + (s.foyer.taken.filter (fun t => t.hdr.queue == k)).length)]
  else if r = R.COLL_WIN then setFields v [(F.COLL_WIN_RUNNING, (s.collOf k).runs.length)]
  else if r = R.LINK_MAC then setFields v [(F.LINK_MAC_ADDR, Config.macAddr k i)]
  else if r = R.SP_LAG then
    setFields v [(F.SP_LAG_COMMITS, if s.g F.SP_LINK_UP k = 1 then (diff32 (s.g F.SP_COMMIT_STEP k) (s.g F.SP_LINK_ACKED k)).toNat else 0)]
  else if r = R.SP_TENS then
    let t := (s.protOf k).tensors
    setFields v [(F.SP_TENS_COUNT, t.length), (F.SP_TENS_SHADOWED, (t.filter (fun (x : Tensor) => s.methodOf k x == 2)).length),
      (F.SP_TENS_SNAPPED, (s.snapTensors k).length)]
  else if r = R.SP_SNAP then setFields v [(F.SP_SNAP_DEFERRED, if s.protWaits k then 1 else s.g F.SP_SNAP_DEFERRED k)]
  else if r = R.MB_HOLDUP then
    setFields v [(F.MB_HOLDUP_AGE, if s.g F.MB_HOLDUP_VALID 0 = 1 then min 65535 ((s.now - s.mss.lastMeas) / 1000000000) else 0)]
  else if r = R.MB_STATUS then
    setFields v [(F.MB_STATUS_SLOT, s.mss.booted), (F.MB_STATUS_PENDING, if s.mss.rec_.pending.isSome then 1 else 0), (F.MB_STATUS_SVN, s.mss.svn), (F.MB_STATUS_BOOTS, min s.mss.boots (2 ^ 32 - 1))]
  else if r = R.MB_FWVER then
    setFields v [(F.MB_FWVER_VER_A, if s.mss.slotOk 0 then imgVersion s.mss.slotA.bytes else 0), (F.MB_FWVER_VER_B, if s.mss.slotOk 1 then imgVersion s.mss.slotB.bytes else 0)]
  else if r = R.MB_FWSVN then
    setFields v [(F.MB_FWSVN_SVN_A, imgSvn s.mss.slotA.bytes), (F.MB_FWSVN_SVN_B, imgSvn s.mss.slotB.bytes), (F.MB_FWSVN_TRIES, s.mss.rec_.tries)]
  else if r = R.MB_LOG then setFields v [(F.MB_LOG_OLDEST, ((s.mss.log.head?).map (·.seq)).getD (s.g F.MB_LOG_NEXT 0))]
  else if r = R.HALL_XB_AGED then setFields v [(F.HALL_XB_AGED_COUNT, Config.timingCount r.off k s.now)]
  else if r = R.HALL_UXB_BUSY then setFields v [(F.HALL_UXB_BUSY_COUNT, Config.timingCount r.off k s.now)]
  else if r = R.XC_CREDIT_WAIT then setFields v [(F.XC_CREDIT_WAIT_COUNT, Config.timingCount r.off k s.now)]
  else if r = R.LINK_PFC then setFields v [(F.LINK_PFC_TX, Config.timingCount r.off (2 * k + i) s.now)]
  else if r = R.PWR_STATUS then (if s.power.phase = .running then setFields v [(F.PWR_STATUS_PPS_IN, if Config.ppsLevel s.now then 1 else 0)] else v)
  else if r = R.PWR_REFCLK then (if s.power.phase = .running then setFields v [(F.PWR_REFCLK_PPM, Config.refclkPpm s.now % 2 ^ 16)] else v)
  else if r = R.MB_SENSOR then setFields v [(F.MB_SENSOR_STALE, if s.sensorStale i then 1 else 0)]
  else v

/-- Sub-port 1's range reads as zero on a port with one sub-port (R335); SWT.PORT lies in port 0's block only, ROCE.ECN and ROCE.NAK on host ports,
SWT.CFG, SWT.DROP and SWT.DROP2 on fabric ports (Tables 12.8 and 12.10). -/
def State.portAbsent (s : State) (r : Reg) (p i : Nat) : Bool :=
  r.unit == .port &&
  ((decide (r.off / 0x100 = 1) && i == 1 && (decide (32 ≤ p) || s.g F.PORT_CFG_MODE p != 2)) ||
   (r == R.SWT_PORT && p != 0) || ((r == R.ROCE_ECN || r == R.ROCE_NAK) && decide (p < 32)) ||
   ((r == R.SWT_CFG || r == R.SWT_DROP || r == R.SWT_DROP2) && decide (32 ≤ p)))

/-- Whether R31, or the absence of its unit, hides a register. -/
def State.unseen (s : State) (r : Reg) (k i : Nat) : Bool := s.hidden r k || s.portAbsent r k i

/-- A software read of a register: its value, and what the read clears (R10). -/
def State.readReg (s : State) (r : Reg) (k i : Nat) : BitVec 64 × State :=
  if s.unseen r k i then (0, s) else (r.readValue (s.regView r k i), s.wreg r k i (r.afterRead (s.regs.rd r k i)))

/-- A read of an 8-byte element of control space (R29–R31): the page-map window shows its entry, unmapped addresses zero. -/
def State.ctlRead (s : State) (a : Nat) : BitVec 64 × State :=
  if 0x400000 ≤ a ∧ a < 0x800000 then (s.page ((a - 0x400000) / 8), s)
  else match regAt a with
    | some (r, k, i) => s.readReg r k i
    | none => (0, s)

/-! Writes with an effect of their own. -/

/-- The ceilings' hold on a hall's clock shows in CAPPED (R363). -/
def State.showCapped (s : State) (h : Nat) : State :=
  s.w F.HALL_CLK_CAPPED h 0 (if min (s.g F.MB_PCAP_CEIL 0) (s.g F.HALL_TEMP_TCEIL h) < s.g F.HALL_CLK_TARGET h then 1 else 0)
/-- HALL.CLK.TARGET (R19, Table 1.10); ignored while the hall is free or being cleared (R31). (DEDUCED, unsafe: log 154) -/
def State.clkWrite (s : State) (h v : Nat) : State :=
  if (s.ownerOf h).isNone then s else (s.w F.HALL_CLK_TARGET h 0 (min 72 (max 24 v))).showCapped h

/-- DBG.CTRL (R101, Table 3.14): BPHIT clears; then STOP, GO and STEP act in this order. (DEDUCED, unsafe: log 45) -/
def State.dbgWrite (s : State) (n : Nat) (v : BitVec 64) : State :=
  let s := if v.getLsbD 4 then s.w F.DBG_CTRL_BPHIT n 0 0 else s
  let s := if v.getLsbD 0 then (s.w F.DBG_CTRL_STOP n 0 1).upTile n (fun t => { t with dbgStop := true }) else s
  let s := if v.getLsbD 1 then (s.w F.DBG_CTRL_STOP n 0 0).upTile n (fun t => { t with dbgStop := false, bpPass := t.bpPass % 4 }) else s
  if v.getLsbD 2 && (s.tile n).dbgStop then s.upTile n (fun t => { t with bpPass := 5 }) else s

/-- LAND.CTRL (R173, R193): TIMEOUT 0 sets 1; setting AEVENT starts its count of landings anew. -/
def State.landCtrlWrite (s : State) (p : Nat) (v : BitVec 64) : State :=
  let was := s.g F.LAND_CTRL_AEVENT p
  let s := s.wreg R.LAND_CTRL p 0 (R.LAND_CTRL.written (s.regs.rd R.LAND_CTRL p) v)
  let s := if s.g F.LAND_CTRL_TIMEOUT p = 0 then s.w F.LAND_CTRL_TIMEOUT p 0 1 else s
  if was = 0 ∧ s.g F.LAND_CTRL_AEVENT p = 1 then s.upPart p (fun x => { x with lastAnomaly := none }) else s

/-- Take a link down (R314): it is counted and reported, and contexts look at their links again (R331). -/
def State.linkDrop (s : State) (p sub : Nat) : State :=
  if s.g F.LINK_STATUS_UP p sub = 0 then s
  else
    let s := ((s.wreg R.LINK_STATUS p sub 0).inc F.LINK_FLAPS_COUNT p sub 1).upMss (fun m => { m with flaps := s.now :: m.flaps })
    (s.event none 0x8002 [(p, 1), (sub, 1)]).refreshLinks
/-- PORT.CFG (R312, R335): MODE 2 of a host port and reserved modes have no effect; MAXFRAME below 1,518 sets 1,518; a write of MODE takes the port's
links down, to come up again in the new mode. (DEDUCED, unsafe: log 155) -/
def State.portCfgWrite (s : State) (p : Nat) (v : BitVec 64) : State :=
  let m := bitsAt v 0 2
  let ok := m ≠ 3 ∧ !(m = 2 ∧ 32 ≤ p)
  let v := if ok then v else setBitsAt v 0 2 (s.g F.PORT_CFG_MODE p)
  let s := s.wreg R.PORT_CFG p 0 (R.PORT_CFG.written (s.regs.rd R.PORT_CFG p) v)
  let s := if s.g F.PORT_CFG_MAXFRAME p < 1518 then s.w F.PORT_CFG_MAXFRAME p 0 1518 else s
  if ok then (s.linkDrop p 0).linkDrop p 1 else s
/-- PORT.PTP (R316): setting DISC clears it on every other port. -/
def State.ptpWrite (s : State) (p : Nat) (v : BitVec 64) : State :=
  let s := s.wreg R.PORT_PTP p 0 (R.PORT_PTP.written (s.regs.rd R.PORT_PTP p) v)
  if v.getLsbD 1 then ((List.range 36).filter (· != p)).foldl (fun (s : State) (q : Nat) => s.w F.PORT_PTP_DISC q 0 0) s else s

/-- MB.PCAP (R363, R366): CAP is clamped, and stored. -/
def State.pcapWrite (s : State) (v : BitVec 64) : State :=
  let s := s.wreg R.MB_PCAP 0 0 (R.MB_PCAP.written (s.regs.rd R.MB_PCAP 0) v)
  let cap := min 3800 (max 1200 (s.g F.MB_PCAP_CAP 0))
  (s.w F.MB_PCAP_CAP 0 0 cap).persist (fun p => { p with cap := cap })
/-- MB.ALERT (R366): causes clear, and ALERT_EN is stored. -/
def State.alertWrite (s : State) (v : BitVec 64) : State :=
  let s := s.wreg R.MB_ALERT 0 0 (R.MB_ALERT.written (s.regs.rd R.MB_ALERT 0) v)
  s.persist (fun p => { p with alertEn := s.g F.MB_ALERT_ALERT_EN 0 })
/-- CLK.PPS (R387): EN is stored. -/
def State.ppsWrite (s : State) (v : BitVec 64) : State :=
  let s := s.wreg R.CLK_PPS 0 0 (R.CLK_PPS.written (s.regs.rd R.CLK_PPS 0) v)
  s.persist (fun p => { p with ppsEn := s.g F.CLK_PPS_EN 0 })

/-- Whether any partition exists that is not dormant. -/
def State.anyLive (s : State) : Bool := s.parts.any (fun x => !x.dormant)
/-- MB.FAULT_CLEAR (R365): REQ starts the work unless a partition exists. -/
def State.faultClearWrite (s : State) (v : BitVec 64) : State :=
  let s := s.wreg R.MB_FAULT_CLEAR 0 0 (R.MB_FAULT_CLEAR.written (s.regs.rd R.MB_FAULT_CLEAR 0) v)
  if v.getLsbD 0 && !s.anyLive then s.w F.MB_FAULT_CLEAR_BUSY 0 0 1 else s

/-! Queue pairs (R319, R323). -/

def Qp.fresh (kind part queue port gidx retry rnr mtu rqpn rgid epsn spsn rate : Nat) : Qp :=
  ⟨kind, part, queue, port, gidx, retry, rnr, mtu, rqpn, rgid, true, epsn, spsn, none, [], 0, 0, none, [], [], 0, rate, none, none, none, []⟩
/-- Line rate of a host port in Mb/s (Table 12.1). -/
def hostRate : Nat := 400000
/-- A queue pair's starting packet number (no rule gives the administrative one's). -/
def State.startPsn (s : State) : Nat × State := let r := s.undef; (r.1 % 2 ^ 24, r.2)
/-- MB.AQP_CTRL.CREATE (R319, R355): any existing administrative queue pair goes to the error state, and a new one takes the lowest free number. (DESIGN CHOICE, unsafe: log 107) -/
def State.aqpCreate (s : State) : State :=
  let s := ((s.foyer.qps.filter (fun q => q.2.kind == 0)).map (·.1)).foldl (fun (s : State) (n : Nat) => s.qpStop n) s
  match Sparse.lowestFree s.foyer.qps 1024 with
  | none => s
  | some n =>
    let a := s.startPsn
    let s := a.2
    let q := Qp.fresh 0 8 0 (s.g F.MB_AQP_CFG_PORT 0) (s.g F.MB_AQP_CFG_GIDX 0) 7 7 (min 2 (s.g F.MB_AQP_CFG_MTU 0)) (s.g F.MB_AQP_CFG_RQPN 0)
      (s.g F.MB_AQP_GID0_GID_LO 0 + s.g F.MB_AQP_GID1_GID_HI 0 * 2 ^ 64) (s.g F.MB_AQP_CFG_RPSN 0) a.1 hostRate
    let s := s.upFoyer (fun x => { x with qps := Sparse.insert x.qps n q })
    ((s.w F.MB_AQP_CTRL_UP 0 0 1).w F.MB_AQP_CTRL_QPN 0 0 n).w F.MB_AQP_CTRL_SPSN 0 0 a.1

/-! The write of a register. -/

/-- A software write of a register (R10, R11, R29, R31): its field types, and the effects above. (DEDUCED, unsafe: log 83) -/
def State.writeReg (s : State) (r : Reg) (k i : Nat) (v : BitVec 64) : State :=
  if s.unseen r k i then s
  else if r = R.HALL_CLK then s.clkWrite k (bitsAt v 0 7)
  else if r = R.DBG_CTRL then s.dbgWrite k v
  else if r = R.LAND_CTRL then s.landCtrlWrite k v
  else if r = R.PORT_CFG then s.portCfgWrite k v
  else if r = R.PORT_PTP then s.ptpWrite k v
  else if r = R.CQ_TAIL then s.setTail k (bitsAt v 0 30)
  else if r = R.CQ_CHEAD then s.setChead k (bitsAt v 0 30)
  else if r = R.EV_HEAD then s.setEhead 0 k (bitsAt v 0 30)
  else if r = R.MB_PCAP then s.pcapWrite v
  else if r = R.MB_ALERT then s.alertWrite v
  else if r = R.CLK_PPS then s.ppsWrite v
  else if r = R.MB_FAULT_CLEAR then s.faultClearWrite v
  else if r = R.MB_AQP_CTRL then (if v.getLsbD 0 then s.aqpCreate else s)
  else
    let was := s.regs.rd r k i
    let s := s.swWriteReg r k i v
    let t := fun (s : State) => decide (s.g F.SP_TIERCFG_T1 0 < s.g F.SP_TIERCFG_T2 0) && decide (s.g F.SP_TIERCFG_T2 0 < s.g F.SP_TIERCFG_T3 0)
    if r = R.SP_TIERCFG ∧ !t s then s.wreg R.SP_TIERCFG 0 0 was
    else if r = R.SWT_CFG ∧ s.g F.SWT_CFG_RTOMIN k = 0 then s.w F.SWT_CFG_RTOMIN k 0 1
    else if r = R.COLL_WDOG ∧ s.g F.COLL_WDOG_TIMEOUT k = 0 then s.w F.COLL_WDOG_TIMEOUT k 0 1
    else if r = R.SP_CFG then
      (let s := if s.g F.SP_CFG_INTERVAL k = 0 then s.w F.SP_CFG_INTERVAL k 0 1 else s
       if (s.protOf k).lastSnap = 0 then s else s.w F.SP_DUE_TIME k 0 ((s.protOf k).lastSnap + s.interval k (s.g F.SP_RISK_TIER 0)))
    else s
/-- A write of an 8-byte element of control space (R29): unmapped addresses take no effect. (DEDUCED, unsafe: log 156) -/
def State.ctlWrite (s : State) (a : Nat) (v : BitVec 64) : State :=
  match regAt a with
  | some (r, k, i) => s.writeReg r k i v
  | none => s

end Sys2Proof.Machine
end

