-- ==== Sys2Proof/Machine/HallClear.lean ====
section
/-! DEFINITION. The clear of a hall and the marking of faulty halls (spec 05, R153, R154; spec 14, R364, R365; R28). -/

namespace Sys2Proof.Machine

/-- The counts a whole clear reports (R364): scratchpad words, gallery lines, queue-pool cells. -/
def clearCounts : Nat × Nat × Nat := (25165824, 786432, 65536)
/-- The register block of a hall in control space. -/
def hallSpan (h : Nat) : Nat × Nat := (0x1000000 + 0x200000 * h, 0x1000000 + 0x200000 * (h + 1))
/-- Registers of a hall, and of a tile, that persist until a cold reset or that the clear does not touch (R164, R165, R217). -/
def keptHallRegs : List Reg := [R.HALL_TEMP, R.HALL_GAL_CE, R.HALL_GAL_UE, R.HALL_GAL_REFETCH, R.HALL_GAL_SCRUB, R.HALL_QPOOL_CE]
def keptTileRegs : List Reg := [R.TILE_ECC_CE, R.TILE_ECC_UE, R.TILE_SCRUB]
/-- The tiles, gallery, queue pool and registers of hall h in their reset state (R58, R67, R107, R135, R153, R164, R165, R217, R244). -/
def State.resetHall (s : State) (h : Nat) : State :=
  let old := s.regs
  let sp := hallSpan h
  let tiles := (List.range 64).map (64 * h + ·)
  let kept := tiles.map (fun n => (n, { Tile.free with scrubRow := (s.tile n).scrubRow, scrubStart := (s.tile n).scrubStart }))
  let x := { Hall.free with scrubLine := (s.hall h).scrubLine, scrubStart := (s.hall h).scrubStart }
  let s : State := { s with
    tiles := Sparse.dropRange s.tiles (64 * h) (64 * h + 64), regs := Sparse.dropRange s.regs (16 * sp.1) (16 * sp.2)
    flying := s.flying.filter (fun y => y.hall != h), waits := s.waits.filter (fun w => w.tile / 64 != h) }
  let s := kept.foldl (fun (s : State) (t : Nat × Tile) => s.setTile t.1 t.2) (s.setHall h x)
  let s := keptHallRegs.foldl (fun (s : State) (r : Reg) => s.wreg r h 0 (old.rd r h)) s
  let s := tiles.foldl (fun (s : State) (n : Nat) => keptTileRegs.foldl (fun (s : State) (r : Reg) => s.wreg r n 0 (old.rd r n)) s) s
  (s.w F.HALL_QPOOL_UE_COUNT h 0 (old.get F.HALL_QPOOL_UE_COUNT h)).w F.HALL_CLK_FLOOR h 0 (old.get F.HALL_CLK_FLOOR h)
/-- Clear hall h (Table 5.4, steps 4 and 5): it becomes a free hall at 600 MHz with segments 1 to 7 powered down, and HALL.CLEARED shows what was
cleared. Alcove 0 of each tile holds the loader descriptor and is closed (R164). -/
def State.clearHall (s : State) (h : Nat) (counts : Nat × Nat × Nat) : State :=
  (((List.range 64).map (64 * h + ·)).foldl (fun (s : State) (n : Nat) => (s.alcSet n 0 loaderAlcove).alcShut n 0) (s.resetHall h)).wreg R.HALL_CLEARED h 0 (setFields 0 [(F.HALL_CLEARED_WORDS, counts.1), (F.HALL_CLEARED_LINES, counts.2.1), (F.HALL_CLEARED_CELLS, counts.2.2)])

/-- Set or clear hall h's bit of DEV.HALL_FAULT. -/
def State.setFault (s : State) (h : Nat) (on : Bool) : State :=
  let f := if h < 64 then F.DEV_HALL_FAULT_FAULT_LO else F.DEV_HALL_FAULT_HI_FAULT_HI
  let k := h % 64
  let v := s.g f 0
  let b := v / 2 ^ k % 2
  s.w f 0 0 (if on then v + (1 - b) * 2 ^ k else v - b * 2 ^ k)
def State.isFaulty (s : State) (h : Nat) : Bool := s.hallFaults / 2 ^ h % 2 == 1
/-- Mark a hall faulty (R28, R364): logged as HALL_MARK, alerted, and reported unless the MSS is booting. Cause 1 self-test, 2 clear audit, 3 unresponsive. -/
def State.markHall (s : State) (h cause : Nat) (report : Bool) : State :=
  let s := ((s.setFault h true).mssLog 4 none [(h, 1), (cause, 1), (1, 1)]).w F.MB_ALERT_HALL_FAULT 0 0 1
  if report then s.event none 0x8005 [(h, 1), (cause, 1)] else s

/-- The cause recorded by the latest HALL_MARK of a hall. -/
def State.markCause (s : State) (h : Nat) : Nat :=
  match ((s.mss.log ++ s.mss.logBuf).reverse).find? (fun r => r.code == 4 && (r.data.head?.map (·.1)) == some h) with
  | some r => ((r.data[1]?).map (·.1)).getD 1
  | none => 1

/-- FAULT_CLEAR (R365): the MSS has self-tested, cleared and audited every marked hall; those in `failed` keep their mark. Ignored while a partition
exists. -/
def execFaultClear (failed : List Nat) (s : State) : Res :=
  .next (
    if s.anyLive then s.w F.MB_FAULT_CLEAR_BUSY 0 0 0
    else
      let marked := (List.range numHalls).filter (fun h => s.isFaulty h)
      let s := marked.foldl (fun (s : State) (h : Nat) =>
        if failed.contains h then s.w F.MB_FAULT_CLEAR_FAILED 0 0 1
        else ((s.clearHall h clearCounts).setFault h false).mssLog 4 none [(h, 1), (s.markCause h, 1), (0, 1)]) s
      s.w F.MB_FAULT_CLEAR_BUSY 0 0 0)

end Sys2Proof.Machine
end

