-- ==== Sys2Proof/Machine/Roce.lean ====
section
/-! DEFINITION. RoCEv2 on the host ports (spec 12_ethernet_ports.md, R317–R324; spec 05, R152; spec 13, R336, R339): requests, their checks and
answers, and what comes back to the device as requester. -/

namespace Sys2Proof.Machine

/-! Receiving (R317, R318, R320, R324). -/

/-- A packet is transport-accepted (Table 12.10). (DESIGN CHOICE, unsafe: log 99) -/
def State.roceTaken (s : State) (q : Qp) : State := s.inc F.PT_RX_PKTS (32 + q.port) 0 1

/-- Send a CNP on queue pair n. -/
def State.cnpNow (s : State) (n : Nat) (q : Qp) : State :=
  ((s.roceSend n q 7 0 0 []).inc F.PT_ECN_CNP (32 + q.port) 0 1).upQp n (fun q => { q with cnpTx := some s.now })
/-- A CE-marked packet on queue pair n (R324): a CNP, at most one per ROCE.ECN.CNPGAP µs. (DEDUCED, unsafe: log 201) -/
def State.ceSeen (s : State) (n : Nat) (q : Qp) : State :=
  let s := s.inc F.PT_ECN_CE (32 + q.port) 0 1
  match q.cnpTx with
  | some t => if t + 1000 * s.g F.ROCE_ECN_CNPGAP (32 + q.port) ≤ s.now then s.cnpNow n q else s
  | none => s.cnpNow n q

/-- What the transport checks leave of a request packet. (DESIGN CHOICE, unsafe: log 200) -/
inductive RoceIn where
  | gone (s : State)
  | again (s : State) (q : Qp)
  | good (s : State) (q : Qp)

/-- Arrival and check 1 of R320: queue pair state, PSN and opcode sequence, with R318's absent features. `whole` marks an operation that is one
message by itself. (DESIGN CHOICE, unsafe: log 101) -/
def State.roceCheck (s : State) (k : RocePkt) (whole : Bool) : RoceIn :=
  if !s.hostUp k.port then .gone s
  else
    let m := s.macIn (64 + 2 * k.port) k.eth
    if !m.2 then .gone m.1
    else
    let s := m.1
    match s.qp? k.qpn with
    | none => .gone s
    | some q =>
      if !q.ok ∨ q.port ≠ k.port then .gone s
      else
        let s := if k.eth.ce then s.ceSeen k.qpn q else s
        let d := (k.psn + 2 ^ 24 - q.epsn) % 2 ^ 24
        if 2 ^ 23 ≤ d then .again s q
        else if d ≠ 0 then .gone (s.roceNak k.qpn q 1 q.epsn)
        else if k.absent ∨ 2 ^ 31 < k.len then .gone (s.roceNak k.qpn q 2 k.psn)
        else if (whole ∨ k.first) ∧ q.cur.isSome then .gone (s.roceNak k.qpn q 2 k.psn)
        else if !whole ∧ !k.first ∧ q.cur.isNone then .gone (s.roceNak k.qpn q 2 k.psn)
        else .good (s.roceTaken q) q

/-- Checks 2 to 7 of R320 for a message of `len` bytes at `va`: 0 with the region and, of a scratchpad, the alcove that accepts; 2 or 3 the NAK. A refused
scratchpad access is recorded (R151). (DESIGN CHOICE, unsafe: log 97) (DEDUCED, unsafe: log 102) -/
def State.regionCheck (s : State) (q : Qp) (rkey va len : Nat) (write : Bool) : State × Nat × Region_ × Nat :=
  let none_ : Region_ := ⟨8, 9, 0, 0, 0, 0⟩
  let bad := (s, 3, none_, 0)
  match Sparse.find? s.foyer.regions (rkey % 2 ^ 14) with
  | none => bad
  | some r =>
    let mine := match r.kind with
      | 3 => q.kind == 0 || (q.kind == 1 && q.queue == r.tile)
      | 2 => q.kind == 0
      | _ => q.kind != 0 && q.part == r.part
    if rkey / 2 ^ 14 % 2 ^ 18 ≠ Sparse.get 0 s.foyer.generations (rkey % 2 ^ 14) % 2 ^ 18 ∨ !mine then bad
    else if r.access / (if write then 2 else 1) % 2 = 0 ∨ r.len < va + len then bad
    else match r.kind with
      | 0 =>
        let a := r.base + va
        if len = 0 ∨ (List.range ((a + len - 1) / 2 ^ 23 + 1 - a / 2 ^ 23)).all (fun i => s.pageReason r.part (a / 2 ^ 23 + i) write == 0) then (s, 0, r, 0) else bad
      | 1 =>
        let n := s.devTile r.part r.tile
        if va % 192 ≠ 0 ∨ len % 192 ≠ 0 ∨ numTiles ≤ n then bad
        else if len = 0 then (s, 0, r, 16)
        else
          let w := r.base + va / 12
          let src : Src := ⟨some r.part, none, r.part⟩
          match s.alcoveCheck n w (len / 12) write 3 2 src with
          | .ok j => (s, 0, r, j)
          | .error (why, alc) => (s.alcViolation n w write 3 2 src why alc, 3, none_, 0)
      | 2 => if va % 8 = 0 ∧ len % 8 = 0 then (s, 0, r, 0) else bad
      | _ => (s, 0, r, 0)

/-! Writing. -/

/-- The lines that bytes from byte address a touch: each line's address, its data and its byte mask. -/
def byteLines (a : Nat) (b : List Nat) : List (Nat × BitVec 512 × BitVec 64) :=
  (List.range ((a % 64 + b.length + 63) / 64)).map (fun i =>
    let l := a / 64 * 64 + 64 * i
    let lo := max a l
    let hi := min (a + b.length) (l + 64)
    (l, BitVec.ofNat 512 (leVal ((b.drop (lo - a)).take (hi - lo)) * 2 ^ (8 * (lo - l))), BitVec.ofNat 64 ((2 ^ (hi - lo) - 1) * 2 ^ (lo - l))))

/-- Write bytes into a reserved frame from byte offset o. -/
def State.frameWrite (s : State) (f o : Nat) (b : List Nat) : State :=
  (byteLines o b).foldl (fun (s : State) (x : Nat × BitVec 512 × BitVec 64) =>
    let l := x.1 / 64 % frameLines
    let r := if x.2.2 = BitVec.allOnes 64 then (s, some ⟨0, false⟩) else s.readFrame f l none false
    let v := LineVal.merge (r.2.getD ⟨0, false⟩) x.2.1 x.2.2 false
    r.1.writeFrame f l v.data.toNat v.poison) s
/-- Bytes of a queue's ring (R336). -/
def State.ringBytes (s : State) (q : Nat) : Nat := 128 * 2 ^ s.g F.CQ_CFG_LOGSLOTS q
/-- Write bytes into queue q's ring from ring byte o; they wrap at its end (R336, R337). (DEDUCED, unsafe: log 111) -/
def State.ringWrite (s : State) (q o : Nat) (b : List Nat) : State :=
  let n := s.ringBytes q
  let f := 1 + q / 8
  let base := q % 8 * 2 ^ 20
  let k := n - o % n
  (s.frameWrite f (base + o % n) (b.take k)).frameWrite f base (b.drop k)

/-- Write bytes of partition p from byte address a: none while a line must wait or the old bytes of one are under repair; contribution lines are accepted or
held (R218, R227, R235, R240, R249). -/
def State.hostLines (s : State) (p a : Nat) (b : List Nat) : Except State State :=
  let ls := byteLines a b
  match ls.find? (fun x => !s.contribHeld p x.1 && s.lineWaits x.1) with
  | some x => .error (if Pm.hold (s.page (pageOf x.1)) = 1 then s.askCopy (pageOf x.1) none else s)
  | none =>
   let olds := (ls.filter (fun x => x.2.2 != BitVec.allOnes 64 && !s.contribHeld p x.1)).foldl (fun (t : State × Bool) x =>
     let r := t.1.readLine x.1
     (r.1, t.2 && r.2.isSome)) (s, true)
   let s := olds.1
   if !olds.2 then .error s
   else .ok (ls.foldl (fun (s : State) (x : Nat × BitVec 512 × BitVec 64) =>
      if s.contribHeld p x.1 then s.contribHold p ⟨x.1, x.2.1, x.2.2, false, .host⟩
      else (s.writeLine x.1 x.2.1 x.2.2 false).1.contribCount p x.1 x.2.2) s)

/-- Write a packet's bytes into its message's region: the state and the bytes of a word not yet whole, or a wait, or the refusal of a later packet. -/
def State.regionWrite (s : State) (c : QpCur) (b : List Nat) : Except State (State × List Nat × Bool) :=
  let r := c.reg
  match r.kind with
  | 0 =>
    let a := r.base + c.off
    if b.isEmpty then .ok (s, [], true)
    else if (List.range ((a + b.length - 1) / 2 ^ 23 + 1 - a / 2 ^ 23)).all (fun i => s.pageReason r.part (a / 2 ^ 23 + i) true == 0) then
      (match s.hostLines r.part a b with | .ok t => .ok (t, [], true) | .error t => .error t)
    else .ok (s, [], false)
  | 1 =>
    let all := c.part ++ b
    let w := pieces 12 (all.length / 12) all
    .ok (s.deliver (s.devTile r.part r.tile) (r.base + (c.off - c.part.length) / 12) (w.map (fun x => (leVal x, false))), all.drop (12 * (all.length / 12)), true)
  | 2 => .ok ((pieces 8 (b.length / 8) b).zipIdx.foldl (fun (s : State) (x : List Nat × Nat) =>
      s.ctlWrite (r.base + c.off + 8 * x.2) (BitVec.ofNat 64 (leVal x.1))) s, [], true)
  | _ => .ok (s.ringWrite r.tile c.off b, [], true)

/-- An accepted message's last byte has been written (R149). (DESIGN CHOICE, unsafe: log 104) -/
def State.hostAccess (s : State) (n t alc : Nat) (start : Bool) : State :=
  if 16 ≤ alc then s
  else s.upTile t (fun x => { x with accepted := if start then x.accepted ++ [(alc, 2 ^ 32 + n)] else x.accepted.filter (fun a => a.2 != 2 ^ 32 + n) })

/-- An RDMA WRITE packet (R320): `done` is what follows its message's last byte. -/
def State.roceWrite (s : State) (k : RocePkt) (done : State → Qp → State) : Res :=
  if 4 ≤ k.port then .fault .noSuchUnit
  else match s.roceCheck k false with
    | .gone s => .next s
    | .again s q => .next (s.roceSend k.qpn q 0 (q.epsn + 2 ^ 24 - 1) 0 [])
    | .good t q =>
      let st : State × Nat × QpCur × Nat :=
        if k.first then (let r := t.regionCheck q k.rkey k.va k.len true; (r.1, r.2.1, ⟨r.2.2.1, k.va, k.len, []⟩, r.2.2.2))
        else (t, 0, q.cur.getD ⟨⟨8, 9, 0, 0, 0, 0⟩, 0, 0, []⟩, 16)
      let c := st.2.2.1
      let mtu := 1024 * 2 ^ q.mtu
      let sized := decide (k.data.length ≤ c.left) && k.last == decide (k.data.length = c.left) && decide (k.data.length ≤ mtu) && (k.last || k.data.length == mtu)
      if st.2.1 ≠ 0 then .next (st.1.roceNak k.qpn q st.2.1 k.psn)
      else if !sized then .next (t.roceNak k.qpn q 2 k.psn)
      else match st.1.regionWrite c k.data with
        | .error w => .next { s with copies := w.copies }
        | .ok (w, part, ok) =>
          if !ok then .next ((w.hostAccess k.qpn (w.devTile c.reg.part c.reg.tile) 0 false).roceNak k.qpn q 3 k.psn)
          else
            let tl := w.devTile c.reg.part c.reg.tile
            let w := if c.reg.kind = 1 ∧ k.first ∧ !k.last then w.hostAccess k.qpn tl st.2.2.2 true else w
            let w := if c.reg.kind = 1 ∧ k.last then w.hostAccess k.qpn tl 0 false else w
            let cur := if k.last then none else some ⟨c.reg, c.off + k.data.length, c.left - k.data.length, part⟩
            let w := w.upQp k.qpn (fun q => { q with epsn := (q.epsn + 1) % 2 ^ 24, cur := cur })
            .next (if k.last then (done w q).roceSend k.qpn q 0 k.psn 0 [] else w)

/-- RDMA_WRITE (R318–R320). -/
def execRdmaWrite (k : RocePkt) (s : State) : Res := s.roceWrite k (fun s _ => s)
/-- RDMA_WRITE_WITH_IMMEDIATE (R321, R339): the immediate value is a doorbell on a command queue pair, and is discarded on others. -/
def execRdmaWriteWithImmediate (k : RocePkt) (s : State) : Res :=
  s.roceWrite k (fun s q => if q.kind = 1 then s.immDoorbell q.queue q.part k.imm else s)

/-- A SEND, whose row carries the whole message (R320, R321): its payload is appended to the bound queue's ring at the tail. -/
def State.roceAppend (s : State) (k : RocePkt) : Res :=
  if 4 ≤ k.port then .fault .noSuchUnit
  else match s.roceCheck k true with
    | .gone s => .next s
    | .again s q => .next (s.roceSend k.qpn q 0 (q.epsn + 2 ^ 24 - 1) 0 [])
    | .good s q =>
      .next (
        if q.kind ≠ 1 ∨ s.g F.CQ_CFG_VALID q.queue = 0 then s.roceNak k.qpn q 2 k.psn
        else
          let n := (k.data.length + 127) / 128
          let tail := s.g F.CQ_TAIL_TAIL q.queue
          if 2 ^ s.g F.CQ_CFG_LOGSLOTS q.queue < sub30 tail (s.g F.CQ_HEAD_HEAD q.queue) + n then s.roceNak k.qpn q 5 k.psn
          else
            let p := q.packets k.data.length
            let s := ((s.ringWrite q.queue (128 * tail) k.data).setTail q.queue ((tail + n) % 2 ^ 30)).upQp k.qpn (fun q => { q with epsn := (q.epsn + p) % 2 ^ 24 })
            s.roceSend k.qpn q 0 (k.psn + p - 1) 0 [])
/-- ROCE_SEND (R321). -/
def execRoceSend (k : RocePkt) (s : State) : Res := s.roceAppend k
/-- SEND_WITH_IMMEDIATE (R321): as a SEND; the ring's tail moves by the payload. (DESIGN CHOICE, unsafe: log 103) -/
def execSendWithImmediate (k : RocePkt) (s : State) : Res := s.roceAppend k

/-! Reading (R322). -/

/-- Read control space from byte address a, n elements. -/
def State.ctlReads (s : State) (a : Nat) : Nat → State × List (Nat × Bool)
  | 0 => (s, [])
  | n + 1 =>
    let r := s.ctlRead a
    let q := r.2.ctlReads (a + 8) n
    (q.1, (leBytes 8 r.1.toNat).map (fun b => (b, false)) ++ q.2)

/-- The bytes of a checked read with their poison; none while a line is held, which is counted once for the reader `who` (R254), or under repair. -/
def State.regionRead (s : State) (r : Region_) (who va len : Nat) : State × Option (List (Nat × Bool)) :=
  match r.kind with
  | 0 =>
    let a := r.base + va
    if len = 0 then (s, some [])
    else
      let q := s.holdRead r.part who a len
      if q.2 then (q.1, none) else s.readBytes a len
  | 1 =>
    let n := s.devTile r.part r.tile
    let q := s.readWords n 3 (s.tile n).flight ((List.range (len / 12)).map (r.base + va / 12 + ·))
    (q.1, some (q.2.flatMap (fun w => (leBytes 12 w.1).map (fun b => (b, w.2)))))
  | 2 => let q := s.ctlReads (r.base + va) (len / 8); (q.1, some q.2)
  | _ => (s, some [])

/-- Send the responses of a read, packet by packet: one with poison is a NAK, and ends the answer (R322). (DESIGN CHOICE, unsafe: log 105) -/
def State.readResponses (s : State) (n : Nat) (q : Qp) (psn : Nat) : List (List (Nat × Bool)) → State
  | [] => s
  | b :: rest =>
    if b.any (·.2) then s.roceNak n q 4 psn
    else (s.roceSend n q 6 psn 2 (b.map (·.1))).readResponses n q (psn + 1) rest

/-- RDMA_READ (R318, R320, R322): the request is checked and answered in packets of the path MTU; a duplicate is answered again. -/
def execRdmaRead (k : RocePkt) (s : State) : Res :=
  if 4 ≤ k.port then .fault .noSuchUnit
  else
    let run := fun (t : State) (q : Qp) (again : Bool) =>
      let r := t.regionCheck q k.rkey k.va k.len false
      if r.2.1 ≠ 0 then Host.Outcome.next (r.1.roceNak k.qpn q r.2.1 k.psn)
      else
        let who := 2 ^ 40 + k.qpn * 2 ^ 24 + k.psn
        let d := r.1.regionRead r.2.2.1 who k.va k.len
        match d.2 with
        | none => .next (s.regionRead r.2.2.1 who k.va k.len).1
        | some b =>
          let mtu := 1024 * 2 ^ q.mtu
          let p := q.packets k.len
          let t := if again then d.1 else d.1.upQp k.qpn (fun q => { q with epsn := (q.epsn + p) % 2 ^ 24 })
          .next (t.readResponses k.qpn q k.psn (pieces mtu p b))
    match s.roceCheck k true with
    | .gone s => .next s
    | .again t q => run t q true
    | .good t q => run t q false

/-! The device as requester (R318, R323, R324). -/

/-- An operation has been acknowledged: a command that waited for it completes. -/
def State.opDone (s : State) (o : QpOp) : State := match o.why with | .cmd c => s.cmdDone c 0 | _ => s
def isRead (o : QpOp) : Bool := match o.out with | .hostRead .. => true | _ => false
/-- Complete the operations of queue pair n whose last packet lies before psn; a read waits for its data. -/
def State.qpAcked (s : State) (n psn : Nat) : Nat → State
  | 0 => s
  | k + 1 =>
    match (s.qp? n).bind (·.ops.head?) with
    | some o =>
      if isRead o ∨ 2 ^ 23 ≤ (psn + 2 ^ 24 - (o.psn + o.n) % 2 ^ 24) % 2 ^ 24 then s
      else ((s.upQp n (fun q => { q with ops := q.ops.drop 1, tries := 0, rnrTries := 0 })).opDone o).qpAcked n psn k
    | none => s

/-- The queue pair of a packet that answers the device, when its link is up and the MAC passes it; a CE mark is seen of it as of any other
RoCEv2 packet (R324). -/
def State.reqRow (s : State) (n : Nat) (e : EthHead) (f : State → Qp → State) : Res :=
  if 1024 ≤ n then .fault .noSuchUnit
  else .next (
    match s.qp? n with
    | some q =>
      if !s.hostUp q.port then s
      else
        let m := s.macIn (64 + 2 * q.port) e
        if !m.2 || !q.ok then m.1 else f ((if e.ce then m.1.ceSeen n q else m.1).roceTaken q) q
    | none => s)

/-- ROCE_ACK (R318): a positive acknowledgement of every packet up to `psn`. -/
def execRoceAck (n psn : Nat) (e : EthHead) (s : State) : Res := s.reqRow n e (fun s q => s.qpAcked n ((psn + 1) % 2 ^ 24) q.ops.length)

/-- ROCE_NAK (R318, R323): packets before `psn` are acknowledged; with `rnr` the delay in ns before a retry; code 0, a sequence error, is retried, any other
moves the queue pair to the error state. -/
def execRoceNak (n psn code : Nat) (rnr : Option Nat) (e : EthHead) (s : State) : Res :=
  s.reqRow n e (fun s q =>
    let k := if rnr.isSome then 5 else code + 1
    let s := (s.qpAcked n (psn % 2 ^ 24) q.ops.length).upQp n (fun q => { q with nakRx := Sparse.put 0 q.nakRx k (Sparse.get 0 q.nakRx k + 1) })
    match rnr with
    | some d => s.upQp n (fun q => { q with rnrAt := some (s.now + d) })
    | none => if code = 0 then s.qpRetry n else s.qpError n code)

/-- LOCAL_ACK_TIMEOUT (R314, R318, R323): an unacknowledged operation's timeout ends. -/
def execLocalAckTimeout (n : Nat) (s : State) : Res :=
  if 1024 ≤ n then .fault .noSuchUnit
  else .next (
    match s.qp? n with
    | some q => if q.ok && !q.ops.isEmpty && q.rnrAt.isNone then s.qpRetry n else s
    | none => s)

/-- RNR_RETRY_TIMER (R318, R323): the RNR delay has run out. (DESIGN CHOICE, unsafe: log 199) -/
def execRnrRetryTimer (n : Nat) (s : State) : Res :=
  if 1024 ≤ n then .fault .noSuchUnit
  else .next (
    match s.qp? n with
    | some q =>
      match q.rnrAt with
      | some t =>
        if s.now < t then s
        else if q.rnr ≤ q.rnrTries then s.qpError n 0
        else (s.upQp n (fun q => { q with rnrTries := q.rnrTries + 1, rnrAt := none })).resend n
      | none => s
    | none => s)

/-- CNP (R324): the queue pair's rate falls, at most once in 50 µs. -/
def execCnp (n : Nat) (e : EthHead) (s : State) : Res :=
  s.reqRow n e (fun s _ => s.upQp n (fun q =>
    let q := { q with cnpRx := some s.now }
    if (match q.lastcut with | some t => decide (t + 50000 ≤ s.now) | none => true) then
      { q with rate := max (q.rate * 7 / 8) (hostRate / 400), lastcut := some s.now }
    else q))
/-- CNP_RATE_TIMER (R324): every 55 µs, with no CNP in the preceding 55 µs, the rate rises. -/
def execCnpRateTimer (n : Nat) (s : State) : Res :=
  if 1024 ≤ n then .fault .noSuchUnit
  else .next (s.upQp n (fun q =>
    if (match q.cnpRx with | some t => decide (t + 55000 ≤ s.now) | none => true) then { q with rate := min (q.rate + hostRate / 20) hostRate } else q))

end Sys2Proof.Machine
end

