-- ==== Sys2Proof/Machine/Ports.lean ====
section
/-! DEFINITION. The rows of links and of frames other than transport packets (spec 12_ethernet_ports.md, R312–R317). -/

namespace Sys2Proof.Machine

/-- The sub-ports are numbered 2p + s, of 36 port indices (R15, R312). -/
def numSubs : Nat := 72

/-- A received frame is not passed to a traffic unit (R313–R317): the MAC drops it, or it is a PAUSE frame or of an unknown protocol. `unc` uncorrectable codewords
were counted with it; a frame that touches one is an FCS failure (R314). -/
def execDroppedFrame (f : EthIn) (pause : Bool) (unc : Nat) (s : State) : Res :=
  if numSubs ≤ f.sub then .fault .noSuchUnit
  else .next (
    let x := f.sub
    if !s.linkUp x then s
    else
      let m := (s.inc F.LINK_FEC_UNC_COUNT (x / 2) (x % 2) unc).macIn x { f.eth with fcs := f.eth.fcs && unc == 0 }
      if m.2 then m.1.rxDrop (x / 2) (x % 2) (if pause then 6 else 4) else m.1)

/-- LINK_UP (R313, R314): the link of sub-port index x comes up in the port's mode, and traffic may use it. -/
def execLinkUp (x : Nat) (s : State) : Res :=
  if numSubs ≤ x then .fault .noSuchUnit
  else .next (
    let m := s.g F.PORT_CFG_MODE (x / 2)
    if s.linkUp x ∨ s.power.phase ≠ .running ∨ m = 0 ∨ (x % 2 = 1 ∧ m ≠ 2) then s
    else
      let s := ((s.w F.LINK_STATUS_UP (x / 2) (x % 2) 1).w F.LINK_STATUS_FECLOCK (x / 2) (x % 2) 1).w F.LINK_STATUS_TRAINED (x / 2) (x % 2) 1
      let s := (s.w F.LINK_STATUS_LFAULT (x / 2) (x % 2) 0).w F.LINK_STATUS_RFAULT (x / 2) (x % 2) 0
      (s.event none 0x8001 [(x / 2, 1), (x % 2, 1)]).refreshLinks)

/-- LINK_DOWN (R314, R331): the link drops, with a local or remote fault shown. -/
def execLinkDown (x lfault rfault : Nat) (s : State) : Res :=
  if numSubs ≤ x then .fault .noSuchUnit
  else .next (
    if !s.linkUp x then s
    else ((s.linkDrop (x / 2) (x % 2)).w F.LINK_STATUS_LFAULT (x / 2) (x % 2) lfault).w F.LINK_STATUS_RFAULT (x / 2) (x % 2) rfault)

/-! Priority flow control (R313, R315). -/

/-- The length of a pause quantum, 512 bit times, in hundredths of a ns: 800 Gb/s in mode 1 of a fabric port, else 400 Gb/s. -/
def State.quantum (s : State) (x : Nat) : Nat := if x < 64 ∧ s.g F.PORT_CFG_MODE (x / 2) = 1 then 64 else 128
/-- PFC_FRAME (R313, R315): a priority that the frame enables and PORT.CFG.PFC honours is paused for its time in quanta, or resumes at once for a time
of zero. (DESIGN CHOICE, unsafe: log 109) -/
def execPfcFrame (x enable : Nat) (times : List Nat) (s : State) : Res :=
  if numSubs ≤ x then .fault .noSuchUnit
  else .next (
    if !s.linkUp x then s
    else
      let s := (s.inc F.LINK_RX_FRAMES_COUNT (x / 2) (x % 2) 1).inc F.LINK_PFC_RX (x / 2) (x % 2) 1
      let on := (List.range 8).filter (fun k => enable / 2 ^ k % 2 == 1 && s.g F.PORT_CFG_PFC (x / 2) / 2 ^ k % 2 == 1)
      let s := on.foldl (fun (s : State) (k : Nat) =>
        let t := (times[k]?.getD 0 % 2 ^ 16) * s.quantum x / 100
        { s with ports := { s.ports with paused := Sparse.put 0 s.ports.paused (8 * x + k) (if t = 0 then 0 else s.now + t) } }) s
      s.resumeTx x)
/-- PFC_PAUSE_EXPIRY (R315): the pause time of priority k runs out, and sending at it resumes. -/
def execPfcPauseExpiry (x k : Nat) (s : State) : Res :=
  if numSubs ≤ x ∨ 8 ≤ k then .fault .noSuchUnit
  else .next (
    let t := Sparse.get 0 s.ports.paused (8 * x + k)
    if t = 0 ∨ s.now < t then s
    else ({ s with ports := { s.ports with paused := Sparse.put 0 s.ports.paused (8 * x + k) 0 } } : State).resumeTx x)

/-! Neighbour discovery (R317). -/

/-- Send a frame of another kind from sub-port index x. -/
def State.sendFrame (s : State) (x kind : Nat) (fields : List Nat) : State :=
  (s.emit (.frame x kind fields)).inc F.LINK_TX_FRAMES_COUNT (x / 2) (x % 2) 1
/-- NEIGHBOUR_DISCOVERY (R317): an ARP (or, with `v6`, IPv6 neighbour-solicitation) frame from `asker`; one for an address of the sub-port's own (Config.ipAddr) is answered with its
MAC address by the foyer, any other is dropped. -/
def execNeighbourDiscovery (f : EthIn) (v6 own : Bool) (asker : Nat) (s : State) : Res :=
  if numSubs ≤ f.sub then .fault .noSuchUnit
  else .next (
    let x := f.sub
    if !s.linkUp x then s
    else
      let m := s.macIn x f.eth
      let s := m.1
      if !m.2 then s
      else if own then s.sendFrame x (if v6 then 1 else 0) [Config.macAddr (x / 2) (x % 2), asker] else s.rxDrop (x / 2) (x % 2) 4)

/-! Precision time (R316). -/

/-- Steer the time base against an offset from the time transmitter, in phase and rate (R316): the offset is slewed out, and what has arisen since the time base
was last steered is taken as its rate's error, within 100 parts per million. (DESIGN CHOICE, unsafe: log 193) -/
def State.ptpSteer (s : State) (off : Int) : State :=
  let err : Int := match s.ports.ptpAt with | some t => if s.now ≤ t then 0 else off * 1000000000 / ((s.now - t : Nat) : Int) | none => 0
  { s with ports := { s.ports with ptpOffset := off, ptpAt := some s.now }, power := { s.power with slew := -off, rate := max (-100000) (min 100000 (s.power.rate - err)) } }
/-- PTP_EVENT_MESSAGE (R316): an event message of `domain` with sequence number `seq`, whose two-step times its follow-up brings: 0 Sync, sent at `t`;
1 Delay_Resp to the request under way, received there at `t`; 2 Pdelay_Req, answered by a Pdelay_Resp and its follow-up; 3 Pdelay_Resp to the request under way, after `t` ns at the peer. Every port
timestamps it; the time receiver on the port with DISC processes it while PPS_IN does not discipline the time base. (DESIGN CHOICE, unsafe: log 110) -/
def execPtpEventMessage (f : EthIn) (kind domain seq t : Nat) (s : State) : Res :=
  if numSubs ≤ f.sub then .fault .noSuchUnit
  else .next (
    let x := f.sub
    let p := x / 2
    if !s.linkUp x then s
    else
      let m := s.macIn x f.eth
      let s := m.1
      if !m.2 || s.g F.PORT_PTP_TSEN p = 0 then s
      else if kind = 2 then (s.sendFrame x 2 [3, seq, s.now]).sendFrame x 2 [4, seq, s.now]
      else if s.g F.PORT_PTP_DISC p = 0 ∨ s.g F.CLK_PPS_EN 0 = 1 ∨ domain ≠ s.g F.PORT_PTP_DOMAIN p then s
      else
        let p2p := s.g F.PORT_PTP_P2P p = 1
        match kind with
        | 0 =>
          let s : State := { s with ports := { s.ports with ptpSync := some (seq, t, s.now), ptpReq := some (seq, s.now) } }
          let s := if p2p then s.ptpSteer ((s.now : Int) - t - s.ports.ptpDelay) else s
          s.sendFrame x 2 [if p2p then 2 else 1, seq, s.now]
        | 1 =>
          match s.ports.ptpSync, s.ports.ptpReq with
          | some y, some r =>
            if p2p ∨ r.1 ≠ seq ∨ y.1 ≠ seq then s
            else ({ s with ports := { s.ports with ptpReq := none } } : State).ptpSteer ((((y.2.2 : Int) - y.2.1) - ((t : Int) - r.2)) / 2)
          | _, _ => s
        | 3 =>
          match s.ports.ptpReq with
          | some r =>
            if !p2p ∨ r.1 ≠ seq then s
            else { s with ports := { s.ports with ptpReq := none, ptpDelay := ((s.now : Int) - r.2 - t) / 2 } }
          | none => s
        | _ => s)

end Sys2Proof.Machine
end

