-- ==== Sys2Proof/Machine/Registers.lean ====
section
/-! DEFINITION. The rows of register accesses (spec 00, R10; spec 01, R19, R29; spec 02, R44, R55; spec 03, R101; spec 06, R193; spec 12, R316, R335;
spec 14, R355). -/

namespace Sys2Proof.Machine

/-- The mailbox's range (R355). -/
def inMailbox (a : Nat) : Bool := decide (0xF00000 ≤ a) && decide (a < 0x1000000) && a % 8 == 0
/-- REG_READ (R355): a vendor message reads 8 bytes of the mailbox; another address is answered with error 0x01.
Only the runtime answers vendor messages (R358, R370). -/
def execRegRead (a : Nat) (s : State) : Res :=
  if s.power.phase ≠ .running then .next s
  else if inMailbox a then
    let r := s.ctlRead a
    .next (r.2.emit (.mctp 0x7F 0 0 (leBytes 8 r.1.toNat)))
  else .next (s.emit (.mctp 0x7F 0 1 []))
/-- REG_WRITE (R355). -/
def execRegWrite (a v : Nat) (s : State) : Res :=
  if s.power.phase ≠ .running then .next s
  else if inMailbox a then .next ((s.ctlWrite a (BitVec.ofNat 64 v)).emit (.mctp 0x7F 1 0 [])) else .next (s.emit (.mctp 0x7F 1 1 []))

/-- HALL_CLK_WRITE (R19, R31, R363). -/
def execHallClkWrite (h v : Nat) (s : State) : Res := if numHalls ≤ h then .fault .noSuchUnit else .next (s.clkWrite h (v % 128))
/-- CLOCK_CHANGE_DONE (R19, R25, R363): the newest target is in force: min(TARGET, CEIL, TCEIL), and 600 MHz for a free hall. -/
def execClockChangeDone (h : Nat) (s : State) : Res :=
  if numHalls ≤ h then .fault .noSuchUnit
  else .next (s.w F.HALL_CLK_CURRENT h 0 (if (s.ownerOf h).isNone then 24
    else min (s.g F.HALL_CLK_TARGET h) (min (s.g F.MB_PCAP_CEIL 0) (s.g F.HALL_TEMP_TCEIL h))))

/-- TSTAT_CLEAR (R55): through control space. -/
def execTstatClear (n bits : Nat) (s : State) : Res := onTile n 0 (s.writeReg R.TILE_TSTAT n 0 (BitVec.ofNat 64 bits))
/-- SR_SEED_WRITE (R44). -/
def execSrSeedWrite (n seed : Nat) (s : State) : Res := onTile n 0 (s.writeReg R.TILE_SR_SEED n 0 (BitVec.ofNat 64 seed))
/-- DBG_STOP (R101). -/
def execDbgStop (n : Nat) (s : State) : Res := onTile n 0 (s.writeReg R.DBG_CTRL n 0 1)
/-- DBG_GO (R101). -/
def execDbgGo (n : Nat) (s : State) : Res := onTile n 0 (s.writeReg R.DBG_CTRL n 0 2)
/-- DBG_STEP (R101). -/
def execDbgStep (n : Nat) (s : State) : Res := onTile n 0 (s.writeReg R.DBG_CTRL n 0 4)
/-- LAND_CTRL_WRITE (R193). -/
def execLandCtrlWrite (p v : Nat) (s : State) : Res := if 8 ≤ p then .fault .noSuchUnit else .next (s.landCtrlWrite p (BitVec.ofNat 64 v))
/-- PORT_MODE_WRITE (R312, R335). -/
def execPortModeWrite (p mode : Nat) (s : State) : Res :=
  if 36 ≤ p then .fault .noSuchUnit else .next (s.portCfgWrite p (setBitsAt (s.regs.rd R.PORT_CFG p) 0 2 mode))
/-- PTP_DISC_WRITE (R316): DISC of port p set or cleared. -/
def execPtpDiscWrite (p : Nat) (on : Bool) (s : State) : Res :=
  if 36 ≤ p then .fault .noSuchUnit else .next (s.ptpWrite p (setBitsAt (s.regs.rd R.PORT_PTP p) 1 1 (if on then 1 else 0)))
/-- AQP_CREATE (R319, R355). -/
def execAqpCreate (s : State) : Res := .next s.aqpCreate
/-- A refused access of control space moves no data, and is reported to the administrative queue pair as a remote access error (R29). -/
def State.ctlRefuse (s : State) : State :=
  match List.find? (fun (q : Nat × Qp) => q.2.kind == 0 && q.2.ok) s.foyer.qps with
  | some q => s.roceNak q.1 q.2 3 q.2.epsn
  | none => s
/-- REGISTER_WRITE (R10, R11, R29–R31): an 8-byte write of control space; a misaligned one is refused. -/
def execRegisterWrite (a v : Nat) (s : State) : Res := .next (if a % 8 = 0 then s.ctlWrite a (BitVec.ofNat 64 v) else s.ctlRefuse)
/-- READ_CLEAR (R10, R29–R31): an 8-byte read of control space; RC fields are cleared. -/
def execReadClear (a : Nat) (s : State) : Res :=
  .next (if a % 8 = 0 then (let r := s.ctlRead a; r.2.emit (.regRead a r.1.toNat)) else s.ctlRefuse)

end Sys2Proof.Machine
end

