-- ==== Sys2Proof/Machine/Command.lean ====
section
/-! DEFINITION. How the foyer takes, starts and completes command packets (spec 13_command_interface.md, R336–R343): parameter layout, the objects a
command names, when it may start, where it is permitted; the rows of packet taking and of doorbells. -/

namespace Sys2Proof.Machine

/-! Parameters (R338). -/

/-- A parameter: its alignment, its size in bytes and its value. -/
structure Par where
  align : Nat
  size : Nat
  val : Nat
deriving DecidableEq, Repr

/-- A field of 1, 2, 4 or 8 bytes. -/
def par (k v : Nat) : Par := ⟨k, k, v⟩
/-- Any other field, and a list. -/
def parL (k v : Nat) : Par := ⟨8, k, v⟩
/-- A list of elements of k bytes. -/
def parList (k : Nat) (l : List Nat) : Par := parL (k * l.length) (leVal (l.flatMap (leBytes k)))
/-- The offset, size and value of each parameter, from byte o on. -/
def layout : Nat → List Par → List (Nat × Nat × Nat)
  | _, [] => []
  | o, x :: l => let a := (o + x.align - 1) / max 1 x.align * x.align; (a, x.size, x.val) :: layout (a + x.size) l
/-- Parameters as bytes, padded with zeros. -/
def packPars (l : List Par) : List Nat :=
  (layout 0 l).foldl (fun b x => b ++ List.replicate (x.1 - b.length) 0 ++ leBytes x.2.1 x.2.2) []
/-- Whether packet bytes carry these parameters. -/
def parMatch (b : List Nat) (l : List Par) : Bool := (layout 0 l).all (fun x => parAt b x.1 x.2.1 == x.2.2 % 256 ^ x.2.1 && decide (x.1 + x.2.1 ≤ b.length))

/-- The end of the last listed byte of an opcode's parameters (Table 13.4, R338), lists included; none for an opcode that the table lacks. -/
def parEnd (op : Nat) (b : List Nat) : Option Nat :=
  match op with
  | 0x0000 | 0x0008 | 0x0101 | 0x0103 | 0x0201 | 0x0506 => some 0
  | 0x0001 => some 16 | 0x0002 => some 4 | 0x0003 => some 1 | 0x0004 => some 40 | 0x0005 => some 4 | 0x0006 => some 3 | 0x0007 => some 32
  | 0x0100 => some 17 | 0x0102 => some 16 | 0x0104 => some 3 | 0x0105 => some 2 | 0x0106 => some (8 + 2 * parAt b 2 2) | 0x0107 => some (8 + 2 * parAt b 6 2)
  | 0x0200 => some 16 | 0x0202 => some 24
  | 0x0300 => some 9 | 0x0301 => some 9 | 0x0302 => some 9 | 0x0303 => some 24 | 0x0304 => some 4 | 0x0305 => some 24 | 0x0306 => some 2 | 0x0307 => some 24
  | 0x0308 => some 4
  | 0x0400 => some 40 | 0x0401 => some 2 | 0x0402 => some 48 | 0x0403 => some 48 | 0x0404 => some 48 | 0x0405 => some 40 | 0x0406 => some 2
  | 0x0500 => some (8 + 16 * parAt b 0 2) | 0x0501 => some 8 | 0x0502 => some 2 | 0x0503 => some 32 | 0x0504 => some 1 | 0x0505 => some 4 | 0x0507 => some 6
  | 0x0508 => some 1
  | 0x0600 => some 24 | 0x0601 => some 24 | 0x0602 => some 16 | 0x0700 => some (16 + parAt b 0 2) | 0x0701 => some 16
  | _ => none

/-! Objects (R340). -/

/-- The objects a command of partition p names, as (kind, first, end): 0 partition, 1 pages, 2 region, 3 host buffer, 4 queue, 5 queue pair, 6 peer
context, 7 plan, 8 shard, 9 protected tensor, 10 link. -/
def objsOf (op p : Nat) (b : List Nat) : List (Nat × Nat × Nat) :=
  let one := fun (k x : Nat) => (k, x, x + 1)
  let span := fun (a n : Nat) => (1, a / 2 ^ 23, (a + n + 2 ^ 23 - 1) / 2 ^ 23)
  match op with
  | 0x0001 | 0x0602 | 0x0306 | 0x0701 => [one 3 (parAt b 0 2)]
  | 0x0002 => [one 4 (parAt b 0 1), one 3 (parAt b 2 2)]
  | 0x0003 => [one 4 (parAt b 0 1)]
  | 0x0004 => [one 4 (parAt b 1 1)]
  | 0x0005 | 0x0305 => [one 5 (parAt b 0 4)]
  | 0x0006 => [one 3 (parAt b 0 2)]
  | 0x0100 | 0x0101 | 0x0102 | 0x0103 | 0x0105 | 0x0201 => [one 0 p]
  | 0x0106 => (List.range (parAt b 2 2)).map (fun i => one 6 (parAt b (8 + 2 * i) 2))
  | 0x0107 => one 0 p :: (List.range (parAt b 6 2)).map (fun i => one 6 (parAt b (8 + 2 * i) 2))
  | 0x0104 => [one 0 p, one 0 (parAt b 2 1)]
  | 0x0200 => [one 0 p, span (parAt b 0 8) (parAt b 8 8)]
  | 0x0202 => [one 3 (parAt b 0 2), span (parAt b 8 8) (parAt b 16 8)]
  | 0x0300 | 0x0302 => [(1, parAt b 0 4, parAt b 0 4 + parAt b 4 4)]
  | 0x0301 => if parAt b 8 1 = 1 then [one 0 p, (1, 0, 2 ^ 19)] else [(1, parAt b 0 4, parAt b 0 4 + parAt b 4 4)]
  | 0x0303 => if parAt b 0 1 = 0 then [span (parAt b 8 8) (parAt b 16 8)] else []
  | 0x0304 => [one 2 (parAt b 0 4 % 2 ^ 14)]
  | 0x0307 => [span (parAt b 16 8) (32 * parAt b 0 4)]
  | 0x0400 | 0x0401 | 0x0402 => [one 6 (parAt b 0 2)]
  | 0x0403 => one 6 (parAt b 6 2) :: one 6 (parAt b 8 2) :: (List.range 16).map (fun i => one 6 (parAt b (16 + 2 * i) 2))
  | 0x0404 => [one 7 p, span (parAt b 8 8) (64 * parAt b 0 4), (1, parAt b 16 8 / 2 ^ 23, (parAt b 24 8 + 2 ^ 23 - 1) / 2 ^ 23), span (parAt b 32 8) (2 * parAt b 40 8)]
  | 0x0405 => let k := parAt b 16 8 * fmtBytes (parAt b 3 1)
    [one 8 (p * 2 ^ 16 + parAt b 0 2), span (parAt b 24 8) k, span (parAt b 32 8) k]
  | 0x0406 => [one 8 (p * 2 ^ 16 + parAt b 0 2)]
  | 0x0500 => (9, p * 2 ^ 16, p * 2 ^ 16 + 2 ^ 16) :: (List.range (parAt b 0 2)).map (fun i =>
      let x := parAt b (8 + 16 * i) 16
      (1, fld x 0 19, fld x 0 19 + fld x 19 19))
  | 0x0501 => [one 9 (p * 2 ^ 16 + parAt b 0 2)]
  | 0x0502 => [one 6 (parAt b 0 2), one 10 (4 * p + 2)]
  | 0x0503 => [one 10 (4 * p + parAt b 0 1), (1, parAt b 4 4, parAt b 4 4 + parAt b 8 4), span (parAt b 24 8) 192]
  | 0x0504 => [one 10 (4 * p + parAt b 0 1)]
  | 0x0505 => [one 3 (parAt b 0 2), one 3 (parAt b 2 2)]
  | 0x0507 => [(9, p * 2 ^ 16 + parAt b 0 2, p * 2 ^ 16 + parAt b 0 2 + parAt b 2 2), one 6 (parAt b 4 2)]
  | 0x0508 => [(9, p * 2 ^ 16, p * 2 ^ 16 + 2 ^ 16)]
  | 0x0600 => [one 3 (parAt b 8 2)] ++ (if parAt b 0 1 = 0 then [one 6 (parAt b 4 4)] else if parAt b 0 1 = 1 then [one 5 (parAt b 4 4)] else [one 0 p])
  | 0x0601 => [one 3 (parAt b 8 2)]
  | 0x0700 => [one 3 (parAt b 2 2)]
  | _ => []

/-- Whether two lists of objects have one in common. -/
def objsMeet (a b : List (Nat × Nat × Nat)) : Bool := a.any (fun x => b.any (fun y => x.1 == y.1 && overlaps x.2.1 x.2.2 y.2.1 y.2.2))
/-- A release or a kill. -/
def isEnd (op : Nat) : Bool := op == 0x0101 || op == 0x0102
/-- Opcodes whose TPART names a partition on queue 0 (Tables 13.1 and 13.4): those of "A P", and those of queue 0 alone that are for TPART. -/
def namesPart (op : Nat) : Bool :=
  [0x0000, 0x0002, 0x0004, 0x0006, 0x0007, 0x0100, 0x0101, 0x0102, 0x0103, 0x0300, 0x0301, 0x0302, 0x0303, 0x0304, 0x0305, 0x0306, 0x0600].contains op
/-- The halls of a mask. -/
def maskHalls (mask : Nat) : List Nat := (List.range numHalls).filter (fun h => mask / 2 ^ h % 2 == 1)
/-- Whether a release or kill of partition p has been taken and has not completed. -/
def State.partEnding (s : State) (p : Nat) : Bool := (s.part? p).any (·.ending) || s.foyer.taken.any (fun t => isEnd t.op && t.objs.contains (0, p, p + 1))
/-- Whether a release or kill has been taken for the owner of a hall and has not completed, or the hall is being cleared (R27, R340). -/
def State.hallEnding (s : State) (h : Nat) : Bool :=
  s.g F.PART_OWNER_CLEARING h == 1 || s.foyer.releases.any (fun r => r.all.contains h) || (match s.ownerOf h with | some p => s.partEnding p | none => false)

/-! Starting a command. -/

/-- A command that cannot have been issued on partition queues, or on queue 0 (Table 13.4): 0 A, 1 P, 2 A P. -/
def permits (perm queue : Nat) : Bool := match perm with | 0 => queue == 0 | 1 => queue != 0 | _ => true
/-- Commands of a queue, and of the device, taken and not completed. -/
def State.inProgress (s : State) (q : Nat) : Nat :=
  (s.foyer.running.filter (fun c => c.hdr.queue == q)).length + (s.foyer.taken.filter (fun t => t.hdr.queue == q)).length
/-- Room for one more command (R340). (DEDUCED, unsafe: log 113) -/
def State.cmdRoom (s : State) (q : Nat) : Bool := decide (s.inProgress q < 16) && decide (s.foyer.running.length + s.foyer.taken.length < 256)
/-- Whether the foyer works: the module is at READY. -/
def State.ready (s : State) : Bool := s.g F.DEV_STATUS_READY 0 == 1
/-- The partition a command acts for: TPART on queue 0, else the queue's (Table 13.1). -/
def State.cmdPart (s : State) (h : CmdHdr) : Nat := if h.queue = 0 then h.tpart else s.g F.CQ_CFG_PART h.queue
/-- The objects of a command, with the partition that TPART names on queue 0 and the link area whose size the plan gives. -/
def State.cmdObjs (s : State) (h : CmdHdr) (op : Nat) (b : List Nat) : List (Nat × Nat × Nat) :=
  let p := s.cmdPart h
  (if h.queue = 0 ∧ p < 8 ∧ namesPart op then [(0, p, p + 1)] else []) ++
  (if op = 0x0503 then [(1, parAt b 16 8 / 2 ^ 23, (parAt b 16 8 + parAt b 1 1 * (s.g F.COLL_RHALF_RHALF p + 256) + 2 ^ 23 - 1) / 2 ^ 23)] else []) ++ objsOf op p b
/-- Whether a command must wait for an earlier one that it shares an object with. A release or kill does not wait for commands of its partition's own queues,
which it ends (R343, Table 13.7), nor for a creation that itself waits for a release (R27, R340). (DEDUCED, unsafe: log 114) -/
def State.mustFollow (s : State) (h : CmdHdr) (op : Nat) (objs : List (Nat × Nat × Nat)) (h' : CmdHdr) (op' : Nat) (objs' : List (Nat × Nat × Nat)) (held : Bool) : Bool :=
  objsMeet objs objs' && !(isEnd op && !isEnd op' && ((h'.queue != 0 && s.g F.CQ_CFG_PART h'.queue == s.cmdPart h) || (op' == 0x0100 && held)))
/-- The earlier-taken packets of a command: those before its own record. -/
def State.takenBefore (s : State) (h : CmdHdr) : List Taken := s.foyer.taken.takeWhile (fun t => t.hdr != h)
/-- Whether a command may start now (R340): its packet is the first taken of its queue, or a row that no packet preceded; the limits; FENCE; objects. (DESIGN CHOICE, unsafe: log 112) -/
def State.mayStart (s : State) (h : CmdHdr) (op : Nat) (pars : List Par) : Bool :=
  let before := s.takenBefore h
  let objs := s.cmdObjs h op (packPars pars)
  s.ready && s.g F.CQ_CFG_VALID h.queue == 1 && !s.foyer.running.any (fun c => c.hdr.queue == h.queue && c.hdr.seq == h.seq) &&
  (match s.foyer.taken.find? (fun t => t.hdr == h) with
   | some t => t.op == op && parMatch t.bytes pars
   | none => s.cmdRoom h.queue && !s.foyer.closing.contains h.queue && !s.foyer.stopped && s.g F.CQ_STATUS_RINGERR h.queue == 0) &&
  !before.any (fun t => t.hdr.queue == h.queue) && !(h.flags % 2 == 1 && s.foyer.running.any (fun c => c.hdr.queue == h.queue)) &&
  !before.any (fun t => s.mustFollow h op objs t.hdr t.op t.objs ((maskHalls (parAt t.bytes 8 9)).any s.hallEnding)) &&
  !s.foyer.running.any (fun c => s.mustFollow h op objs c.hdr c.op c.objs true)

/-- What a started command does. -/
inductive CmdOut where
  /-- it completes with a status and a RESULT -/
  | done (s : State) (status : Nat) (result : List (Nat × Nat))
  /-- it goes on -/
  | later (s : State)
  /-- it cannot start yet -/
  | wait

/-- Whether a partition number exists and is not dormant. -/
def State.live (s : State) (p : Nat) : Bool := (s.part? p).any (fun x => !x.dormant)
/-- Why a command is not carried out, by its place (Table 13.4) and its partition: 0 none. `need` is 0 for a command of the device, 1 where a live
partition is named, 2 where TPART may name the device, 3 where TPART is a number that need not be live. (DESIGN CHOICE, unsafe: log 117) -/
def State.cmdBad (s : State) (h : CmdHdr) (perm need : Nat) : Nat :=
  let p := s.cmdPart h
  if !permits perm h.queue then 0x0003
  else if h.queue ≠ 0 ∧ (s.part? p).any (·.ending) then 0x0006
  else if need = 0 then 0
  else if 8 ≤ p ∧ !(need = 2 ∧ p = 255) then 0x0004
  else if need = 3 ∨ p = 255 then 0
  else if s.live p then 0 else 0x0105

/-- Start a command (R340, R342): `body` gets the state with the command in progress, the command, and its partition, 8 for the device. -/
def State.command (s : State) (h : CmdHdr) (op perm need : Nat) (pars : List Par) (body : State → RunCmd → Nat → CmdOut) : Res :=
  if 64 ≤ h.queue then .fault .noSuchUnit
  else if !s.mayStart h op pars then .next s
  else
    let c : RunCmd := ⟨h, op, s.cmdObjs h op (packPars pars), []⟩
    let bad := s.cmdBad h perm need
    let s1 := s.upFoyer (fun x => { x with taken := x.taken.filter (fun t => t.hdr != h), running := x.running ++ [c] })
    if bad ≠ 0 then .next (s1.cmdDone c bad)
    else match body s1 c (min 8 (s.cmdPart h)) with
      | .done s2 st r => .next (s2.cmdDone { c with result := r } st)
      | .later s2 => .next s2
      | .wait => .next s

/-- A command refused with a status. -/
def refuseCmd (s : State) (status : Nat) : CmdOut := .done s status []

/-! Taking packets (R337, R338, R340, R341). -/

/-- The bytes of k slots of queue q's ring from slot count c; none where a line is poisoned. -/
def State.ringSlots (s : State) (q c k : Nat) : State × Option (List Nat) :=
  let n := 2 ^ s.g F.CQ_CFG_LOGSLOTS q
  (List.range (2 * k)).foldl (fun (a : State × Option (List Nat)) (i : Nat) =>
    let line := q % 8 * 2 ^ 14 + (2 * c + i) % (2 * n)
    let r := a.1.readFrame (1 + q / 8) line none false
    match a.2, r.2 with
    | some b, some v => (r.1, if v.poison then none else some (b ++ leBytes 64 v.data.toNat))
    | _, _ => (r.1, none)) (s, some [])
/-- Slots filled and not taken. -/
def State.slotsReady (s : State) (q : Nat) : Nat := sub30 (s.g F.CQ_TAIL_TAIL q) (s.g F.CQ_HEAD_HEAD q)
/-- Whether a queue may give a packet. -/
def State.mayTake (s : State) (q : Nat) : Bool :=
  s.g F.CQ_CFG_VALID q == 1 && s.slotsReady q != 0 && s.g F.CQ_STATUS_STALLED q == 0 && s.g F.CQ_STATUS_RINGERR q == 0 &&
  !s.foyer.closing.contains q && s.cmdRoom q
/-- TAKE_PACKET (R337–R341): the next queue in round-robin order that has a packet gives it. A packet with NSLOT outside 1–8 gives up one slot; one
that TAIL does not cover whole is left. (DESIGN CHOICE, unsafe: log 115) -/
def execTakePacket (s : State) : Res :=
  if !s.ready || s.foyer.stopped then .next s
  else match ((List.range 64).map (fun i => (s.foyer.turn + 1 + i) % 64)).find? (fun q => s.mayTake q) with
    | none => .next s
    | some q =>
      let c := s.g F.CQ_HEAD_HEAD q
      let r := s.ringSlots q c 1
      let b := r.2.getD []
      let ns := parAt b 2 1
      let ok := decide (1 ≤ ns) && decide (ns ≤ 8)
      let n := if ok then ns else 1
      if s.slotsReady q < n then .next s
      else
        let w := r.1.ringSlots q c n
        let all := w.2.getD []
        let s := (w.1.w F.CQ_HEAD_HEAD q 0 (c + n)).upFoyer (fun x => { x with turn := q })
        let h : CmdHdr := ⟨q, parAt b 4 4, parAt b 3 1, parAt b 8 1, c⟩
        let op := parAt b 0 2
        let ps := all.drop 32
        let fail := fun (st : Nat) => (.next (s.cmdDone ⟨h, op, [], []⟩ st) : Res)
        if !ok ∨ w.2.isNone then fail 0x0002
        else match parEnd op ps with
          | none => fail 0x0001
          | some e =>
            if ps.length < e then fail 0x0002
            else if q ≠ 0 ∧ (s.part? (s.cmdPart h)).any (·.ending) then fail 0x0006
            else if op = 0x0402 ∧ 2 < parAt ps 4 1 then fail (if q = 0 then 0x0003 else 0x0004)
            else .next (s.upFoyer (fun x => { x with taken := x.taken ++ [(⟨h, op, ps, s.cmdObjs h op ps⟩ : Taken)] }))

/-! Doorbells (R339): control-space writes of the administrative queue pair. -/

/-- TAIL_DOORBELL. -/
def execTailDoorbell (q v : Nat) (s : State) : Res := if 64 ≤ q then .fault .noSuchUnit else .next (s.setTail q (v % 2 ^ 30))
/-- CHEAD_DOORBELL. -/
def execCheadDoorbell (q v : Nat) (s : State) : Res := if 64 ≤ q then .fault .noSuchUnit else .next (s.setChead q (v % 2 ^ 30))
/-- EHEAD_DOORBELL: `q` is the queue that sends it, which a bad value is charged to. -/
def execEheadDoorbell (q r v : Nat) (s : State) : Res := if 64 ≤ q ∨ 9 ≤ r then .fault .noSuchUnit else .next (s.setEhead q r (v % 2 ^ 30))

/-- NOP_COMMAND. -/
def execNopCommand (h : CmdHdr) (s : State) : Res := s.command h 0x0000 2 0 [] (fun s _ _ => .done s 0 [])

end Sys2Proof.Machine
end

