-- ==== Sys2Proof/Machine/Flash.lean ====
section
/-! DEFINITION. The hold-up check and flash sequences (spec 14, R349–R352, R356, R360). -/

namespace Sys2Proof.Machine

/-! The measurement (R351). -/

/-- ln(a ÷ b) × 10^40 for a > b, from the series of 2 artanh((a − b) ÷ (a + b)). -/
def lnScaled (a b : Nat) : Nat :=
  let z := (a - b) * 10 ^ 40 / (a + b)
  let z2 := z * z / 10 ^ 40
  2 * ((List.range 40).foldl (fun (acc : Nat × Nat) (k : Nat) => (acc.1 + acc.2 / (2 * k + 1), acc.2 * z2 / 10 ^ 40)) (0, z)).1
/-- E in mJ from V1 and V2 in mV; none where the measurement fails: the bank did not reach 49.9 V, V2 ≥ V1, or C lies outside 1–200 mF. With t = 2 ms and
10 Ω, C = 0.2 ÷ ln(V1 ÷ V2) mF and E = 0.1 × (V1² − 20²) ÷ ln(V1 ÷ V2) mJ. (DEDUCED, unsafe: log 133) -/
def holdupMj (reached : Bool) (v1 v2 : Nat) : Option Nat :=
  if !reached ∨ v1 ≤ v2 then none
  else
    let l := lnScaled v1 v2
    if 2 * 10 ^ 39 < l ∨ l < 10 ^ 37 then none else some ((v1 * v1 - 400000000) * 10 ^ 40 / (10 ^ 7 * l))

/-- Whether the MSS serves its interfaces: boot has ended, in the runtime or in recovery. -/
def State.mssOn (s : State) : Bool := s.power.phase == .running || s.power.phase == .recovery

/-! The effect of a sequence on flash and fuses. -/

/-- A sequence's first copy is written. An erased log sector first gives its standing HALL_MARK records new places (R356). (DEDUCED, unsafe: log 135) -/
def State.flashApply (s : State) (op : FlashOp) : State :=
  let m := s.mss
  match op with
  | .logProgram recs => s.upMss (fun m => { m with log := m.log ++ recs })
  | .logErase =>
    let old := m.log.take logSector
    let rest := m.log.drop logSector
    let keep := old.zipIdx.filter (fun (x : LogRec × Nat) => standing s.hallFaults (old.drop (x.2 + 1) ++ rest) x.1)
    let n := s.g F.MB_LOG_NEXT 0
    let again := keep.zipIdx.map (fun (x : (LogRec × Nat) × Nat) => { x.1.1 with seq := (n + x.2) % 2 ^ 32 })
    (s.w F.MB_LOG_NEXT 0 0 ((n + keep.length) % 2 ^ 32)).upMss (fun m => { m with log := rest ++ again })
  | .persist p => s.upMss (fun m => { m with store := p })
  | .record r => s.upMss (fun m => { m with rec_ := r })
  | .slotErase k =>
    match m.update with
    | some u => s.upMss (fun m => m.setSlot u.slot ⟨(m.slot u.slot).bytes.take (65536 * k), false⟩)
    | none => s
  | .slotProgram k =>
    match m.update with
    | some u => s.upMss (fun m => m.setSlot u.slot ⟨(m.slot u.slot).bytes.take (65536 * k) ++ (u.bytes.drop (65536 * k)).take 65536, false⟩)
    | none => s
  | .fuse => s.upMss (fun m => { m with svn := m.svn + 1 })
/-- A sequence that runs when a reset begins completes inside the flash (R376). -/
def State.flashFinish (s : State) : State :=
  match s.mss.seq with
  | some op => if s.mss.copy = 0 then s.flashApply op else s
  | none => s

/-! Updates (R360). -/

/-- The whole slot is verified under R357 (Table 14.10, step 2). -/
def State.updateVerify (s : State) : State :=
  match s.mss.update with
  | none => s
  | some u =>
    let s := s.w F.MB_UPDATE_STATE 0 0 2
    let b := (s.mss.slot u.slot).bytes
    let told := fun (s : State) (r : Nat) => if u.cmd.isNone then s.emit (.mctp 1 0x517 0 [r]) else s
    let ok := imageSound b
    let s := s.upMss (fun m => m.setSlot u.slot ⟨b, ok⟩)
    if !ok then (told s 1).updateFail 0x0702
    else if imgSvn b < s.mss.svn then (told s 1).updateFail 0x0703
    else (told s 0).upMss (fun m => { m with update := some { u with phase := 3 }, pldm := if u.cmd.isNone then 5 else m.pldm })
/-- The update record names the new slot (Table 14.10, step 3). -/
def State.updateDone (s : State) (u : Update) : State :=
  let s := (s.w F.MB_UPDATE_STATE 0 0 3).w F.MB_UPDATE_LAST 0 0 0
  let s := s.upMss (fun m => { m with update := none, pldm := if u.cmd.isNone then 2 else m.pldm })
  let s := s.event none 0x8701 [(u.slot, 1), (imgVersion (s.mss.slot u.slot).bytes, 4)]
  match u.cmd with
  | some c => s.cmdDone c 0
  | none => s.emit (.mctp 1 0x518 0 [0])
/-- What follows the end of a sequence's last copy. -/
def State.flashThen (s : State) (op : FlashOp) : State :=
  match op with
  | .logProgram recs =>
    let s := s.upMss (fun m => { m with logBuf := m.logBuf.filter (fun r => !recs.any (fun x => x.seq == r.seq)) })
    s.w F.MB_LOG_BUF_BUFFERED 0 0 s.mss.logBuf.length
  | .logErase => s
  | .persist p => (s.upMss (fun m => { m with want := if m.want = some p then none else m.want })).w F.MB_STATUS_PERSIST_PENDING 0 0 0
  | .record _ =>
    match s.mss.update with
    | some u =>
      if u.phase = 1 then s.upMss (fun m => { m with update := some { u with phase := 2 } })
      else if u.phase = 3 then s.updateDone u
      else s.upMss (fun m => { m with wantRec := none })
    | none => s.upMss (fun m => { m with wantRec := none })
  | .slotErase _ => s.upMss (fun m => { m with update := m.update.map (fun u => { u with erased := true }) })
  | .slotProgram k =>
    match s.mss.update with
    | some u =>
      let s := (s.w F.MB_UPDATE_KIB 0 0 (64 * (k + 1))).upMss (fun m => { m with update := some { u with sector := k + 1, erased := false } })
      if u.sectors ≤ k + 1 then s.updateVerify else s
    | none => s
  | .fuse =>
    let s := s.mssLog 8 none [(s.mss.svn - 1, 1), (s.mss.svn, 1)]
    s.upMss (fun m => { m with fuseDue := decide (m.svn < imgSvn (m.slot m.booted).bytes) })
/-- FLASH_SEQUENCE_END (R349, R350, R356, R360): the running sequence ends. A mirrored one then wants its second copy. While the module powers down it
only completes (Table 15.3). -/
def execFlashSequenceEnd (s : State) : Res :=
  .next (
    match s.mss.seq with
    | none => s
    | some op =>
      let copy := s.mss.copy
      let s := (if copy = 0 then s.flashApply op else s).upMss (fun m => { m with seq := none, copy := 0 })
      if !s.mssOn then s
      else if op.mirrored ∧ copy = 0 then s.upMss (fun m => { m with second := some op })
      else s.flashThen op)

/-! The check before a sequence (R350, R352). -/

/-- A sequence is refused: what becomes of its data (R352). -/
def State.flashRefused (s : State) (op : FlashOp) : State :=
  if s.mss.update.isSome ∧ s.mss.updateOp = some op then s.updateFail 0x0701
  else match op with
    | .logProgram _ | .logErase => s.upMss (fun m => { m with logWait := true, logBuf := m.logBuf.map (fun r => { r with late := true }) })
    | .persist _ => (s.upMss (fun m => { m with wantWait := true })).w F.MB_STATUS_PERSIST_PENDING 0 0 1
    | .fuse => s.upMss (fun m => { m with fuseDue := false })
    | _ => s
/-- Log a measurement as HOLDUP: every refusal and failure, and one an hour otherwise (Table 14.6). -/
def State.holdupLog (s : State) (e kind result : Nat) : State :=
  if result ≠ 0 ∨ s.mss.lastLog.all (fun t => decide (t + 3600000000000 ≤ s.now)) then
    (s.mssLog 2 none [(e, 4), (kind, 1), (result, 1)]).upMss (fun m => { m with lastLog := some s.now })
  else s
/-- Record a measurement (MB.HOLDUP, sensor 193). -/
def State.holdupShow (s : State) (e : Option Nat) : State :=
  let v := e.getD 0
  let s := s.wreg R.MB_HOLDUP 0 0 (setFields 0 [(F.MB_HOLDUP_EMJ, min 1048575 v), (F.MB_HOLDUP_VALID, 1), (F.MB_HOLDUP_FAILED, if e.isNone then 1 else 0)])
  (s.upMss (fun m => { m with lastMeas := s.now })).sensorRead 193 v
/-- Whether a sequence appends to the log. -/
def FlashOp.isLog : FlashOp → Bool
  | .logProgram _ => true
  | _ => false
/-- A sequence f whose energy is there starts; a pending LOG_GAP record precedes a log sequence (R352). -/
def State.flashStart (s : State) (f : FlashOp) : State :=
  let n := s.mss.gap
  let s := if n != 0 && f.isLog then (s.upMss (fun m => { m with gap := 0 })).mssLog 7 none [(n, 4)] else s
  s.upMss (fun m => { m with seq := some f, copy := if m.second = some f then 1 else 0, second := if m.second = some f then none else m.second })
/-- A sequence f of kind `op` is refused for want of energy (R351); `failed` says that the measurement failed. -/
def State.flashDenied (s : State) (f : FlashOp) (v op : Nat) (failed : Bool) : State :=
  (((s.inc F.MB_HOLDUP_REF_COUNT 0 0 1).w F.MB_ALERT_HOLDUP 0 0 1).holdupLog v op (if failed then 2 else 1)).flashRefused f
/-- After a measurement E: the next sequence of kind `op` that the MSS wants starts at once if E is enough, and is refused otherwise (R350, R351). -/
def State.flashTry (s : State) (e : Option Nat) (op : Nat) : State :=
  match s.mss.wanted.find? (fun f => f.kind == op) with
  | none => s.holdupLog (e.getD 0) 0 (if e.isNone then 2 else 0)
  | some f => if e.isSome ∧ needMj op ≤ e.getD 0 then (s.holdupLog (e.getD 0) op 0).flashStart f else s.flashDenied f (e.getD 0) op e.isNone
/-- HOLDUP_MEASURE (R350, R351): the bank is measured, `op` for a sequence of that kind (1 erase, 2 program, 3 fuse) or 0 for none. The next sequence of
the kind that the MSS wants starts at once if E is enough, and is refused otherwise. -/
def execHoldupMeasure (reached : Bool) (v1 v2 op : Nat) (s : State) : Res :=
  .next (if !s.mssOn ∨ s.mss.seq.isSome then s else (s.holdupShow (holdupMj reached v1 v2)).flashTry (holdupMj reached v1 v2) op)
/-- LOG_RETRY (R243, R352, R356): every 10 s, held log and persistent-store records are wanted again. -/
def execLogRetry (s : State) : Res := .next (if s.mssOn then s.upMss (fun m => { m with logWait := false, wantWait := false }) else s)

end Sys2Proof.Machine
end

