-- ==== Sys2Proof/Machine/QueueCmds.lean ====
section
/-! DEFINITION. Commands on queues, queue pairs, event rings, regions and host buffers (spec 13_command_interface.md, R336, R341, R342, R346, Table 13.4;
spec 12, R319, R320, R323). -/

namespace Sys2Proof.Machine

/-- A host buffer that a command of partition p may name (8 is the device): its own; from queue 0, any registered one. -/
def State.buf? (s : State) (q p hb : Nat) : Option HostBuf := (Sparse.find? s.foyer.hostbufs hb).filter (fun b => b.part == p || q == 0)
/-- Register a region in the lowest free slot: its R_Key, and the state. (DESIGN CHOICE, unsafe: log 118) -/
def State.regionAdd (s : State) (r : Region_) : Option (Nat × State) :=
  match Sparse.lowestFree s.foyer.regions 16384 with
  | none => none
  | some k =>
    let g := Sparse.get 0 s.foyer.generations k + 1
    some (g % 2 ^ 18 * 2 ^ 14 + k, s.upFoyer (fun x => { x with regions := Sparse.insert x.regions k r, generations := Sparse.put 0 x.generations k g }))
/-- The region an R_Key names. -/
def State.region? (s : State) (rkey : Nat) : Option Region_ :=
  if rkey / 2 ^ 14 = Sparse.get 0 s.foyer.generations (rkey % 2 ^ 14) % 2 ^ 18 then Sparse.find? s.foyer.regions (rkey % 2 ^ 14) else none
/-- Queues of a partition. -/
def State.queuesOf (s : State) (p : Nat) : List Nat := (List.range 64).filter (fun q => q != 0 && s.g F.CQ_CFG_VALID q == 1 && s.g F.CQ_CFG_PART q == p)

/-- QUEUE_CREATE (R336, R341). (DESIGN CHOICE, unsafe: log 119) -/
def execQueueCreate (h : CmdHdr) (queue logslots cring : Nat) (s : State) : Res :=
  s.command h 0x0002 0 1 [par 1 queue, par 1 logslots, par 2 cring] (fun s _ p =>
    if queue = 0 ∨ 63 < queue ∨ logslots < 6 ∨ 13 < logslots ∨ s.g F.CQ_CFG_VALID queue = 1 then refuseCmd s 0x0004
    else if 8 ≤ (s.queuesOf p).length then refuseCmd s 0x0005
    else match s.buf? 0 p cring with
      | none => refuseCmd s 0x0007
      | some b =>
        let n := b.len / 32
        if b.len % 32 ≠ 0 ∨ n < 64 ∨ 65536 < n ∨ !isPow2 n then refuseCmd s 0x0004
        else match s.regionAdd ⟨p, 3, 2, queue, 0, 128 * 2 ^ logslots⟩ with
          | none => refuseCmd s 0x0005
          | some (k, s) =>
            let s := [R.CQ_TAIL, R.CQ_CHEAD, R.CQ_HEAD, R.CQ_STATUS, R.CQ_DONE].foldl (fun (s : State) (r : Reg) => s.wreg r queue 0 0) s
            let s := s.wreg R.CQ_CFG queue 0 (setFields 0 [(F.CQ_CFG_VALID, 1), (F.CQ_CFG_PART, p), (F.CQ_CFG_LOGSLOTS, logslots), (F.CQ_CFG_CRING, cring)])
            let s := (s.w F.CQ_RKEY_RKEY queue 0 k).upFoyer (fun x => { x with written := Sparse.put 0 x.written queue 0 })
            .done s 0 [(k, 4)])

/-- QUEUE_DESTROY (Tables 13.4 and 13.7): the queue takes no more packets, and goes once its started commands have completed. -/
def execQueueDestroy (h : CmdHdr) (queue : Nat) (s : State) : Res :=
  s.command h 0x0003 0 0 [par 1 queue] (fun s _ _ =>
    if 63 < queue ∨ s.g F.CQ_CFG_VALID queue = 0 then refuseCmd s 0x0007
    else
      let s := s.upFoyer (fun x => { x with closing := if x.closing.contains queue then x.closing else x.closing ++ [queue] })
      .done (if s.foyer.running.any (fun c => c.hdr.queue == queue) then s else s.destroyQueue queue) 0 [])

/-- QP_CREATE (R319): MTU as in Table 12.3. -/
def execQpCreate (h : CmdHdr) (kind queue port gidx retry rnr mtu rqpn spsn rpsn rgid : Nat) (s : State) : Res :=
  s.command h 0x0004 0 1 [par 1 kind, par 1 queue, par 1 port, par 1 gidx, par 1 retry, par 1 rnr, par 2 mtu, par 4 rqpn, par 4 spsn, par 4 rpsn, parL 16 rgid]
    (fun s _ p =>
      let m := match mtu with | 1024 => some 0 | 2048 => some 1 | 4096 => some 2 | _ => none
      if kind = 0 ∨ 2 < kind ∨ port < 32 ∨ 35 < port ∨ 7 < retry ∨ 7 < rnr ∨ 2 ^ 24 ≤ rqpn ∨ 2 ^ 24 ≤ spsn ∨ 2 ^ 24 ≤ rpsn ∨ (kind = 1 ∧ 63 < queue) then refuseCmd s 0x0004
      else match m with
        | none => refuseCmd s 0x0004
        | some m =>
          if kind = 1 ∧ !(s.queuesOf p).contains queue then refuseCmd s 0x0007
          else match Sparse.lowestFree s.foyer.qps 1024 with
            | none => refuseCmd s 0x0005
            | some n =>
              let q := Qp.fresh kind p (if kind = 1 then queue else 0) (port - 32) gidx retry rnr m rqpn rgid rpsn spsn hostRate
              .done (s.upFoyer (fun x => { x with qps := Sparse.insert x.qps n q })) 0 [(n, 4)])

/-- QP_DESTROY: outstanding operations are flushed. The administrative queue pair is the mailbox's, and no command's (R319). -/
def execQpDestroy (h : CmdHdr) (qpn : Nat) (s : State) : Res :=
  s.command h 0x0005 0 0 [par 4 qpn] (fun s _ _ =>
    match s.qp? qpn with
    | none => refuseCmd s 0x0007
    | some q =>
      if q.kind = 0 then refuseCmd s 0x0007
      else .done ((s.qpStop qpn).upFoyer (fun x => { x with qps := Sparse.erase x.qps qpn })) 0 [])

/-- EVRING_SET (R346): the ring of the partition, or of the device. (DESIGN CHOICE, unsafe: log 120) -/
def execEvringSet (h : CmdHdr) (hbuf logrec : Nat) (s : State) : Res :=
  s.command h 0x0006 2 2 [par 2 hbuf, par 1 logrec] (fun s _ p =>
    if logrec < 6 ∨ 16 < logrec then refuseCmd s 0x0004
    else match s.buf? h.queue p hbuf with
      | none => refuseCmd s 0x0007
      | some b =>
        if b.len < 32 * 2 ^ logrec then refuseCmd s 0x0004
        else
          let s := s.wreg R.EV_CFG p 0 (setFields 0 [(F.EV_CFG_VALID, 1), (F.EV_CFG_LOGREC, logrec), (F.EV_CFG_HBUF, hbuf)])
          .done ((s.wreg R.EV_HEAD p 0 0).wreg R.EV_TAIL p 0 0) 0 [])

/-- EVENT_MASK (R342, R346): bit 32 g + n of the mask enables event 0x8000 | g << 8 | n. -/
def execEventMask (h : CmdHdr) (mask : Nat) (s : State) : Res :=
  s.command h 0x0007 2 2 [parL 32 mask] (fun s _ p =>
    .done ((List.range 4).foldl (fun (s : State) (k : Nat) => s.wreg R.EV_MASK p k (BitVec.ofNat 64 (mask / 2 ^ (64 * k)))) s) 0 [])

/-- REGION_REG (R320, Table 13.4). (DESIGN CHOICE, unsafe: log 121) -/
def execRegionReg (h : CmdHdr) (kind access tile base len : Nat) (s : State) : Res :=
  s.command h 0x0303 2 2 [par 1 kind, par 1 access, par 2 tile, par 8 base, par 8 len] (fun s _ p =>
    let add := fun (r : Region_) => match s.regionAdd r with | some (k, s) => CmdOut.done s 0 [(k, 4)] | none => refuseCmd s 0x0005
    if 3 < access ∨ 2 < kind then refuseCmd s 0x0004
    else match kind with
      | 2 =>
        if h.queue ≠ 0 then refuseCmd s 0x0003
        else if 0x0A000000 < base + len ∨ base % 8 ≠ 0 ∨ len % 8 ≠ 0 then refuseCmd s 0x0004 else add ⟨8, 2, access, 0, base, len⟩
      | 1 =>
        if p = 8 then refuseCmd s 0x0004
        else if s.tileCount p ≤ tile ∨ base % 16 ≠ 0 ∨ len % 192 ≠ 0 ∨ padWords < base + len / 12 then refuseCmd s 0x0004 else add ⟨p, 1, access, tile, base, len⟩
      | _ =>
        if p = 8 ∨ 2 ^ 42 < base + len then refuseCmd s 0x0004
        else if len ≠ 0 ∧ !s.pagesOwned p base len false then refuseCmd s 0x0304 else add ⟨p, 0, access, 0, base, len⟩)

/-- REGION_DEREG: later requests are refused. The ring of a queue is deregistered with its queue. -/
def execRegionDereg (h : CmdHdr) (rkey : Nat) (s : State) : Res :=
  s.command h 0x0304 2 2 [par 4 rkey] (fun s _ p =>
    match s.region? rkey with
    | some r => if (h.queue = 0 ∨ r.part = p) ∧ r.kind ≠ 3 then .done (s.upFoyer (fun x => { x with regions := Sparse.erase x.regions (rkey % 2 ^ 14) })) 0 [] else refuseCmd s 0x0007
    | none => refuseCmd s 0x0007)

/-- HOSTBUF_REG (R323): on a partition's queue the queue pair must be a data queue pair of the partition. Completions that waited for a completion ring
follow. -/
def execHostbufReg (h : CmdHdr) (qpn rkey raddr len : Nat) (s : State) : Res :=
  s.command h 0x0305 2 2 [par 4 qpn, par 4 rkey, par 8 raddr, par 8 len] (fun s _ p =>
    match s.qp? qpn with
    | none => refuseCmd s 0x0007
    | some q =>
      if h.queue ≠ 0 ∧ !(q.kind = 2 ∧ q.part = p) then refuseCmd s 0x0004
      else match Sparse.lowestFree s.foyer.hostbufs 4096 with
        | none => refuseCmd s 0x0005
        | some k =>
          let s := s.upFoyer (fun x => { x with hostbufs := Sparse.insert x.hostbufs k ⟨p, qpn, rkey, raddr, len⟩ })
          .done (s.drainDone 0 (s.foyer.heldDone.length + 1)) 0 [(k, 2)])

/-- Whether a ring, a snapshot or an output names a host buffer. -/
def State.bufInUse (s : State) (hb : Nat) : Bool :=
  (List.range 64).any (fun q => s.g F.CQ_CFG_VALID q == 1 && s.g F.CQ_CFG_CRING q == hb) ||
  (List.range 9).any (fun r => s.g F.EV_CFG_VALID r == 1 && s.g F.EV_CFG_HBUF r == hb) ||
  s.prot.any (fun x => x.2.bufs.any (fun b => b.1 == hb || b.2 == hb)) || s.hostOut.any (fun x => x.2.hbuf == hb)
/-- HOSTBUF_DEREG. (DESIGN CHOICE, unsafe: log 159) -/
def execHostbufDereg (h : CmdHdr) (hbuf : Nat) (s : State) : Res :=
  s.command h 0x0306 2 2 [par 2 hbuf] (fun s _ p =>
    match Sparse.find? s.foyer.hostbufs hbuf with
    | some b =>
      if h.queue ≠ 0 ∧ b.part ≠ p then refuseCmd s 0x0007
      else if s.bufInUse hbuf then refuseCmd s 0x0305
      else .done (s.upFoyer (fun x => { x with hostbufs := Sparse.erase x.hostbufs hbuf })) 0 []
    | none => refuseCmd s 0x0007)

end Sys2Proof.Machine
end

