-- ==== Sys2Proof/Machine/Partition.lean ====
section
/-! DEFINITION. Partition commands (spec 13_command_interface.md, R342, R343, Table 13.4; spec 01, R25–R28; spec 05, R153–R155; spec 11, R308; spec 14,
R364): creation, release, kill, the clear of their halls, and the groups and shares of a partition. -/

namespace Sys2Proof.Machine

/-! Creation. -/

/-- A partition at creation. -/
def Part.fresh (p : Nat) (halls : List Nat) (quota : Nat) (adopted : Bool) : Part :=
  ⟨p, halls, false, quota, false, false, false, false, [], [], false, none, [], [], none, none, false, adopted, false⟩
/-- The register blocks of partition p at their reset values (R244, R276, R311, R347; chapter 6, "Registers"); those of state protection only at a creation
that adopts nothing (R308). -/
def State.resetPartRegs (s : State) (p : Nat) (sp : Bool) : State :=
  let drop := fun (s : State) (lo n : Nat) => ({ s with regs := Sparse.dropRange s.regs (16 * lo) (16 * (lo + n)) } : State)
  let s := drop (drop (drop s (0x101000 + 0x100 * p) 0x100) (0xA00000 + 0x1000 * p) 0x1000) (0x80000 + 0x100 * p) 0x100
  let s := [R.GMEM_PF_CFG, R.GMEM_PF_PERIOD, R.GMEM_PF_STATE, R.GMEM_PF_DONE].foldl (fun (s : State) (r : Reg) => s.wreg r 0 p r.reset) s
  let s : State := { s with evLost := Sparse.put 0 s.evLost p 0 }
  if sp then drop s (0xE00000 + 0x1000 * p) 0x1000 else s
/-- The state-protection registers of an adopted partition return to their reset values but for SP.COMMIT and the links (R308, R311). -/
def State.resetAdopted (s : State) (p : Nat) : State :=
  [R.SP_CFG, R.SP_CFG2, R.SP_TENS, R.SP_LAG, R.SP_SNAP, R.SP_SNAP_PROG, R.SP_SNAP_COUNT, R.SP_DIGEST, R.SP_DUE].foldl (fun (s : State) (r : Reg) => s.wreg r p 0 r.reset) s
/-- What protection keeps of a partition that ends (R308): tensors, links and snapshot buffers. -/
def Prot.kept (x : Prot) : Prot := { Prot.empty with tensors := x.tensors.map (fun t => { t with catching := false }), bufs := x.bufs, links := x.links }
/-- Put partition p on its halls (R25, R26, R153): every tile has its segments powered and alcove 0 open to its loader. -/
def State.partOn (s : State) (p quota : Nat) (halls : List Nat) (adopted : Bool) : State :=
  let s := if adopted then (s.resetPartRegs p false).resetAdopted p else s.resetPartRegs p true
  let s : State := { s with
    parts := s.parts.filter (fun x => x.num != p) ++ [Part.fresh p halls quota adopted]
    prot := if adopted then Sparse.modify s.prot p Prot.kept else Sparse.erase s.prot p }
  halls.foldl (fun (s : State) (h : Nat) =>
    let s := ((s.resetHall h).w F.PART_OWNER_PART h 0 p).w F.PART_OWNER_OWNED h 0 1
    ((List.range 64).map (64 * h + ·)).foldl (fun (s : State) (n : Nat) => (s.w F.TILE_SEG_ON n 0 255).alcSet n 0 loaderAlcove) s) s
/-- Examine a creation (R27, R28, R308, R343): the status it fails with, 0 when it may proceed, none while it must wait, also for the end of the partition of its own
number whose halls it names. (DESIGN CHOICE, unsafe: log 122) -/
def State.createCheck (s : State) (p adopt : Nat) (halls : List Nat) : Option Nat :=
  let x := s.part? p
  let own := s.partEnding p && halls.any (fun h => s.ownerOf h == some p)
  if !own ∧ x.any (fun y => !y.dormant) then some 0x0103
  else if !own ∧ x.isSome ∧ adopt = 0 then some 0x0104
  else if !own ∧ adopt = 1 ∧ !x.any (fun y => y.halls.length == halls.length) then some 0x0106
  else if halls.any (fun h => s.isFaulty h) then some 0x0102
  else if halls.any (fun h => (s.ownerOf h).isSome && !s.hallEnding h) then some 0x0101
  else if halls.any (fun h => s.hallEnding h) then none
  else some 0
/-- PART_CREATE. -/
def execPartCreate (h : CmdHdr) (adopt quota mask : Nat) (s : State) : Res :=
  s.command h 0x0100 0 3 [par 1 adopt, par 4 quota, parL 9 mask] (fun s c p =>
    let halls := maskHalls mask
    if 1 < adopt ∨ halls.isEmpty then refuseCmd s 0x0004
    else match s.createCheck p adopt halls with
      | some 0 => .done (s.partOn p quota halls (adopt == 1)) 0 []
      | some e => refuseCmd s e
      | none => .later (s.upFoyer (fun x => { x with creations := x.creations ++ [⟨c, adopt, quota, halls⟩] })))
/-- CREATION_AFTER_RELEASE (R27, R340): the waiting creation of partition p is examined again once its halls are free. -/
def execCreationAfterRelease (p : Nat) (s : State) : Res :=
  if 8 ≤ p then .fault .noSuchUnit
  else .next (
    match s.foyer.creations.find? (fun x => x.cmd.hdr.tpart == p) with
    | none => s
    | some x =>
      let drop := s.upFoyer (fun y => { y with creations := y.creations.erase x })
      match s.createCheck p x.adopt x.halls with
      | none => s
      | some 0 => (drop.partOn p x.quota x.halls (x.adopt == 1)).cmdDone x.cmd 0
      | some e => drop.cmdDone x.cmd e)

/-! Release and kill. -/

/-- Pages a partition owns. -/
def State.pagesHeld (s : State) (p : Nat) : List Nat := (s.pageMap.filter (fun (e : Nat × BitVec 64) => Pm.valid e.2 == 1 && Pm.owner e.2 == p)).map (·.1)
/-- Bytes of a capture record (R155). -/
def captureBytes : Nat := 4734976
/-- A word as a capture shows it: nothing is changed by the read. -/
def State.captureWord (s : State) (n a : Nat) : Nat × Bool :=
  if !s.segOn n a then (0, false)
  else match readStored (Sparse.get 0 (s.tile n).mem a) with
    | .clean d | .corrected d => (d, false)
    | .poison | .fresh => (0, true)
/-- Write the capture record of tile n at byte address a (R155). -/
def State.captureTile (s : State) (n a : Nat) : State :=
  let s1 := (List.range (padWords / 16)).foldl (fun (t : State) (g : Nat) => t.writeLines (a + 192 * g) (spLines ((List.range 16).map (fun i => s.captureWord n (16 * g + i))))) s
  let base := 0x1000000 + 0x200000 * (n / 64) + 0x4000 * (n % 64)
  let b := (List.range 2048).flatMap (fun i => leBytes 8 ((s.ctlRead (base + 8 * i)).1.toNat))
  s1.writeLines (a + 12 * padWords) (toLines (b.map (fun x => (x, false))))
/-- Steps 1 and 2 of Table 5.4 on hall h for a capture (R155): issue and engine work stop, and dispatch items are discarded. -/
def State.hallStop (s : State) (h : Nat) : State :=
  let s := ((List.range 64).map (64 * h + ·)).foldl (fun (s : State) (n : Nat) =>
    s.upTile n (fun t => { t with sb := [], instrs := [], drains := [], chain := [], lineResp := [], lineOut := [], winSince := none, signals := 0 })) s
  { s.upHall h (fun x => { x with cells := [], lists := [] }) with
    flying := s.flying.filter (fun y => y.hall != h), waits := s.waits.filter (fun w => w.tile / 64 != h) }
/-- A post-mortem capture (R155): only where its whole range lies in read-write pages of the partition; whether it was made. -/
def State.capture (s : State) (p base : Nat) : State × Bool :=
  let ts := s.tilesOf p
  if base % 64 = 0 ∧ s.pagesOwned p base (captureBytes * ts.length) true then
    (ts.zipIdx.foldl (fun (s : State) (t : Nat × Nat) => s.captureTile t.1 (base + captureBytes * t.2)) ((s.hallsOf p).foldl (fun (s : State) (h : Nat) => s.hallStop h) s), true)
  else (s, false)

/-- The commands of the partition's queues that have not started, and those that act on its tiles, end with ABORTED (R343, steps 1 and 2). (DEDUCED, unsafe: log 116) -/
def State.abortCommands (s : State) (p : Nat) : State :=
  let qs := s.queuesOf p
  let l := s.foyer.taken.filter (fun t => qs.contains t.hdr.queue)
  let s := s.upFoyer (fun x => { x with taken := x.taken.filter (fun t => !qs.contains t.hdr.queue) })
  let s := l.foldl (fun (s : State) (t : Taken) => s.cmdDone ⟨t.hdr, t.op, t.objs, []⟩ 0x0006) s
  let s := match (s.part? p).bind (·.launching) with
    | some c => (s.upPart p (fun x => { x with launching := none })).cmdDone c 0x0006
    | none => s
  match (s.protOf p).restore with
  | some r => (s.upProt p (fun x => { x with restore := none })).cmdDone r.cmd 0x0006
  | none => s
/-- The partition's peer contexts are told of its end and removed (R334). -/
def State.dropPeers (s : State) (p : Nat) : State :=
  let ks := (s.peers.filter (fun x => x.2.lpart == p)).map (·.1)
  let s := ks.foldl (fun (s : State) (k : Nat) => s.sendCtrl k 1 0 0 0 0 0 0) s
  let s : State := { s with
    peers := s.peers.filter (fun x => x.2.lpart != p), peerReads := s.peerReads.filter (fun x => !ks.contains x.ctx)
    groups := s.groups.filter (fun x => x.part != p), shares := s.shares.filter (fun x => !x.parts.contains p) }
  s.w F.SP_LINK_UP p 0 0
/-- Steps 1 to 3 of Table 5.4 on hall h: OWNED clears and CLEARING sets; issue stops, engine work and dispatched items are dropped; modified blocks go to their
frames, others are dropped. What has reached the hall, and banister events on their way to it, end there; events from it go on. (DESIGN CHOICE, unsafe: log 183) -/
def State.hallOff (s : State) (h : Nat) : State :=
  let s := (s.w F.PART_OWNER_OWNED h 0 0).w F.PART_OWNER_CLEARING h 0 1
  let s := ((List.range 64).map (64 * h + ·)).foldl (fun (s : State) (n : Nat) =>
    s.upTile n (fun t => { Tile.free with mem := t.mem, scrubRow := t.scrubRow, scrubStart := t.scrubStart })) s
  let s : State := { s with
    flying := s.flying.filter (fun y => y.hall != h), waits := s.waits.filter (fun w => w.tile / 64 != h)
    ban := s.ban.filter (fun b => b.dst / 64 != h), net := s.net.filter (fun q => !(q.arrived && q.dstHall == h)) }
  let s := s.upHall h (fun x => { x with groups := [], reds := [], pending := [], cells := [], lists := [] })
  ((s.hall h).slots.map (·.1)).foldl (fun (s : State) (k : Nat) => s.evict h k) s
/-- Start a release or kill (R154, R175, R275, R304, R343). -/
def State.beginEnd (s : State) (c : RunCmd) (p : Nat) (kill : Bool) (cap : Option Nat) : State :=
  let halls := s.hallsOf p
  let s := (s.upPart p (fun x => { x with ending := true })).abortCommands p
  let s := (((s.snapFail p 1).catchStop p).digestDrop p (fun _ => true)).dropPeers p
  let r := match cap with | some base => s.capture p base | none => (s, false)
  let s := r.1
  let xp := (halls.map (fun h => s.g F.HALL_XPART_DROP_COUNT h)).sum
  let al := ((s.tilesOf p).map (fun n => s.g F.TILE_ALCOVE_VIOL_COUNT n)).sum
  let s := s.upPart p (fun x => { x with landings := [], rankBits := [], image := none, loaded := false, launched := false })
  let s : State := { s with
    coll := Sparse.erase s.coll p, prefetch := Sparse.erase s.prefetch p
    copies := s.copies.filter (fun x => Pm.owner (s.page x.page) != p) }
  let s := halls.foldl (fun (s : State) (h : Nat) => s.hallOff h) s
  s.upFoyer (fun x => { x with releases := x.releases ++ [⟨p, c, kill, r.2, halls, halls, xp % 2 ^ 32, al % 2 ^ 32, false⟩] })
/-- PART_RELEASE (R154, R343). -/
def execPartRelease (h : CmdHdr) (s : State) : Res :=
  s.command h 0x0101 2 1 [] (fun s c p => .later (s.beginEnd c p false none))
/-- PART_KILL (R155, R343): with CAPTURE 1 a capture at CBASE comes first. -/
def execPartKill (h : CmdHdr) (capture cbase : Nat) (s : State) : Res :=
  s.command h 0x0102 0 1 [par 1 capture, par 8 cbase] (fun s c p =>
    if 1 < capture then refuseCmd s 0x0004 else .later (s.beginEnd c p true (if capture = 1 then some cbase else none)))

/-- The end of a release (R343, R364): the audit is logged, the command completes, and the partition's queues and queue pairs go; a number that still owns
pages is dormant. (DEDUCED, unsafe: log 123) -/
def State.endRelease (s : State) (x : Release) : State :=
  let p := x.part
  let s := s.upFoyer (fun y => { y with releases := y.releases.filter (fun z => z.part != p) })
  let s := s.mssLog 6 (some p) [(x.all.length, 1), (if x.failed then 1 else 0, 1), (x.xpart, 4), (x.alcv, 4)]
  let qs := s.queuesOf p
  let s := s.cmdDone { x.cmd with result := if x.kill then [(if x.captured then 1 else 0, 1)] else [] } 0
  let s := qs.foldl (fun (s : State) (q : Nat) => s.destroyQueue q) s
  let s := ((s.foyer.qps.filter (fun q => q.2.kind != 0 && q.2.part == p)).map (·.1)).foldl (fun (s : State) (n : Nat) => s.qpStop n) s
  let s := s.event (some p) 0x8108 [(if x.kill then 1 else 0, 1), (if x.captured then 1 else 0, 1)]
  let s := s.resetPartRegs p false
  let s := if s.g F.SYNC_CFG_ENABLE 0 = 1 ∧ s.g F.SYNC_CFG_PART 0 = p then s.wreg R.SYNC_CFG 0 0 0 else s
  let dormant := !(s.pagesHeld p).isEmpty
  let s := s.upFoyer (fun y => { y with regions := y.regions.filter (fun r => !(r.2.part == p && r.2.kind == 1)) })
  { s with
    hostOut := Sparse.erase s.hostOut p
    prot := if dormant then s.prot else Sparse.erase s.prot p
    parts := if dormant then s.parts.map (fun y => if y.num = p then { Part.fresh p y.halls y.quota false with dormant := true } else y) else s.parts.filter (fun y => y.num != p) }
/-! Queries, shares and groups. -/

/-- The state code of PART_QUERY. -/
def Part.code (x : Part) : Nat := if x.stopped then 4 else if x.ended then 3 else if x.launched then 2 else if x.loaded then 1 else 0
/-- PART_QUERY. -/
def execPartQuery (h : CmdHdr) (s : State) : Res :=
  s.command h 0x0103 2 1 [] (fun s _ p =>
    .done s 0 [((s.hallsOf p).length, 1), (((s.part? p).map Part.code).getD 0, 1), (s.g F.LAND_NUM_DONE p, 4), ((s.pagesHeld p).length, 4)])

/-- SHARE_OFFER (R148, Table 13.4): agreed once both partitions have offered the same number to each other. (DESIGN CHOICE, unsafe: log 125) -/
def execShareOffer (h : CmdHdr) (share other : Nat) (s : State) : Res :=
  s.command h 0x0104 1 1 [par 2 share, par 1 other] (fun s _ p =>
    if 4096 ≤ share ∨ 8 ≤ other ∨ other = p then refuseCmd s 0x0004
    else if !s.live other then refuseCmd s 0x0105
    else match s.shares.find? (fun x => x.id == share && x.parts.contains p) with
      | some x =>
        if !x.parts.contains other then refuseCmd s 0x0004
        else
          let o := if x.offers.contains p then x.offers else x.offers ++ [p]
          .done { s with shares := s.shares.map (fun y => if y = x then { x with offers := o } else y) } 0 [(if o.contains other then 1 else 0, 1)]
      | none => .done { s with shares := s.shares ++ [⟨share, [p, other], [p]⟩] } 0 [(0, 1)])
/-- SHARE_END (R150). -/
def execShareEnd (h : CmdHdr) (share : Nat) (s : State) : Res :=
  s.command h 0x0105 1 1 [par 2 share] (fun s _ p =>
    if s.shares.any (fun x => x.id == share && x.parts.contains p) then
      .done { s with shares := s.shares.filter (fun x => !(x.id == share && x.parts.contains p)) } 0 []
    else refuseCmd s 0x0007)
/-- PEERGROUP_SET (R148). -/
def execPeergroupSet (h : CmdHdr) (group : Nat) (ctxs : List Nat) (s : State) : Res :=
  s.command h 0x0106 1 1 [par 2 group, par 2 ctxs.length, parList 2 ctxs] (fun s _ p =>
    if 4096 ≤ group ∨ 480 < ctxs.length then refuseCmd s 0x0004
    else if ctxs.any (fun k => !s.peerFor p k) then refuseCmd s 0x0007
    else .done { s with groups := s.groups.filter (fun x => !(x.part == p && x.id == group)) ++ [⟨p, group, ctxs⟩] } 0 [])
/-- Whether the partition has been launched (Table 13.4, "before launch"). -/
def State.launchedP (s : State) (p : Nat) : Bool := (s.part? p).any (·.launched)
/-- LANDGROUP_SET (R186–R188): mode 1 the parent, then the children; mode 2 binds the SYNC logic, and CTX names every other member. (DESIGN CHOICE, unsafe: log 126) -/
def execLandgroupSet (h : CmdHdr) (mode flags rank size : Nat) (ctxs : List Nat) (s : State) : Res :=
  s.command h 0x0107 1 1 [par 1 mode, par 1 flags, par 2 rank, par 2 size, par 2 ctxs.length, parList 2 ctxs] (fun s _ p =>
    let used := if mode = 0 then [] else if mode = 1 ∧ rank = 0 then ctxs.drop 1 else ctxs
    let held := if mode = 1 ∧ rank = 0 then 8192 :: used else used
    let shape := match mode with
      | 0 => true
      | 1 => decide (2 ≤ size) && decide (size ≤ 4096) && decide (rank < size) && ctxs.length == 1 + (landKids rank size).length
      | 2 => decide (2 ≤ size) && decide (size ≤ 16) && decide (rank < size) && ctxs.length == size - 1 && decide (flags < 4)
      | _ => false
    let bound := s.g F.SYNC_CFG_ENABLE 0 == 1
    if s.launchedP p then refuseCmd s 0x0003
    else if !shape then refuseCmd s 0x0004
    else if used.any (fun k => !s.peerFor p k) then refuseCmd s 0x0007
    else if mode = 2 ∧ bound ∧ s.g F.SYNC_CFG_PART 0 ≠ p then refuseCmd s 0x0005
    else
      let s := (s.w F.LAND_CTRL_MODE p 0 mode).upPart p (fun x => { x with groupCtx := held })
      let s := s.wreg R.LAND_GROUP p 0 (setFields 0 [(F.LAND_GROUP_RANK, if mode = 0 then 0 else rank), (F.LAND_GROUP_SIZE, if mode = 0 then 1 else size)])
      let s :=
        if mode = 2 then (s.wreg R.SYNC_CFG 0 0 (setFields 0 [(F.SYNC_CFG_ENABLE, 1), (F.SYNC_CFG_PART, p), (F.SYNC_CFG_FIRST, flags % 2), (F.SYNC_CFG_LAST, flags / 2)])).wreg R.SYNC_COUNT 0 0 0
        else if bound ∧ s.g F.SYNC_CFG_PART 0 = p then s.wreg R.SYNC_CFG 0 0 0 else s
      .done s 0 [])

end Sys2Proof.Machine
end

