-- ==== Sys2Proof/Machine/Launch.lean ====
section
/-! DEFINITION. Images and launch (spec 13_command_interface.md, Table 13.4; R67, R69, R97, R99, R148, R179, R181, R195, R206, R237). The image's own
format is no part of the manual: IMAGE_LOAD's row carries what the bytes decode to. -/

namespace Sys2Proof.Machine

/-- A tile that the image says nothing of. -/
def tileNone (lt : Nat) : TileImage := ⟨lt, 0, 0, 0, 0, 0, 256, [], none, [], [], [], 1008⟩
/-- What an image holds for local tile lt. -/
def imageTile (g : Image) (lt : Nat) : TileImage := (g.tiles.find? (fun t => t.ltile == lt)).getD (tileNone lt)
/-- Whether an image's fields lie outside their ranges. -/
def tileBad (t : TileImage) (count : Nat) : Bool :=
  decide (count ≤ t.ltile) || decide (2 * segWords < t.codeLimit) || decide (t.codeLimit < t.codeBase) || decide (2 * segWords ≤ t.entry) ||
  (t.hen == 1 && decide (segWords < t.htabBase + 128)) || decide (1 < t.hen) || decide (2 ^ 16 ≤ t.htabBase) || decide (t.hbudget < 16) || decide (4096 < t.hbudget) ||
  decide (t.qlimit < 16) || decide (64512 < t.qlimit) || t.words.any (fun w => decide (padWords ≤ w.1) || decide (2 ^ 96 ≤ w.2)) ||
  t.alcoves.any (fun a => a.1 == 0 || decide (15 < a.1))
def imageBad (g : Image) : Bool :=
  g.tiles.any (fun t => tileBad t (64 * g.halls)) || !decide ((g.tiles.map (·.ltile)).Nodup) || g.routers.any (fun r => decide (g.halls ≤ r.lhall)) ||
  !decide ((g.routers.map (·.lhall)).Nodup)

/-! The opens of a launch (R148, R195). -/

/-- Open what is listed, each unless it would be refused: none at the first refusal. -/
def openAll {α : Type} (refused : State → α → Bool) (open_ : State → α → State) : State → List α → Option State
  | s, [] => some s
  | s, d :: l => if refused s d then none else openAll refused open_ (open_ s d) l
/-- The alcoves and channels of tile n: the code region, alcove 0's exchange window, alcoves 1 to 15, inbound channels, outbound channels. -/
def State.launchOpens (s : State) (n : Nat) (t : TileImage) : Option State :=
  let s := (s.w F.SEQ_CODE_BASE n 0 t.codeBase).w F.SEQ_CODE_LIMIT n 0 t.codeLimit
  let s := if s.alcIsOpen n 0 then s.alcShut n 0 else s
  let all := (match t.window with | some w => [(0, alcPack w.1 w.2 0 1 0 2 0 1)] | none => []) ++ t.alcoves
  let a := openAll (fun (s : State) (x : Nat × Nat) => s.alcRefused n x.2) (fun (s : State) (x : Nat × Nat) => s.alcSet n x.1 x.2) s all
  let i := a.bind (fun s => openAll (fun (s : State) (d : Nat) => s.msgRefused n 0 2 d || s.openInBad n d) (fun (s : State) (d : Nat) => s.openIn n d) s t.ins)
  i.bind (fun s => openAll (fun (s : State) (d : Nat) => s.msgRefused n 0 1 d || s.openOutBad n d) (fun (s : State) (d : Nat) => s.openOut n d) s t.outs)
/-- The opens of every tile of a partition, in local order. -/
def State.opensFrom (s : State) (g : Image) : List (Nat × Nat) → Option State
  | [] => some s
  | x :: l => match s.launchOpens x.1 (imageTile g x.2) with | some s => s.opensFrom g l | none => none
def State.imageOpens (s : State) (p : Nat) (g : Image) : Option State := s.opensFrom g (s.tilesOf p).zipIdx

/-- IMAGE_LOAD (R69, R148, R195): the pages are read, the image is checked, and the scratchpads are written. (DESIGN CHOICE, unsafe: log 127) -/
def execImageLoad (h : CmdHdr) (src len : Nat) (img : Option Image) (s : State) : Res :=
  s.command h 0x0200 1 1 [par 8 src, par 8 len] (fun s _ p =>
    if s.launchedP p then refuseCmd s 0x0003
    else if len ≠ 0 ∧ !s.pagesOwned p src len false then refuseCmd s 0x0304
    else
      let a := src / 64 * 64
      let r := s.readLines a ((src + len + 63) / 64 - src / 64)
      match r.2, img with
      | none, _ => .wait
      | some _, none => refuseCmd r.1 0x0201
      | some ls, some g =>
        let s := r.1
        if len = 0 ∨ ls.any (·.poison) ∨ imageBad g then refuseCmd s 0x0201
        else if g.halls ≠ (s.hallsOf p).length then refuseCmd s 0x0203
        else if (s.imageOpens p g).isNone then refuseCmd s 0x0202
        else
          let s := (s.tilesOf p).zipIdx.foldl (fun (s : State) (x : Nat × Nat) =>
            let t := imageTile g x.2
            let s := t.words.foldl (fun (s : State) (w : Nat × Nat) => s.writeWord x.1 w.1 w.2 false) s
            let s := ((s.w F.SEQ_CODE_BASE x.1 0 t.codeBase).w F.SEQ_CODE_LIMIT x.1 0 t.codeLimit).upTile x.1 (fun y => { y with lines := [] })
            ((s.w F.SEQ_HTAB_BASE x.1 0 t.htabBase).w F.SEQ_HTAB_HEN x.1 0 t.hen).w F.SEQ_HBUDGET_LIMIT x.1 0 t.hbudget) s
          .done (s.upPart p (fun x => { x with image := some g, loaded := true })) 0 [])

/-! Router tables (R179, R181). -/

/-- An image's router tables of local hall i. -/
def imageRouter (g : Image) (i : Nat) : HallImage := (g.routers.find? (fun r => r.lhall == i)).getD ⟨i, [], []⟩
def hallGroup? (r : HallImage) (k : Nat) : Option GroupImage := r.groups.find? (fun x => x.group == k)
/-- The halls that a multicast of group k reaches from hall h, in order of the walk; one with no entry ends the walk there. -/
def mcastWalk (entry : Nat → Option GroupImage) : Nat → List Nat → List Nat
  | 0, _ => []
  | _, [] => []
  | f + 1, h :: l =>
    let next := match entry h with
      | some e => (List.range 5).filterMap (fun k => if e.fwd / 2 ^ k % 2 = 1 then some ((linkHall h k).getD numHalls) else none)
      | none => []
    h :: mcastWalk entry f (l ++ next)
/-- Bits set in a mask. -/
def popCount (m k : Nat) : Nat := ((List.range k).filter (fun i => m / 2 ^ i % 2 == 1)).length
/-- Whether group k of an image is one tree over the partition's halls, with one entry of the same ROOTHALL in each (R179). -/
def imageGroupOk (g : Image) (halls : List Nat) (k : Nat) : Bool :=
  let es := (List.range halls.length).map (fun i => hallGroup? (imageRouter g i) k)
  match es.head?.join with
  | none => false
  | some e0 =>
    let entry := fun (h : Nat) => if halls.contains h then (es[halls.findIdx (· == h)]?).join else none
    let root := halls[e0.rootHall]?.getD numHalls
    let walk := mcastWalk entry 74 [root]
    es.all (fun e => e.any (fun x => x.rootHall == e0.rootHall)) && decide (e0.rootHall < halls.length) &&
    es.zipIdx.all (fun e => e.1.any (fun x => x.root == (e.2 == e0.rootHall))) && walk.all (fun h => halls.contains h) && decide (walk.Nodup) &&
    halls.all (fun h => (entry h).any (fun x => x.deliver % 2 ^ 64 == 0 || walk.contains h)) &&
    (entry root).any (fun x => decide (1 ≤ x.dests) && x.dests == (walk.map (fun h => ((entry h).map (fun y => popCount y.deliver 64)).getD 0)).sum)
/-- Whether the image's group and reduction tables are accepted (R179, R181). -/
def imageTablesOk (g : Image) (halls : List Nat) : Bool :=
  (g.routers.all (fun r => decide ((r.groups.map (·.group)).Nodup) && decide ((r.reds.map (·.1)).Nodup) &&
    r.groups.all (fun x => decide (x.group < 4096)) &&
    r.reds.all (fun x => decide (x.1 < 4096) && decide (1 ≤ x.2.2.1) && decide (x.2.2.1 ≤ 1024) && decide (1 ≤ x.2.2.2) && decide (x.2.2.2 ≤ 64) &&
      decide (x.2.1 + x.2.2.1 * x.2.2.2 ≤ 12288)))) &&
  ((g.routers.flatMap (fun r => r.groups.map (·.group))).eraseDups).all (fun k => imageGroupOk g halls k)
/-- Load the tables of local hall i into hall h's router. -/
def State.loadRouter (s : State) (h : Nat) (r : HallImage) : State :=
  s.upHall h (fun x => { x with
    groups := r.groups.foldl (fun (m : Sparse GroupEntry) (e : GroupImage) => Sparse.insert m e.group ⟨e.rootHall, e.root, e.fwd, BitVec.ofNat 64 e.deliver, e.dests⟩) []
    reds := r.reds.foldl (fun (m : Sparse RedEntry) (e : Nat × Nat × Nat × Nat) => Sparse.insert m e.1 ⟨e.2.1, e.2.2.1, e.2.2.2⟩) [] })

/-! Launch. -/

/-- The handler table of tile n as it stands (R97): an entry in a word that reads poisoned is not valid, and an
uncorrectable error met here counts as a fill's, SRC 6. (DESIGN CHOICE, unsafe: log 129) (DESIGN CHOICE, unsafe: log 180) -/
def State.copyHtab (s : State) (n base : Nat) : State :=
  let r := s.readWords n 6 0 ((List.range 128).map (base + ·))
  let l := r.2.flatMap (fun w => if w.2 then [0, 0] else [w.1 % 2 ^ 48, w.1 / 2 ^ 48])
  r.1.upTile n (fun t => { t with htab := l.zipIdx.foldl (fun (m : Sparse Half) (x : Nat × Nat) => Sparse.put 0 m x.2 (BitVec.ofNat 48 x.1)) [] })
/-- Tile n as a launch leaves it (R67, R97, R107, R206). -/
def State.launchTile (s : State) (n : Nat) (t : TileImage) : State :=
  let s := if t.hen = 1 then s.copyHtab n t.htabBase else s
  let s := s.w F.HALL_QCFG_LIMIT (n / 64) (n % 64) t.qlimit
  s.upTile n (fun x => { x with
    sregs := [], flight := 0, begun := false, stopped := false, lines := [], acc := [], accKind := [], accFree := 0, accExec := 0, hEntries := [], running := none
    main := { Ctx.reset with pc := t.entry, srq := x.main.srq, wait := .run, since := s.now }
    hand := { Ctx.reset with srq := x.hand.srq, wait := if t.hen = 1 then .idle else .off, since := s.now } })
/-- LAUNCH (R67, R148, R179, R181, R195, R237): it completes once every tile has issued its first instruction or has faulted. (DESIGN CHOICE, unsafe: log 128) -/
def execLaunch (h : CmdHdr) (s : State) : Res :=
  s.command h 0x0201 1 1 [] (fun s c p =>
    match s.part? p with
    | none => refuseCmd s 0x0105
    | some x =>
      if x.launched then refuseCmd s 0x0003
      else match x.image with
        | none => refuseCmd s 0x0204
        | some g =>
          if !imageTablesOk g x.halls then refuseCmd s 0x0202
          else match s.imageOpens p g with
            | none => refuseCmd s 0x0202
            | some s =>
              let s := x.halls.zipIdx.foldl (fun (s : State) (e : Nat × Nat) => s.loadRouter e.1 (imageRouter g e.2)) s
              let s := (s.tilesOf p).zipIdx.foldl (fun (s : State) (e : Nat × Nat) => s.launchTile e.1 (imageTile g e.2)) s
              let s := s.upPart p (fun y => { y with launched := true, ended := false, stopped := false, lastAnomaly := none, lost := [], lapped := false, launching := some c })
              .later ((s.pfActivate p 0).checkLaunch p))

end Sys2Proof.Machine
end

