-- ==== Sys2Proof/Machine/Reset.lean ====
section
/-! DEFINITION. Resets and boot (spec 15, R371–R376, Tables 15.2–15.5a; spec 14, R357–R360, Table 14.8; spec 11, R308). -/

namespace Sys2Proof.Machine

/-! What a reset keeps. -/

/-- What flash and fuses keep of the management subsystem (Table 15.4). (DESIGN CHOICE, unsafe: log 138) -/
def Mss.kept (m : Mss) : Mss :=
  { Mss.reset with log := m.log, store := m.store, slotA := m.slotA, slotB := m.slotB, rec_ := m.rec_, svn := m.svn, debugLock := m.debugLock, boots := m.boots }
/-- The number of the next log record, from the log in flash. -/
def Mss.nextSeq (m : Mss) : Nat := match m.log.getLast? with | some r => (r.seq + 1) % 2 ^ 32 | none => 0
/-- Power and pins through a reset: the pins stand as they are. -/
def Power.kept (w : Power) (phase : Phase) (cause : Nat) : Power :=
  { Power.reset with phase := phase, cause := cause, input := w.input, pwren := w.pwren, resetN := w.resetN, refclk := w.refclk, again := w.again, tripped := w.tripped, thrLow := w.thrLow }
/-- The module with everything lost but flash, fuses and pins (R372, R374): a cold reset, or power going down. -/
def State.blank (s : State) (phase : Phase) (cause : Nat) : State :=
  let m := s.mss.kept
  { State.reset with
    pending := s.pending, fresh := s.fresh, out := s.out, mss := m, power := s.power.kept phase cause
    regs := resetRegs.set F.MB_LOG_NEXT 0 0 m.nextSeq }
/-- A cold reset begins (R374): a running flash sequence completes (R376). -/
def State.coldReset (s : State) (cause : Nat) : State := s.flashFinish.blank .reset cause
/-- Power-down begins (R372): a running sequence goes on, on the hold-up bank, and none starts (Table 15.3). (DESIGN CHOICE, unsafe: log 146) -/
def State.powerDown (s : State) : State :=
  let t := s.blank .falling 0
  { t with mss := { t.mss with seq := s.mss.seq, copy := s.mss.copy, update := s.mss.update } }

/-! The warm reset (R308, R375). -/

/-- Registers that persist until a cold reset (R164, R165, R217, R244, R335), and those that survive by R308, Table 1.8 and R387. -/
def keptWarm : List Reg :=
  [R.DEV_HALL_FAULT, R.DEV_HALL_FAULT_HI, R.GMEM_REPAIR, R.HALL_GAL_CE, R.HALL_GAL_UE, R.HALL_GAL_REFETCH, R.HALL_GAL_SCRUB, R.HALL_QPOOL_CE, R.HALL_QPOOL_UE,
   R.TILE_ECC_CE, R.TILE_ECC_UE, R.TILE_SCRUB, R.LINK_FEC_CW, R.LINK_FEC_UNC, R.LINK_FLAPS, R.SP_COMMIT, R.SP_LINK, R.SP_IN_CFG, R.SP_IN_STATE, R.SP_IN_NOTICE, R.SP_IN_DONE, R.CLK_PPS]
/-- Fields of those registers that are no counts and are reset, and the controllers' registers that hold no count (R164, R165, R244). -/
def coolFields : List Fld := [F.TILE_SCRUB_FORCED, F.HALL_GAL_SCRUB_FORCED, F.HALL_GAL_CE_SLICE]
def coolRegs : List Reg := [R.MEMC_STATUS, R.MEMC_UE_FIRST]
/-- What a warm reset leaves of a register's value, by its address: none where it is reset. -/
def staysWarm (a : Nat) (v : BitVec 64) : Option (BitVec 64) :=
  match regAt a with
  | some (r, _, _) =>
    if (r.unit = .memc ∧ !coolRegs.contains r) ∨ keptWarm.contains r then
      let w := coolFields.foldl (fun (v : BitVec 64) f => if f.reg = r then setBitsAt v f.lo f.width 0 else v) v
      if w = r.reset then none else some w
    else none
  | none => none
/-- A warm reset (Table 15.5a): partitions end as dormant, PART_END goes to each UP context, modified blocks are written back, the stacks enter
self-refresh, and all is reset but frames, the page map, what R308 keeps, and the time base. (DEDUCED, unsafe: log 149) -/
def State.warmReset (s : State) (cause : Nat) : State :=
  let s := s.parts.foldl (fun (s : State) (x : Part) => if x.dormant then s else s.dropPeers x.num) s
  let s := (s.halls.map (·.1)).foldl (fun (s : State) (h : Nat) => s.writeBackHall h) s
  let s := s.flashFinish
  let s := (List.range 72).foldl (fun (s : State) (x : Nat) => if s.linkUp x then s.inc F.LINK_FLAPS_COUNT (x / 2) (x % 2) 1 else s) s
  let m := s.mss.kept
  let parts := (s.parts.filter (fun x => !(s.pagesHeld x.num).isEmpty)).map (fun x => { Part.fresh x.num x.halls x.quota false with dormant := true })
  let keep := parts.filterMap (fun x => ((s.protOf x.num).bufs))
  let bufs := s.foyer.hostbufs.filter (fun b => keep.any (fun k => k.1 == b.1 || k.2 == b.1))
  let regs := s.regs.filterMap (fun e => (staysWarm (e.1 / 16) e.2).map (fun v => (e.1, v)))
  let copies := (s.pageMap.filter (fun e => Pm.copyv e.2 == 1)).map (fun e => Pm.copyf e.2)
  let t : State := { State.reset with
    pending := s.pending, fresh := s.fresh, out := s.out, now := s.now, frames := s.frames, retired := s.retired, parts := parts
    regs := (((RegFile.set regs F.CQ_CFG_VALID 0 0 1).set F.CQ_CFG_ADMIN 0 0 1).set F.CQ_CFG_LOGSLOTS 0 0 8).set F.MB_LOG_NEXT 0 0 m.nextSeq
    pageMap := s.pageMap.map (fun e => (e.1, Pm.setCopyv (Pm.setHold e.2 0) 0))
    poolSize := s.poolSize, pool := (s.pool ++ copies).take (max s.pool.length s.poolSize)
    prot := (s.prot.filter (fun x => parts.any (fun y => y.num == x.1))).map (fun x => (x.1, x.2.kept))
    foyer := { Foyer.reset with hostbufs := bufs, stopped := true }
    mss := m
    power := { s.power.kept .reset cause with ppsEdge := s.power.ppsEdge, ppsGood := s.power.ppsGood, slew := s.power.slew, slewTick := s.power.slewTick, rate := s.power.rate, rateAcc := s.power.rateAcc } }
  let t := t.w F.PWR_STATUS_ADDR 0 0 (s.g F.PWR_STATUS_ADDR 0)
  let t := (List.range numHalls).foldl (fun (t : State) (h : Nat) => t.wreg R.HALL_QPOOL_UE h 0 (setFields 0 [(F.HALL_QPOOL_UE_COUNT, s.g F.HALL_QPOOL_UE_COUNT h)])) t
  (List.range 32).foldl (fun (t : State) (k : Nat) => t.w F.MEMC_STATUS_SELFREF k 0 1) t
/-- The warm reset that ActivateFirmware asked for, once no partition exists (R360). -/
def State.activateNow (s : State) : State := if s.mss.activate && !s.anyLive then s.warmReset 4 else s

/-- WARM_RESET (R67, R308, R342, R362, R374, R375): its completion is written, then the reset follows. -/
def execWarmReset (h : CmdHdr) (s : State) : Res :=
  if 64 ≤ h.queue then .fault .noSuchUnit
  else if !s.mayStart h 0x0008 [] then .next s
  else
    let bad := s.cmdBad h 0 0
    let s := s.upFoyer (fun x => { x with taken := x.taken.filter (fun t => t.hdr != h) })
    let s := s.cmdDone ⟨h, 0x0008, [], []⟩ bad
    .next (if bad = 0 then s.warmReset 3 else s)

/-- HALL_CLEAR_DONE (R154, R343, R364): hall h, whose modified blocks are all written back, has been cleared with the counts it reports; wrong ones mark it
faulty. The last hall ends the release, once the other started commands of the partition's queues have completed; with no partition left a
warm reset that ActivateFirmware asked for follows (R360). (DEDUCED, unsafe: log 124) -/
def execHallClearDone (h words lines cells : Nat) (s : State) : Res :=
  if numHalls ≤ h then .fault .noSuchUnit
  else .next (
    match s.foyer.releases.find? (fun x => x.halls.contains h) with
    | none => s
    | some x =>
      let qs := s.queuesOf x.part
      let busy := s.foyer.running.any (fun c => qs.contains c.hdr.queue && c.hdr != x.cmd.hdr)
      if !(s.hall h).slots.isEmpty ∨ (x.halls.length = 1 ∧ busy) then s
      else
        let ok := decide ((words, lines, cells) = clearCounts)
        let s := (s.clearHall h (words, lines, cells)).w F.PART_OWNER_CLEARING h 0 0
        let s := if ok then s else s.markHall h 2 true
        let x' := { x with halls := x.halls.filter (· != h), failed := x.failed || !ok }
        if x'.halls.isEmpty then (s.endRelease x').activateNow
        else s.upFoyer (fun y => { y with releases := y.releases.map (fun z => if z.part = x.part then x' else z) }))

/-! The throttle input (R363, R380). -/

/-- Every hall runs at 600 MHz and CEIL is 24. The report is made once per assertion; one that follows a release within 1 s continues it. -/
def State.throttleOn (s : State) : State :=
  let cont := s.power.thrRelease.any (fun t => decide (s.now ≤ t + 1000000000))
  let s := ((s.w F.MB_PCAP_THROTTLE 0 0 1).w F.MB_PCAP_CEIL 0 0 24).w F.MB_PCAP_ACTIVE 0 0 1
  let s := (List.range numHalls).foldl (fun (s : State) (h : Nat) => ((s.w F.HALL_CLK_FLOOR h 0 1).w F.HALL_CLK_CURRENT h 0 24).showCapped h) s
  let w := s.power
  if cont then { s with power := { w with throttle := some s.now, thrRelease := none } }
  else
    let s : State := { s with power := { w with throttle := some s.now, thrStart := s.now, thrReport := some s.now, thrRelease := none } }
    s.event none 0x8006 [(0, 4)]

/-! Boot (R357–R359). -/

/-- END_OF_RESET (R358, R371, R374, R379, R387): the reset ends. After a power-on or cold reset the time base starts from 0 and MOD_ADDR is sampled. -/
def execEndOfReset (addr : Nat) (s : State) : Res :=
  .next (
    let w := s.power
    if (w.phase ≠ .rising ∧ w.phase ≠ .reset) ∨ !w.refclk then s
    else
      let warm := w.cause = 3 ∨ w.cause = 4
      let s : State := if warm then s else { s with now := 0 }
      let s : State := { s with power := { w with phase := .booting, since := s.now, resetN := true }, foyer := { s.foyer with stopped := false } }
      let s := if warm then s else s.w F.PWR_STATUS_ADDR 0 0 (addr % 8)
      ((s.w F.PWR_RESET_CAUSE 0 0 w.cause).w F.PWR_STATUS_RESET_N 0 0 1).w F.PWR_STATUS_THROTTLE_N 0 0 (if w.thrLow then 0 else 1))

/-- The slot the ROM boots (R358): the slot, none when neither is valid; the update record afterwards; whether the decrement of TRIES was refused; whether
TRIES had run out. -/
def Mss.pick (m : Mss) (e : Nat) : Option Nat × UpdateRec × Bool × Bool :=
  let r := m.rec_
  let want := match r.pending with
    | some p => if r.tries = 0 then (r.active, r, false, true) else if needMj 2 ≤ e then (p, { r with tries := r.tries - 1 }, false, false) else (r.active, r, true, false)
    | none => (r.active, r, false, false)
  let k := want.1
  (if m.slotOk k then some k else if m.slotOk (1 - k) then some (1 - k) else none, want.2)
/-- The measurement blocks of Table 14.9. -/
def Mss.blocks (m : Mss) (k : Nat) : List Nat :=
  let b := (m.slot k).bytes
  let comp := fun (t : Nat) => match (imgComps b).find? (fun c => c.1 == t) with | some c => imgPart b c.2.1 c.2.2.1 | none => []
  let hw := [m.svn, if m.debugLock then 1 else 0, k] ++ leBytes 4 m.boots
  ([Config.maskRom, b.take 4096] ++ ((List.range 5).map (fun t => comp (t + 1))) ++
    [hw ++ List.replicate (64 - hw.length) 0, Config.storeBytes m.store.cap m.store.alertEn m.store.ppsEn m.store.ports]).map Config.sha512
/-- Table 14.8, steps 3 to 6: the stored configuration is loaded, the stacks are trained or leave self-refresh, halls that fail their self-test are marked; step
7, marks and retired frames restored. (DEDUCED, unsafe: log 153) -/
def State.bootUnits (s : State) (warm : Bool) (fails : List Nat) : State :=
  let p := s.mss.store
  let s := ((s.w F.MB_PCAP_CAP 0 0 p.cap).w F.MB_ALERT_ALERT_EN 0 0 p.alertEn).w F.CLK_PPS_EN 0 0 p.ppsEn
  let s := p.ports.foldl (fun (s : State) (x : Nat × BitVec 64) => match regAt x.1 with | some (r, k, i) => s.wreg r k i x.2 | none => s) s
  let s := (List.range 32).foldl (fun (s : State) (m : Nat) => (s.w F.MEMC_STATUS_TRAINED m 0 1).w F.MEMC_STATUS_SELFREF m 0 0) s
  if warm then s
  else
    let marks := marksOf s.mss.log
    let s := (s.w F.DEV_HALL_FAULT_FAULT_LO 0 0 (marks % 2 ^ 64)).w F.DEV_HALL_FAULT_HI_FAULT_HI 0 0 (marks / 2 ^ 64)
    fails.foldl (fun (s : State) (h : Nat) => s.markHall h 1 false) { s with retired := p.retired }
/-- After READY (R358, R360): the booted pending slot becomes ACTIVE, a slot whose tries ran out or whose try was refused is reported, and the fuses
follow the image's security version. -/
def State.bootUpdate (s : State) (k : Nat) (refused spent : Bool) : State :=
  let r := s.mss.rec_
  let s := s.upMss (fun m => { m with
    fuseDue := decide (m.svn < imgSvn (m.slot k).bytes)
    wantRec := if r.pending = some k then some { r with active := k, pending := none, tries := 0 } else if spent then some { r with pending := none } else none })
  let s := if refused then ((s.inc F.MB_HOLDUP_REF_COUNT 0 0 1).w F.MB_ALERT_HOLDUP 0 0 1).event none 0x8702 [(0x0701, 2)] else s
  if spent then (s.w F.MB_ALERT_BOOTFAIL 0 0 1).event none 0x8702 [(0x0702, 2)] else s
/-- BOOT (R223, R243, R335, R349, R357–R360, R366, R376, R380, Table 14.8): the ROM picks and verifies a slot and the module comes to READY, or to recovery
where neither slot is valid. `reached`, `v1` and `v2` are the measurement before TRIES of a pending slot is decremented; `fails` are the halls that fail
their self-test. (DESIGN CHOICE, unsafe: log 147) -/
def execBoot (reached : Bool) (v1 v2 : Nat) (fails : List Nat) (s : State) : Res :=
  if fails.any (fun h => decide (numHalls ≤ h)) then .fault .noSuchUnit
  else .next (
    if s.power.phase ≠ .booting then s
    else
      let warm := s.power.cause = 3 ∨ s.power.cause = 4
      let e := holdupMj reached v1 v2
      let x := s.mss.pick (e.getD 0)
      let s := if s.mss.rec_.pending.isSome ∧ s.mss.rec_.tries ≠ 0 then s.holdupShow e else s
      let s := s.upMss (fun m => { m with rec_ := x.2.1, boots := if warm then m.boots else m.boots + 1 })
      match x.1 with
      | none => { s.w F.MB_STATUS_STATE 0 0 2 with power := { s.power with phase := .recovery } }
      | some k =>
        let s := s.upMss (fun m => { m with booted := k, measures := m.blocks k })
        let s := s.bootUnits warm fails
        let s := ((s.w F.MB_STATUS_STATE 0 0 1).w F.DEV_STATUS_READY 0 0 1).w F.DEV_STATUS_WARM 0 0 (if warm then 1 else 0)
        let s : State := { s with power := { s.power with phase := .running } }
        let s := s.mssLog 1 none [(k, 1), (if warm then 1 else 0, 1), (imgVersion (s.mss.slot k).bytes, 4), ((s.now - s.power.since) / 1000000, 4)]
        let s := s.bootUpdate k x.2.2.1 x.2.2.2
        if s.power.thrLow then s.throttleOn else s)
/-- BOOT_WATCHDOG (R360, R374): a pending slot has not reached READY within 30 s; that is a failed try, and the module is reset. (DEDUCED, unsafe: log 148) -/
def execBootWatchdog (s : State) : Res :=
  .next (
    if s.power.phase ≠ .booting ∨ s.mss.rec_.pending.isNone ∨ s.mss.rec_.tries = 0 ∨ s.now < s.power.since + 30000000000 then s
    else (s.upMss (fun m => { m with rec_ := { m.rec_ with tries := m.rec_.tries - 1 } })).coldReset 2)

end Sys2Proof.Machine
end

