-- ==== Sys2Proof/Machine/Pins.lean ====
section
/-! DEFINITION. Sensors at their periods, the power-cap loop, power, sideband inputs and the test port (spec 14, R353, R363; spec 15, R367–R387; spec 01, R28). -/

namespace Sys2Proof.Machine

/-! Sensors and the power cap. -/

/-- SENSOR_POLL (R353, R354): the MSS reads sensor i, in the sensor's unit. -/
def execSensorPoll (i : Nat) (v : Int) (s : State) : Res :=
  if numSensors ≤ i then .fault .noSuchUnit else .next (if s.mssOn then s.sensorRead i v else s)

/-- TCEIL of hall h after 1 ms (R363). -/
def State.tceilStep (s : State) (h : Nat) : State :=
  if s.g F.MB_SENSOR_VALID 0 h = 0 then s
  else
    let t := sext (s.g F.MB_SENSOR_VALUE 0 h) 32
    let c := s.g F.HALL_TEMP_TCEIL h
    s.w F.HALL_TEMP_TCEIL h 0 (if 100000 ≤ t then max 24 (c - 2) else if t < 98000 then min 72 (c + 1) else c)
/-- CEIL after 1 ms at input power p mW under a cap in W (R363). -/
def ceilStep (held : Bool) (cap : Nat) (p : Int) (c : Nat) : Nat :=
  if held then 24 else if 1000 * (cap : Int) < p then max 24 (c - 2) else if p < 970 * (cap : Int) then min 72 (c + 1) else c
/-- PCAP_TICK (R363, R384): core 1's loop, every 1 ms, on the latest reading of sensor 192. Each owned hall whose ceiling moved runs at its new clock. (DEDUCED, unsafe: log 144) -/
def execPcapTick (s : State) : Res :=
  .next (
    if s.power.phase ≠ .running ∨ s.g F.MB_SENSOR_VALID 0 192 = 0 then s
    else
      let p := sext (s.g F.MB_SENSOR_VALUE 0 192) 32
      let cap := s.g F.MB_PCAP_CAP 0
      let c := s.g F.MB_PCAP_CEIL 0
      let held := s.power.throttle.isSome
      let new := ceilStep held cap p c
      let d := min 65535 (p / 100).toNat
      let ps := (d :: s.mss.powers).take 1000
      let above := decide (1000 * (cap : Int) < p) && c == 24
      let overMs := if above then s.mss.overMs + 1 else 0
      let s := (s.w F.MB_PCAP_CEIL 0 0 new).w F.MB_PCAP_ACTIVE 0 0 (if new < 72 then 1 else 0)
      let s := ((s.w F.MB_POWER_P1MS 0 0 d).w F.MB_POWER_P1S 0 0 (ps.sum / ps.length)).hwm F.MB_POWER_PEAK 0 0 d
      let s := s.upMss (fun m => { m with powers := ps, overMs := overMs })
      let s := if overMs = 100 then (s.w F.MB_PCAP_UNREACH 0 0 1).mssLog 3 none [(cap, 2), (1, 1)] else s
      (List.range numHalls).foldl (fun (s : State) (h : Nat) =>
        let s := (s.tceilStep h).showCapped h
        if (s.ownerOf h).isNone then s
        else s.w F.HALL_CLK_CURRENT h 0 (min (s.g F.HALL_CLK_TARGET h) (min new (s.g F.HALL_TEMP_TCEIL h)))) s)

/-! THROTTLE_N (R363, R379, R380). -/

/-- THROTTLE_ASSERT: a qualified low; ignored until READY. (DEDUCED, unsafe: log 145) -/
def execThrottleAssert (s : State) : Res :=
  .next (
    if s.power.thrLow then s
    else
      let s := ({ s with power := { s.power with thrLow := true } } : State).w F.PWR_STATUS_THROTTLE_N 0 0 0
      if s.ready then s.throttleOn else s)
/-- THROTTLE_RELEASE: a qualified high releases the floor; CEIL then rises. -/
def execThrottleRelease (s : State) : Res :=
  .next (
    if !s.power.thrLow then s
    else
      let s := ({ s with power := { s.power with thrLow := false } } : State).w F.PWR_STATUS_THROTTLE_N 0 0 1
      if s.power.throttle.isNone then s
      else
        let s : State := { s with power := { s.power with throttle := none, thrRelease := some s.now } }
        (List.range numHalls).foldl (fun (s : State) (h : Nat) => s.w F.HALL_CLK_FLOOR h 0 0) (s.w F.MB_PCAP_THROTTLE 0 0 0))
/-- THROTTLE_GLITCH (R379). -/
def execThrottleGlitch (s : State) : Res := .next (if s.mssOn then s.inc F.PWR_GLITCH_THROTTLE 0 0 1 else s)
/-- THROTTLE_REPORT_TIMER (R380): THROTTLE again, 60 s after the report before, while the pin is held. -/
def execThrottleReportTimer (s : State) : Res :=
  .next (
    match s.power.throttle, s.power.thrReport with
    | some _, some t =>
      if s.now < t + 60000000000 then s
      else ({ s with power := { s.power with thrReport := some s.now } } : State).event none 0x8006 [((s.now - s.power.thrStart) / 1000000000, 4)]
    | _, _ => s)

/-! Power (R370–R373). -/

/-- The rails begin to come up (Table 15.2, step 3). -/
def State.powerUp (s : State) : State := { s with power := { s.power with phase := .rising, again := false, cause := 0 } }
/-- MOD_PWREN_ASSERT (R371, R373, R384): power-up starts; during power-down it waits. -/
def execModPwrenAssert (s : State) : Res :=
  .next (
    let w := s.power
    let s : State := { s with power := { w with pwren := true } }
    if w.pwren ∨ !w.input ∨ w.tripped then s
    else match w.phase with
      | .off => s.powerUp
      | .falling => { s with power := { s.power with again := true } }
      | _ => s)
/-- MOD_PWREN_DEASSERT (R370, R372, R373, R376): power-down starts at once, and a trip no longer holds the module off. -/
def execModPwrenDeassert (s : State) : Res :=
  .next (
    let s : State := { s with power := { s.power with pwren := false, again := false, tripped := false } }
    if s.power.phase = .off ∨ s.power.phase = .falling then s else s.powerDown)
/-- INPUT_POWER_LOSS (R351, R369, R370, R372): the regulators drop out. -/
def execInputPowerLoss (s : State) : Res :=
  .next (
    let s : State := { s with power := { s.power with input := false, again := false } }
    if s.power.phase = .off ∨ s.power.phase = .falling then s else s.powerDown)
/-- INPUT_POWER_APPLIED (R367, R370, R371): the bank charges; a MOD_PWREN that is asserted already powers the module up. -/
def execInputPowerApplied (s : State) : Res :=
  .next (
    if s.power.input then s
    else
      let w := s.power
      let s : State := { s with power := { w with input := true, phase := if w.phase = .falling ∧ s.mss.seq.isSome then .falling else .off } }
      if !w.pwren ∨ w.tripped then s
      else if s.power.phase = .off then s.powerUp
      else { s with power := { s.power with again := true } })
/-- POWER_UP_AFTER_POWER_DOWN (R373, Table 15.3): an assertion that waited is acted on once the running flash sequence has ended. -/
def execPowerUpAfterPowerDown (s : State) : Res :=
  .next (if s.power.phase = .falling ∧ s.power.again ∧ s.mss.seq.isNone then s.powerUp else s)
/-- Whether the rails are up or coming up. -/
def State.powered (s : State) : Bool := s.power.phase != .off && s.power.phase != .falling

/-! Resets and the reference clock (R374, R376, R377, R379). -/

/-- MOD_RESET_N_LOW: a qualified low starts a cold reset; while power changes, the reset is folded into it. -/
def execModResetNLow (s : State) : Res :=
  .next (
    let t : State := { s with power := { s.power with resetN := false } }
    if !s.powered ∨ s.power.phase = .rising then t else (t.coldReset 1).w F.PWR_STATUS_RESET_N 0 0 0)
/-- RESET_GLITCH. -/
def execResetGlitch (s : State) : Res := .next (if s.mssOn then s.inc F.PWR_GLITCH_RESET 0 0 1 else s)
/-- REFCLK_LOSS (R377): the module is held in cold reset. -/
def execRefclkLoss (s : State) : Res :=
  .next (
    let t : State := { s with power := { s.power with refclk := false } }
    if !s.powered ∨ s.power.phase = .rising then t else t.coldReset 5)
/-- REFCLK_RESTORED (R377): the clock no longer holds the reset. -/
def execRefclkRestored (s : State) : Res := .next { s with power := { s.power with refclk := true } }

/-! PPS_IN (R378). -/

/-- The offset between the time base and the nearest whole second. -/
def ppsOffset (t : Nat) : Int := let r := t % 1000000000; if r < 500000000 then (r : Int) else (r : Int) - 1000000000
/-- A signed value held in 32 bits, saturating. -/
def sat32 (x : Int) : Nat := ((max (-(2 ^ 31)) (min (2 ^ 31 - 1) x)) % 2 ^ 32).toNat
/-- PPS_EDGE: an edge under 0.5 s after the accepted one before it is counted only. While CLK.PPS.EN is 1 an accepted edge steps the time base forward by 1 µs or
more, or slews it; three edges in a row under 100 ns set LOCKED. (DESIGN CHOICE, unsafe: log 197) -/
def execPpsEdge (s : State) : Res :=
  .next (
    if s.power.phase ≠ .running then s
    else if s.power.ppsEdge.any (fun t => decide (s.now < t + 500000000)) then s.inc F.PWR_GLITCH_PPS 0 0 1
    else if s.g F.CLK_PPS_EN 0 = 0 then { s with power := { s.power with ppsEdge := some s.now } }
    else
      let d := ppsOffset s.now
      let good := if -100 < d ∧ d < 100 then s.power.ppsGood + 1 else 0
      let s := s.w F.CLK_PPS_OFFSET 0 0 (sat32 d)
      let s := if 3 ≤ good then s.w F.CLK_PPS_LOCKED 0 0 1 else s
      if d ≤ -1000 then
        let t := s.now + (-d).toNat
        ({ s with now := t, power := { s.power with ppsEdge := some t, ppsGood := good, slew := 0 } } : State).w F.CLK_PPS_STEPPED 0 0 1
      else { s with power := { s.power with ppsEdge := some s.now, ppsGood := good, slew := -d } })
/-- PPS_GLITCH (R378, R379): an edge too short, or too early, is ignored and counted, whatever EN says. (DESIGN CHOICE, unsafe: log 197) -/
def execPpsGlitch (s : State) : Res := .next (if s.mssOn then s.inc F.PWR_GLITCH_PPS 0 0 1 else s)
/-- PPS_LOST: no accepted edge for 2.5 s while locked. -/
def execPpsLost (s : State) : Res :=
  .next (
    if s.g F.CLK_PPS_LOCKED 0 = 0 ∨ s.power.ppsEdge.any (fun t => decide (s.now < t + 2500000000)) then s
    else
      let s : State := { s with power := { s.power with ppsGood := 0 } }
      (s.w F.CLK_PPS_LOCKED 0 0 0).w F.CLK_PPS_LOST 0 0 1)

/-! The sideband's lines and trips (R379, R384). -/

/-- SMBUS_STUCK (R379): the target releases SDA and resets its interface. (DESIGN CHOICE, unsafe: log 151) -/
def execSmbusStuck (s : State) : Res := .next { s with power := { s.power with smbReset := s.power.smbReset + 1 } }
/-- ENTDAA (R354): the target takes a dynamic address. -/
def execEntdaa (addr : Nat) (s : State) : Res := .next (if s.mssOn ∧ s.mss.dynAddr.isNone then s.upMss (fun m => { m with dynAddr := some (addr % 128) }) else s)
/-- The static address on the sideband (Table 14.4). -/
def State.staticAddr (s : State) : Nat := 0x30 + s.g F.PWR_STATUS_ADDR 0
/-- SETDASA (R354): the static address becomes the dynamic address; a frame for another address is not this target's. -/
def execSetdasa (addr : Nat) (s : State) : Res :=
  .next (if s.mssOn ∧ addr = s.staticAddr ∧ s.mss.dynAddr.isNone then s.upMss (fun m => { m with dynAddr := some addr }) else s)
/-- How long a sensor stands at its limit before an MSS trip. -/
def tripTime (i : Nat) : Nat := if i < 86 then 100000000 else 1000000000
/-- THERM_TRIP (R384): sensor i has stood at its limit for its time. CEIL falls to 24, the record is logged if the measurement lets its sequence start, and the
module powers down, to stay off until MOD_PWREN is deasserted. (DESIGN CHOICE, unsafe: log 150) -/
def execThermTrip (i : Nat) (reached : Bool) (v1 v2 : Nat) (s : State) : Res :=
  if 118 ≤ i then .fault .noSuchUnit
  else .next (
    if !s.mssOn ∨ !(Sparse.find? s.mss.tripSince i).any (fun t => decide (t + tripTime i ≤ s.now)) then s
    else
      let e := (holdupMj reached v1 v2).getD 0
      let s := s.flashFinish
      let s := (s.w F.MB_PCAP_CEIL 0 0 24).mssLog 9 none [(i, 2), (s.g F.MB_SENSOR_VALUE 0 i, 4)]
      let s := if needMj 2 ≤ e then s.upMss (fun m => { m with log := m.log ++ (m.logBuf.getLast?).toList }) else s
      let s := s.upMss (fun m => { m with seq := none })
      { s.powerDown with power := { s.powerDown.power with tripped := true } })
/-- HARDWARE_TRIP (R384): a junction sensor's comparator trips at 115 °C; there is no record. -/
def execHardwareTrip (i : Nat) (s : State) : Res :=
  if 86 ≤ i then .fault .noSuchUnit
  else .next (if !s.powered then s else { s.powerDown with power := { s.powerDown.power with tripped := true } })
/-- HALL_FIELD_FAILURE (R28): hall h is found unresponsive, and is marked. -/
def execHallFieldFailure (h : Nat) (s : State) : Res :=
  if numHalls ≤ h then .fault .noSuchUnit else .next (if s.power.phase ≠ .running ∨ s.isFaulty h then s else s.markHall h 3 true)

/-- ALERT_N is asserted (R366, R381): an enabled cause stands, or the module is in recovery; never while it is unpowered. -/
def State.alerted (s : State) : Bool :=
  s.powered && (s.power.phase == .recovery || (List.range 5).any (fun i => s.g F.MB_ALERT_ALERT_EN 0 / 2 ^ i % 2 == 1 && (s.regs.rd R.MB_ALERT 0).getLsbD i))

/-! The test port (R386). -/

/-- Put an instruction in force: 0 BYPASS, 1 IDCODE, 2 SAMPLE/PRELOAD, 3 EXTEST, 4 EXTEST_PULSE, 5 EXTEST_TRAIN, 6 CLAMP, 7 HIGHZ. -/
def State.tapTo (s : State) (k : Nat) : State := if s.powered then { s with power := { s.power with tap := k } } else s
/-- An instruction that drives the pins is effective only while MOD_RESET_N is qualified low; at other times it acts as BYPASS. -/
def State.tapDrive (s : State) (k : Nat) : State :=
  if s.powered ∧ !s.power.resetN then (s.tapTo k).emit (.drive k s.power.boundary) else s.tapTo 0
/-- IDCODE's value. -/
def idcode : Nat := Config.stepping % 16 * 2 ^ 28 + 0x046085E9
/-- BYPASS. -/
def execBypass (s : State) : Res := .next (s.tapTo 0)
/-- IDCODE: the code is shifted out. -/
def execIdcode (s : State) : Res := .next (if s.powered then (s.tapTo 1).emit (.tdo 32 idcode) else s)
/-- SAMPLE/PRELOAD: the pins' levels, which no rule gives, are captured and shifted out, and the boundary register is loaded. (DESIGN CHOICE, safe: log 152) -/
def execSamplePreload (load : Nat) (s : State) : Res :=
  .next (
    if !s.powered then s
    else
      let u := s.undef
      ({ u.2 with power := { u.2.power with tap := 2, boundary := load } } : State).emit (.tdo 0 u.1))
/-- EXTEST. -/
def execExtest (s : State) : Res := .next (s.tapDrive 3)
/-- EXTEST_PULSE. -/
def execExtestPulse (s : State) : Res := .next (s.tapDrive 4)
/-- EXTEST_TRAIN. -/
def execExtestTrain (s : State) : Res := .next (s.tapDrive 5)
/-- CLAMP. -/
def execClamp (s : State) : Res := .next (s.tapDrive 6)
/-- HIGHZ. -/
def execHighz (s : State) : Res := .next (s.tapDrive 7)

end Sys2Proof.Machine
end

