-- ==== Sys2Proof/Machine/PageCmds.lean ====
section
/-! DEFINITION. Commands on pages, the prefetch schedule, the copy pool and host output (spec 13_command_interface.md, R342, R344, Tables 13.4 and
13.7; spec 08, R221, R222, R236, R240). -/

namespace Sys2Proof.Machine

/-! Pages. -/

/-- The lowest n free frames, from k on; none where there are fewer. -/
def pickFrames (used : List Nat) : Nat → Nat → Option (List Nat)
  | 0, _ => some []
  | n + 1, k =>
    let f := lowestFrom used used.length k
    if f < numFrames then (pickFrames used n (f + 1)).map (f :: ·) else none
/-- Entries of partition p that a cut on its way will map. -/
def State.pagesComing (s : State) (p : Nat) : Nat :=
  ((s.cuts.flatMap (·.pages)).filter (fun (e : Nat × BitVec 64) => Pm.valid e.2 == 1 && Pm.owner e.2 == p && Pm.valid (s.page e.1) == 0)).length
def pageList (page n : Nat) : List Nat := (List.range n).map (page + ·)
/-- Whether a page is mapped for a partition. -/
def State.ownsPage (s : State) (p e : Nat) : Bool := Pm.valid (s.page e) == 1 && Pm.owner (s.page e) == p

/-- PAGE_MAP (R221, R222): the lowest free frames are cleared and mapped by a cut. (DESIGN CHOICE, safe: log 54) (DESIGN CHOICE, unsafe: log 55) -/
def execPageMap (h : CmdHdr) (page n rs : Nat) (s : State) : Res :=
  s.command h 0x0300 2 1 [par 4 page, par 4 n, par 1 rs] (fun s c p =>
    let es := pageList page n
    let quota := ((s.part? p).map (·.quota)).getD 0
    let held := (s.pagesHeld p).length + s.pagesComing p
    if 1 < rs ∨ 2 ^ 19 < page + n then refuseCmd s 0x0004
    else if es.any (fun e => Pm.valid (s.page e) == 1) then refuseCmd s 0x0304
    else if quota ≠ 0 ∧ quota < held + n then refuseCmd s 0x0303
    else match pickFrames s.usedFrames n firstFrame with
      | none => refuseCmd s 0x0302
      | some fs =>
        let s := fs.foldl (fun (s : State) (f : Nat) => s.clearFrame f) s
        let u := s.undef
        let r := if quota = 0 then (u.1 % 2 ^ 32, u.2) else (quota - (held + n), s)
        if n = 0 then .done r.2 0 [(r.1, 4)]
        else .later { r.2 with cuts := r.2.cuts ++ [(⟨(es.zip fs).map (fun e => (e.1, Pm.mk p e.2 rs)), some { c with result := [(r.1, 4)] }⟩ : Cut)] })

/-- Byte ranges of partition p that registered objects lie in (Table 13.7): regions, the output region, the plan's areas, shard slots, protected tensors, link areas and
the prefetch schedule. -/
def State.busyRanges (s : State) (p : Nat) : List (Nat × Nat) :=
  let co := s.collOf p
  let plan := if s.g F.COLL_PLAN_VALID p = 1 then
      [(s.g F.COLL_PLAN_BTAB p, 64 * co.plan.length), (s.g F.COLL_CAREA_CBASE p, s.g F.COLL_CLIMIT_CLIMIT p - s.g F.COLL_CAREA_CBASE p),
       (s.g F.COLL_RAREA_RBASE p, 2 * s.g F.COLL_RHALF_RHALF p)] else []
  let links := (List.range 2).flatMap (fun k => if s.g F.SP_IN_CFG_VALID p k = 1 then
      [(s.g F.SP_IN_CFG_LBASE p k, s.g F.SP_IN_CFG_LSTEPS p k * (s.g F.COLL_RHALF_RHALF p + 256)), (s.g F.SP_IN_DONE_DONE p k, 192)] ++
      (match s.inLink? p k with | some x => [(x.shpage * 2 ^ 23, x.shn * 2 ^ 23)] | none => []) else [])
  ((s.foyer.regions.filter (fun r => r.2.kind == 0 && r.2.part == p)).map (fun r => (r.2.base, r.2.len))) ++
  (match Sparse.find? s.hostOut p with | some o => [(o.obase, o.olen)] | none => []) ++ plan ++
  co.shards.flatMap (fun x => let k := x.2.elems * fmtBytes x.2.fmt; [(x.2.slot0, k), (x.2.slot1, k)]) ++
  (s.protOf p).tensors.map (fun t => (t.page * 2 ^ 23, t.npages * 2 ^ 23)) ++ links ++
  [(s.g F.GMEM_PF_CFG_SBASE 0 p, 32 * s.g F.GMEM_PF_CFG_NENT 0 p)]
/-- Whether a registered object lies on page e. -/
def State.pageBusy (s : State) (p e : Nat) : Bool := (s.busyRanges p).any (fun r => overlaps r.1 (r.1 + r.2) (e * 2 ^ 23) ((e + 1) * 2 ^ 23))

/-- PAGE_FREE (R222, Table 13.7). ALL 1 on queue 0 frees every page of TPART and ends its dormancy (R308), with what was kept for an adoption. (DESIGN CHOICE, unsafe: log 56) -/
def execPageFree (h : CmdHdr) (page n all : Nat) (s : State) : Res :=
  s.command h 0x0301 2 (if all = 1 ∧ h.queue = 0 then 3 else 1) [par 4 page, par 4 n, par 1 all] (fun s c p =>
    let es := if all = 1 then s.pagesHeld p else pageList page n
    let free := fun (s : State) => if es.isEmpty then CmdOut.done s 0 [] else CmdOut.later { s with cuts := s.cuts ++ [(⟨es.map (fun e => (e, 0)), some c⟩ : Cut)] }
    if 1 < all ∨ (all = 0 ∧ 2 ^ 19 < page + n) then refuseCmd s 0x0004
    else if all = 1 ∧ h.queue ≠ 0 then refuseCmd s 0x0003
    else match s.part? p with
      | none => refuseCmd s 0x0105
      | some x =>
        if es.any (fun e => !s.ownsPage p e) then refuseCmd s 0x0304
        else if !x.dormant ∧ es.any (fun e => s.pageBusy p e) then refuseCmd s 0x0305
        else if x.dormant then
          free ({ s with parts := s.parts.filter (fun y => y.num != p), prot := Sparse.erase s.prot p
                         foyer := { s.foyer with regions := s.foyer.regions.filter (fun r => !(r.2.part == p && r.2.kind == 0)) } })
        else free s)

/-- PAGE_ATTR (R222, Table 13.7): waits while a page is held, under repair or being copied. (DESIGN CHOICE, unsafe: log 184) -/
def execPageAttr (h : CmdHdr) (page n rs : Nat) (s : State) : Res :=
  s.command h 0x0302 2 1 [par 4 page, par 4 n, par 1 rs] (fun s c p =>
    let es := pageList page n
    if 1 < rs ∨ 2 ^ 19 < page + n then refuseCmd s 0x0004
    else if es.any (fun e => !s.ownsPage p e) then refuseCmd s 0x0304
    else if es.any (fun e => Pm.hold (s.page e) == 1 || s.repairs.any (fun r => r.page == e) || s.copies.any (fun r => r.page == e)) then .wait
    else if n = 0 then .done s 0 []
    else .later { s with cuts := s.cuts ++ [(⟨es.map (fun e => (e, Pm.setRs (s.page e) rs)), some c⟩ : Cut)] })

/-! Prefetch (R236). -/

/-- An entry from its 32 bytes (Table 8.6). -/
def pfEntryOf (x : Nat) : PfEntry := ⟨fld x 0 32, fld x 32 26, fld x 64 12, fld x 76 2, fld x 96 72⟩
/-- The FLIGHT values ascend. -/
def ascends : List Nat → Bool
  | a :: b :: l => decide (a ≤ b) && ascends (b :: l)
  | _ => true
/-- Whether a schedule is refused. (DESIGN CHOICE, unsafe: log 52) -/
def pfBad (l : List PfEntry) (period halls : Nat) : Bool :=
  !ascends (l.map (·.flight)) || (period != 0 && l.any (fun e => decide (period ≤ e.flight))) || l.any (fun e => e.nblk == 0 || e.op == 3 || e.halls == 0 || decide (2 ^ halls ≤ e.halls))
/-- PREFETCH_SET: the schedule replaces the one before, whose blocks are no longer MOVING; it restarts at the next landing completion. (DESIGN CHOICE, unsafe: log 53) -/
def execPrefetchSet (h : CmdHdr) (nent period ahead sbase : Nat) (s : State) : Res :=
  s.command h 0x0307 1 1 [par 4 nent, par 4 period, par 1 ahead, par 8 sbase] (fun s _ p =>
    if 65536 < nent ∨ 15 < ahead ∨ sbase % 64 ≠ 0 then refuseCmd s 0x0004
    else if nent ≠ 0 ∧ !s.pagesOwned p sbase (32 * nent) false then refuseCmd s 0x0304
    else
      let r := s.readLines sbase ((nent + 1) / 2)
      match r.2 with
      | none => .wait
      | some ls =>
        let s := r.1
        let es := (ls.flatMap (fun v => [v.data.toNat % 2 ^ 256, v.data.toNat / 2 ^ 256])).take nent |>.map pfEntryOf
        if ls.any (·.poison) ∨ pfBad es period (s.hallsOf p).length then refuseCmd s 0x0306
        else
          let s := (s.hallsOf p).foldl (fun (s : State) (k : Nat) => s.upHall k (fun x => { x with slots := x.slots.map (fun e =>
            if e.2.state = .moving then (e.1, { e.2 with state := if e.2.dirty.isEmpty then .clean else .modified }) else e) })) s
          let s := (((s.w F.GMEM_PF_CFG_SBASE 0 p sbase).w F.GMEM_PF_CFG_AHEAD 0 p ahead).w F.GMEM_PF_CFG_NENT 0 p nent).w F.GMEM_PF_PERIOD_PERIOD 0 p period
          .done ((s.upPf p (fun _ => ⟨es, 0, 0, []⟩)).pfShow p) 0 [])

/-! The copy pool (R240). -/

/-- COPYPOOL_SET: the pool takes free frames, or gives frames up; a frame that holds a copy goes when its page has been sent. (DESIGN CHOICE, unsafe: log 57) -/
def execCopypoolSet (h : CmdHdr) (frames : Nat) (s : State) : Res :=
  s.command h 0x0308 0 0 [par 4 frames] (fun s _ _ =>
    let used := (s.pageMap.filter (fun (x : Nat × BitVec 64) => Pm.copyv x.2 == 1)).length
    let have_ := s.pool.length + used
    match pickFrames s.usedFrames (frames - have_) firstFrame with
    | none => refuseCmd s 0x0302
    | some fs => .done { s with poolSize := frames, pool := (s.pool ++ fs).take (frames - min used frames) } 0 [])

/-! Host output (R344). -/

/-- OUTPUT_SET. -/
def execOutputSet (h : CmdHdr) (hbuf obase olen : Nat) (s : State) : Res :=
  s.command h 0x0202 1 1 [par 2 hbuf, par 8 obase, par 8 olen] (fun s _ p =>
    match s.buf? h.queue p hbuf with
    | none => refuseCmd s 0x0007
    | some b =>
      if obase % 64 ≠ 0 ∨ olen % 64 ≠ 0 ∨ b.len < olen then refuseCmd s 0x0004
      else if olen ≠ 0 ∧ !s.pagesOwned p obase olen true then refuseCmd s 0x0304
      else .done { s with hostOut := Sparse.insert s.hostOut p ⟨hbuf, obase, olen, []⟩ } 0 [])
/-- OUTPUT_LINE_COPY (R344): the oldest acknowledged line of partition p's output region is copied to the host buffer, in the order of acknowledgement; a poisoned
line is not copied. (DEDUCED, unsafe: log 58) -/
def execOutputLineCopy (p : Nat) (s : State) : Res :=
  if 8 ≤ p then .fault .noSuchUnit
  else .next (
    match Sparse.find? s.hostOut p with
    | none => s
    | some o =>
      match o.queue with
      | [] => s
      | a :: rest =>
        let h := s.holdRead p (2 ^ 50) a 64
        let r := if h.2 then (h.1, none) else s.readLine a
        match r.2 with
        | none => r.1
        | some v =>
          let s : State := { r.1 with hostOut := Sparse.modify r.1.hostOut p (fun o => { o with queue := rest }) }
          if v.poison then s else s.hostOp o.hbuf 64 (.hostWrite o.hbuf (a - o.obase) (leBytes 64 v.data.toNat)) (.output p))

end Sys2Proof.Machine
end

