-- ==== Sys2Proof/Machine/PeerCmds.lean ====
section
/-! DEFINITION. Command groups 4 (spec 13, Table 13.4): peer contexts and their keys (R325, R332, R334), the collective group and plan (R245–R251, R263–R266)
and registered shards (R267). -/

namespace Sys2Proof.Machine

/-! Peer contexts. -/

/-- A context as it is registered: UP, every sequence at 0. -/
def PeerCtx.fresh (lpart raddr rport rctx spray pmax : Nat) (enc : Bool) (now : Nat) : PeerCtx :=
  ⟨lpart, raddr, rport, rctx, spray, pmax, enc, true, [], 0, [], [], [], [], 0, [], [], [], [], [], 0, 0, now, none, [], 0, []⟩

/-- PEER_ADD (R325): a context of the partition that is down is registered anew; one that is UP may not be. (DESIGN CHOICE, unsafe: log 92) -/
def execPeerAdd (h : CmdHdr) (ctx rport rctx pmax enc spray raddr : Nat) (s : State) : Res :=
  s.command h 0x0400 1 1 [par 2 ctx, par 2 rport, par 2 rctx, par 2 pmax, par 1 enc, par 8 spray, parL 16 raddr] (fun s _ p =>
    let old := s.peer? ctx
    if 8192 ≤ ctx ∨ 8192 ≤ rctx ∨ [1024, 2048, 4096].contains pmax = false ∨ 1 < enc then refuseCmd s 0x0004
    else if old.any (fun c => c.lpart != p) then refuseCmd s 0x0005
    else if old.any (fun c => c.up) then refuseCmd s 0x0004
    else
      let c := PeerCtx.fresh p raddr rport rctx (spray % 2 ^ 64) pmax (enc == 1) s.now
      let c : PeerCtx := { c with emptyAt := if (s.peerLinks c).isEmpty then some s.now else none }
      .done { s with peers := Sparse.insert s.peers ctx c } 0 [])

/-- Whether a context is registered for partition p. -/
def State.hasPeer (s : State) (p ctx : Nat) : Bool := (s.peer? ctx).any (fun c => c.lpart == p)
/-- PEER_REMOVE (R334): the context goes down, and its number is free. -/
def execPeerRemove (h : CmdHdr) (ctx : Nat) (s : State) : Res :=
  s.command h 0x0401 1 1 [par 2 ctx] (fun s _ p =>
    if !s.hasPeer p ctx then refuseCmd s 0x0007
    else let s := s.peerDown ctx 4; .done { s with peers := Sparse.erase s.peers ctx } 0 [])

/-- The parameters of PEER_KEY. -/
def keyPars (ctx slot dir act salt key : Nat) : List Par := [par 2 ctx, par 1 slot, par 1 dir, par 1 act, par 4 salt, parL 32 key]
/-- What the three forms check alike. -/
def State.keyBad (s : State) (p ctx slot dir : Nat) : Nat := if 1 < slot ∨ 1 < dir then 0x0004 else if s.hasPeer p ctx then 0 else 0x0007
/-- A key slot with one direction set. -/
def KeySlot.setDir (k : KeySlot) (dir : Nat) (v : Option (Nat × Nat)) : KeySlot := if dir = 0 then { k with tx := v } else { k with rx := v }
/-- Set one direction of a context's key slot. -/
def State.setKey (s : State) (ctx slot dir : Nat) (v : Option (Nat × Nat)) : State :=
  s.upPeer ctx (fun c => { c with keys := Sparse.insert c.keys slot ((Sparse.get ⟨none, none⟩ c.keys slot).setDir dir v) })
/-- PEER_KEY with ACT 0 (R332): the slot holds the key and salt for the direction. -/
def execPeerKeyWrite (h : CmdHdr) (ctx slot dir salt key : Nat) (s : State) : Res :=
  s.command h 0x0402 1 1 (keyPars ctx slot dir 0 salt key) (fun s _ p =>
    let bad := s.keyBad p ctx slot dir
    if bad ≠ 0 then refuseCmd s bad
    else .done ((s.setKey ctx slot dir (some (key, salt))).peerPump ctx (((s.peer? ctx).map (·.unacked.length)).getD 0 + 1)) 0 [])
/-- PEER_KEY with ACT 1 (R332): sending switches to the slot; its own end must hold the key. DIR and the key are not used. (DESIGN CHOICE, unsafe: log 93) -/
def execPeerKeySend (h : CmdHdr) (ctx slot dir salt key : Nat) (s : State) : Res :=
  s.command h 0x0402 1 1 (keyPars ctx slot dir 1 salt key) (fun s _ p =>
    let bad := s.keyBad p ctx slot dir
    if bad ≠ 0 then refuseCmd s bad
    else if (s.peer? ctx).any (fun c => (c.txKey slot).isNone) then refuseCmd s 0x0004
    else .done ((s.upPeer ctx (fun c => { c with keyid := slot })).peerPump ctx (((s.peer? ctx).map (·.unacked.length)).getD 0 + 1)) 0 [])
/-- PEER_KEY with ACT 2 (R332): the direction's key of the slot is retired. -/
def execPeerKeyRetire (h : CmdHdr) (ctx slot dir salt key : Nat) (s : State) : Res :=
  s.command h 0x0402 1 1 (keyPars ctx slot dir 2 salt key) (fun s _ p =>
    let bad := s.keyBad p ctx slot dir
    if bad ≠ 0 then refuseCmd s bad else .done (s.setKey ctx slot dir none) 0 [])

/-! The collective group (R246). -/

/-- The contexts a group needs: one for each other rank of the node, and PREV and NEXT with more than one node. -/
def groupNeeds (rank size node prev next : Nat) (ctxs : List Nat) : List Nat :=
  ((List.range node).filter (fun i => i != rank % node)).map (fun i => ctxs[i]?.getD 8192) ++ (if node < size then [prev, next] else [])
/-- COLL_GROUP (R246): CTX[i] is the context of node rank i. -/
def execCollGroup (h : CmdHdr) (rank size node prev next : Nat) (ctxs : List Nat) (s : State) : Res :=
  s.command h 0x0403 1 1 [par 2 rank, par 2 size, par 1 node, par 2 prev, par 2 next, parList 2 ctxs] (fun s _ p =>
    if size = 0 ∨ 4096 < size ∨ node = 0 ∨ 16 < node ∨ size % node ≠ 0 ∨ size ≤ rank then refuseCmd s 0x0407
    else if (groupNeeds rank size node prev next ctxs).any (fun c => !s.hasPeer p c) then refuseCmd s 0x0007
    else
      let s := ((s.w F.COLL_GROUP_RANK p 0 rank).w F.COLL_GROUP_SIZE p 0 size).w F.COLL_GROUP_NODE p 0 node
      let s := (List.range 16).foldl (fun (s : State) (i : Nat) =>
        let used := decide (i < node) && i != rank % node
        (s.w F.COLL_NPEER_CTX p i (if used then ctxs[i]?.getD 0 else 0)).w F.COLL_NPEER_VALID p i (if used then 1 else 0)) s
      let ring := if node < size then 1 else 0
      let s := ((s.w F.COLL_RING_PREV p 0 (ring * prev)).w F.COLL_RING_PVALID p 0 ring).w F.COLL_RING_NEXT p 0 (ring * next)
      .done (s.w F.COLL_RING_NVALID p 0 ring) 0 [])

/-! The plan (R245, R247). -/

/-- Formats a contribution, source or result may have (Table 9.1). -/
def planFmt (f : Nat) : Bool := f == fmtFP32 || f == fmtBF16 || f == fmtINT32
/-- Formats a gather may travel in beside its own and FP32 (R266). -/
def wireNarrow (f : Nat) : Bool := f == fmtBF16 || (decide (4 ≤ f) && decide (f ≤ 8))
/-- Codes and fields that Table 9.2 and R252, R263–R266 exclude. -/
def bkCodesBad (d g b : Nat) : Bool :=
  let op := Bk.op d
  let reduces := decide (op ≤ 1)
  let thin := Bk.comp d != 0 || Bk.thinm1 d != 0
  let fmtR := if decide (2 ≤ op) && decide (op ≤ 3) && !wirePlain d then Bk.fmtR d == fmtFP32 || Bk.fmtR d == fmtBF16 || Bk.fmtR d == Bk.wire d else planFmt (Bk.fmtR d)
  decide (8 ≤ op) || Bk.cmode d == 3 ||
  (if reduces then Bk.rop d == 0 else Bk.rop d != 0) ||
  (thin && !(reduces && Bk.rop d == 1 && (Bk.fmtC d == fmtFP32 || Bk.fmtC d == fmtBF16))) ||
  (Bk.leg d == 1 && !reduces) ||
  (Bk.wire d != 0 && op != 2 && op != 3) ||
  ((op == 2 || op == 3) && !wirePlain d && (!wireNarrow (Bk.wire d) || Bk.fmtC d == fmtINT32)) ||
  ((op == 2 || op == 3) && Bk.cmode d == 0) || (op == 4 && Bk.cmode d != 1) || (op == 6 && (Bk.cmode d != 0 || Bk.e d != 0)) ||
  (decide (op ≤ 4) && (!planFmt (Bk.fmtC d) || !fmtR)) ||
  (Bk.vchk d != 0 && Bk.cmode d != 2) || Bk.vchk d == 3 || (Bk.vchk d == 2 && decide (b ≤ Bk.vref d)) ||
  (decide (5 ≤ op) && decide (256 ≤ Bk.shard d)) ||
  (if op ≤ 4 then Bk.e d % (96 * g) != 0 else op == 5 && (Bk.e d == 0 || decide (65536 < Bk.e d))) ||
  ((Bk.comp d == 1 || Bk.comp d == 2) && (Bk.keep d == 0 || decide (Bk.e d / g < Bk.keep d))) || (op == 3 && decide (g ≤ Bk.keep d)) ||
  Bk.caddr d % 64 != 0 || Bk.roff d % 64 != 0 || ((thin || op == 5) && Bk.xaddr d % 64 != 0)
/-- Whether a bucket's slices, source, buffers or result lie outside their places. -/
def State.bkPlacesBad (s : State) (p cbase climit rhalf d : Nat) : Bool :=
  let halls := (s.hallsOf p).length
  let op := Bk.op d
  let g := s.cG p
  let sl := bkSlices d halls
  let src := (if op = 2 then Bk.e d / max 1 g else Bk.e d) * fmtBytes (Bk.fmtC d)
  let here := op != 3 || s.cR p == Bk.keep d
  (decide (sl.1 < sl.2) && (decide (sl.1 < cbase) || decide (climit < sl.2))) ||
  (op == 7 && !(bkTiles d halls).isEmpty) ||
  (Bk.cmode d == 1 && decide (op ≤ 4) && here && src != 0 && !s.pagesOwned p (Bk.caddr d) src true) ||
  ((Bk.comp d != 0 || Bk.thinm1 d != 0) && Bk.e d != 0 && !s.pagesOwned p (Bk.xaddr d) (4 * Bk.e d) true) ||
  (op == 5 && !s.pagesOwned p (Bk.xaddr d) (16 * Bk.e d) true) ||
  decide (rhalf < Bk.roff d + resultBytes d g)
/-- Results that do not ascend. -/
def resultsBad (g : Nat) : List Nat → Bool
  | a :: b :: l => decide (Bk.roff b < Bk.roff a + resultBytes a g) || resultsBad g (b :: l)
  | _ => false
/-- Ranges that overlap, taken in order of their starts. -/
def rangesMeet (l : List (Nat × Nat)) : Bool :=
  let l := (l.filter (fun x => decide (x.1 < x.2))).mergeSort (fun a b => decide (a.1 ≤ b.1))
  (l.zip (l.drop 1)).any (fun x => decide (x.2.1 < x.1.2))
/-- Whether R247 refuses a table. (DESIGN CHOICE, unsafe: log 70) -/
def State.planBad (s : State) (p cbase climit rhalf : Nat) (l : List Nat) : Bool :=
  l.zipIdx.any (fun (x : Nat × Nat) => bkCodesBad x.1 (max 1 (s.cG p)) x.2 || s.bkPlacesBad p cbase climit rhalf x.1) ||
  resultsBad (s.cG p) l || rangesMeet (l.map (fun d => bkSlices d (s.hallsOf p).length))
/-- PLAN_SET (R245, R247): the engine takes its copy of the table, and the window begins at bucket 0 of the present step. (DESIGN CHOICE, unsafe: log 71) -/
def execPlanSet (h : CmdHdr) (nbuck btab cbase climit rbase rhalf : Nat) (s : State) : Res :=
  s.command h 0x0404 1 1 [par 4 nbuck, par 8 btab, par 8 cbase, par 8 climit, par 8 rbase, par 8 rhalf] (fun s _ p =>
    if nbuck = 0 ∨ 65536 < nbuck ∨ btab % 64 ≠ 0 ∨ cbase % 64 ≠ 0 ∨ rbase % 64 ≠ 0 ∨ rhalf % 64 ≠ 0 ∨ climit < cbase then refuseCmd s 0x0004
    else if !(s.collOf p).runs.isEmpty then refuseCmd s 0x0402
    else if !s.pagesOwned p btab (64 * nbuck) true then refuseCmd s 0x0304
    else if (cbase < climit ∧ !s.pagesOwned p cbase (climit - cbase) true) ∨ (rhalf ≠ 0 ∧ !s.pagesOwned p rbase (2 * rhalf) true) then refuseCmd s 0x0401
    else
      let r := s.readLines btab nbuck
      match r.2 with
      | none => .wait
      | some ls =>
        let s := r.1
        let l := ls.map (fun v => v.data.toNat)
        if ls.any (·.poison) ∨ s.planBad p cbase climit rhalf l then refuseCmd s 0x0401
        else
          let s := ((s.w F.COLL_PLAN_BTAB p 0 btab).w F.COLL_PLAN_NBUCK p 0 nbuck).w F.COLL_PLAN_VALID p 0 1
          let s := (((s.w F.COLL_CAREA_CBASE p 0 cbase).w F.COLL_CLIMIT_CLIMIT p 0 climit).w F.COLL_RAREA_RBASE p 0 rbase).w F.COLL_RHALF_RHALF p 0 rhalf
          let s := (s.w F.COLL_WIN_WATER p 0 0).upColl p (fun c => { c with plan := l, bytes := [], ins := [], vers := [], commits := [] })
          .done (s.collPost p) 0 [])

/-! Shards (R267). -/

/-- Whether a posted bucket names a shard, by its number or its group. -/
def State.shardBusy (s : State) (p k : Nat) : Bool :=
  let g := ((Sparse.find? (s.collOf p).shards k).map (·.group)).getD 256
  (s.collOf p).runs.any (fun r =>
    let d := s.bucket p r.bucket
    if 5 ≤ Bk.op d then Bk.shard d == g else Bk.cmode d == 2 && Bk.shard d == k)
/-- SHARD_REG: slot 0 is current and HELD with the version given, slot 1 is not held. (DESIGN CHOICE, unsafe: log 72) -/
def execShardReg (h : CmdHdr) (shard group fmt epoch step elems slot0 slot1 : Nat) (s : State) : Res :=
  s.command h 0x0405 1 1 [par 2 shard, par 1 group, par 1 fmt, par 2 epoch, par 4 step, par 8 elems, par 8 slot0, par 8 slot1] (fun s _ p =>
    let k := elems * fmtBytes fmt
    if 4096 ≤ shard ∨ 256 ≤ group ∨ !planFmt fmt ∨ elems = 0 ∨ slot0 % 64 ≠ 0 ∨ slot1 % 64 ≠ 0 ∨
      ((s.collOf p).shards.any (fun x => x.1 != shard && x.2.group == group && x.2.elems != elems)) then refuseCmd s 0x0004
    else if s.shardBusy p shard then refuseCmd s 0x0402
    else if !s.pagesOwned p slot0 k true ∨ !s.pagesOwned p slot1 k true then refuseCmd s 0x0304
    else .done (s.upColl p (fun c => { c with
      shards := Sparse.insert c.shards shard ⟨slot0, slot1, elems, fmt, group, 0, (epoch % 2 ^ 16, step % 2 ^ 32), (0, 0), true, false⟩ })) 0 [])
/-- SHARD_DEREG (Table 13.4): refused while a posted bucket names the shard. -/
def execShardDereg (h : CmdHdr) (shard : Nat) (s : State) : Res :=
  s.command h 0x0406 1 1 [par 2 shard] (fun s _ p =>
    if !Sparse.has (s.collOf p).shards shard then refuseCmd s 0x0007
    else if s.shardBusy p shard then refuseCmd s 0x0402
    else .done (s.upColl p (fun c => { c with shards := Sparse.erase c.shards shard })) 0 [])

end Sys2Proof.Machine
end

