-- ==== Sys2Proof/Machine/ProtCmds.lean ====
section
/-! DEFINITION. Command group 5 (spec 13, Table 13.4): protected tensors (R293), links (R295, R302), snapshot buffers (R303, R307) and restores (R309, R310). -/

namespace Sys2Proof.Machine

/-! Tensors. -/

/-- A tensor from its 16-byte entry (Table 11.1). -/
def tensorOf (x : Nat) : Tensor := let f := fld x 39 2; ⟨fld x 0 19, fld x 19 19, fld x 38 1, f, fld x 41 20, fld x 64 19, if f = 2 then 0 else 1, false⟩
/-- The pages of a tensor as a range. -/
def Tensor.span (t : Tensor) : Nat × Nat := (t.page, t.page + t.npages)
/-- Whether a page may hold a protected tensor of p: VALID, its own, not read-shared (R293). -/
def State.pageFit (s : State) (p e : Nat) : Bool := s.ownsPage p e && Pm.rs (s.page e) == 0
/-- TENSOR_REG (R293): the indices are given in order. A new tensor is a snapshot tensor, or none with FORCE 2, until the chooser takes it. (DESIGN CHOICE, unsafe: log 73) -/
def execTensorReg (h : CmdHdr) (entries : List Nat) (s : State) : Res :=
  s.command h 0x0500 1 1 [par 2 entries.length, parList 16 entries] (fun s _ p =>
    let old := (s.protOf p).tensors
    let new := entries.map tensorOf
    if 65536 ≤ entries.length ∨ new.any (fun t => t.npages == 0 || decide (465969 < t.npages) || decide (1000000 < t.rate) || decide (2 ^ 19 < t.page + t.npages)) then refuseCmd s 0x0004
    else if 1024 < old.length + new.length then refuseCmd s 0x0005
    else if new.any (fun t => t.force == 3 || t.pages.any (fun e => !s.pageFit p e)) ∨ rangesMeet ((old ++ new).map Tensor.span) then refuseCmd s 0x0501
    else .done (s.upProt p (fun x => { x with tensors := old ++ new })) 0 [(old.length, 2)])
/-- TENSOR_SET: FORCE and RATE for the chooser at the next commit landing (R293, R294). -/
def execTensorSet (h : CmdHdr) (index force rate : Nat) (s : State) : Res :=
  s.command h 0x0501 1 1 [par 2 index, par 1 force, par 4 rate] (fun s _ p =>
    if 2 < force ∨ 1000000 < rate then refuseCmd s 0x0004
    else if (s.tensor? p index).isNone then refuseCmd s 0x0007
    else .done (s.upTensor p index (fun t => { t with force := force, rate := rate })) 0 [])

/-! Links. -/

/-- Where the shadows of tensors that may be shadowed lie in the buddy's area, in pages. -/
def shadowSpans (l : List Tensor) : List (Nat × Nat) := (l.filter (fun t => t.kind == 0 && t.force == 0)).map (fun t => (t.shpage, t.shpage + t.npages))
/-- LINK_OUT (R295): a shadow that leaves every area of 2^19 pages, or meets another, is refused (neither end knows the other's areas: log 190). The link is up, in place of one before it, which is lost; CTX also becomes COLL.BUDDY. (DESIGN CHOICE, unsafe: log 74) (DESIGN CHOICE, unsafe: log 190) -/
def execLinkOut (h : CmdHdr) (ctx : Nat) (s : State) : Res :=
  s.command h 0x0502 1 1 [par 2 ctx] (fun s _ p =>
    if !s.hasPeer p ctx then refuseCmd s 0x0007
    else if (s.collOf p).plan.any (fun d => Bk.leg d == 1 && (decide (1 < Bk.op d) || Bk.fmtR d != fmtFP32)) ∨ rangesMeet (shadowSpans (s.protOf p).tensors) ∨
      (shadowSpans (s.protOf p).tensors).any (fun x => decide (2 ^ 19 < x.2)) then refuseCmd s 0x0502
    else
      let s := if s.linkIsUp p then s.linkLose p else s
      let s := ((s.w F.SP_LINK_CTX p 0 ctx).w F.SP_LINK_VALID p 0 1).w F.SP_LINK_UP p 0 (if s.peerUp ctx then 1 else 0)
      .done ((s.w F.COLL_BUDDY_CTX p 0 ctx).w F.COLL_BUDDY_VALID p 0 1) 0 [])
/-- The registers of incoming link k at 0. -/
def State.clearIn (s : State) (p k : Nat) : State :=
  (((s.wreg R.SP_IN_CFG p k 0).wreg R.SP_IN_STATE p k 0).wreg R.SP_IN_NOTICE p k 0).wreg R.SP_IN_DONE p k 0
/-- LINK_IN (R295): a fresh incoming link, whose areas lie in read-write pages of the partition. (DESIGN CHOICE, unsafe: log 76) -/
def execLinkIn (h : CmdHdr) (link lsteps ntile shpage shn naddr lbase done : Nat) (s : State) : Res :=
  s.command h 0x0503 1 1 [par 1 link, par 1 lsteps, par 2 ntile, par 4 shpage, par 4 shn, par 4 naddr, par 8 lbase, par 8 done] (fun s _ p =>
    let other := s.inLink? p (1 - link)
    if 1 < link ∨ lsteps < 2 ∨ 16 < lsteps ∨ s.tileCount p ≤ ntile ∨ padWords ≤ naddr ∨ lbase % 64 ≠ 0 ∨ done % 64 ≠ 0 ∨ shn = 0 ∨ 2 ^ 19 < shpage + shn then refuseCmd s 0x0004
    else if !s.pagesOwned p lbase (lsteps * (s.g F.COLL_RHALF_RHALF p + 256)) true ∨ !s.pagesOwned p done 192 true ∨ !s.pagesOwned p (shpage * 2 ^ 23) (shn * 2 ^ 23) true then refuseCmd s 0x0304
    else if other.any (fun x => overlaps x.shpage (x.shpage + x.shn) shpage (shpage + shn)) then refuseCmd s 0x0502
    else
      let s := s.clearIn p link
      let s := ((s.w F.SP_IN_CFG_VALID p link 1).w F.SP_IN_CFG_LSTEPS p link lsteps).w F.SP_IN_CFG_LBASE p link lbase
      let s := ((s.w F.SP_IN_NOTICE_NTILE p link ntile).w F.SP_IN_NOTICE_NADDR p link naddr).w F.SP_IN_DONE_DONE p link done
      .done (s.upProt p (fun x => { x with links := Sparse.insert x.links link ⟨false, shpage, shn, [], [], false, false, 0, [], false, 0, [], [], 0⟩ })) 0 [])
/-- LINK_REMOVE (R302): 0 and 1 incoming; 2 outgoing, which takes effect as a lost link. -/
def execLinkRemove (h : CmdHdr) (link : Nat) (s : State) : Res :=
  s.command h 0x0504 1 1 [par 1 link] (fun s _ p =>
    if 2 < link then refuseCmd s 0x0004
    else if link = 2 then
      if s.g F.SP_LINK_VALID p = 0 then refuseCmd s 0x0007
      else
        let s := if s.linkIsUp p then s.linkLose p else s
        .done ((((s.w F.SP_LINK_VALID p 0 0).w F.SP_LINK_CTX p 0 0).w F.COLL_BUDDY_CTX p 0 0).w F.COLL_BUDDY_VALID p 0 0) 0 []
    else if s.g F.SP_IN_CFG_VALID p link = 0 then refuseCmd s 0x0007
    else .done ((s.clearIn p link).upProt p (fun x => { x with links := Sparse.erase x.links link })) 0 [])

/-! Snapshots. -/

/-- SNAPBUF_SET (R303). -/
def execSnapbufSet (h : CmdHdr) (hbufA hbufB : Nat) (s : State) : Res :=
  s.command h 0x0505 1 1 [par 2 hbufA, par 2 hbufB] (fun s _ p =>
    if (s.buf? h.queue p hbufA).isNone ∨ (s.buf? h.queue p hbufB).isNone then refuseCmd s 0x0007
    else .done (s.upProt p (fun x => { x with bufs := some (hbufA, hbufB) })) 0 [])
/-- SNAPSHOT_NOW (R307): SP.DUE is now. -/
def execSnapshotNow (h : CmdHdr) (s : State) : Res := s.command h 0x0506 1 1 [] (fun s _ p => .done (s.w F.SP_DUE_TIME p 0 s.now) 0 [])

/-! Restores. -/

/-- Whether a job or a restore runs (R305, PROTECT_BUSY). -/
def State.protBusy (s : State) (p : Nat) : Bool := (s.protOf p).job.isSome || (s.protOf p).restore.isSome
/-- RESTORE_SHADOW (R309, step 1): it ends with RESTORE_SHADOW_DONE. An adopted partition uses the link it keeps; another names the old owner's buddy. (DESIGN CHOICE, unsafe: log 79) -/
def execRestoreShadow (h : CmdHdr) (first count ctx : Nat) (s : State) : Res :=
  s.command h 0x0507 1 1 [par 2 first, par 2 count, par 2 ctx] (fun s c p =>
    let adopted := (s.part? p).any (·.adopted)
    if (s.protOf p).tensors.length < first + count ∨ (if adopted then s.g F.SP_LINK_VALID p = 0 else s.hasPeer p ctx = false) then refuseCmd s 0x0007
    else if s.protBusy p then refuseCmd s 0x0504
    else .later (s.upProt p (fun x => { x with restore := some ⟨c, 0, (List.range count).map (first + ·), 0, []⟩ })))
/-- Bytes of an image with n tensors in its table and m pages (Table 11.6). -/
def snapSize (n m : Nat) : Nat := snapBase n + m * 2 ^ 23 + up64 m + 64
/-- The pages of tensors of partition p, by index. -/
def State.idPages (s : State) (p : Nat) (ids : List Nat) : List Nat := (ids.filterMap (fun i => s.tensor? p i)).flatMap Tensor.pages
/-- The tensors whose pages an image may hold, in the order tried: those now in the snapshot method; those the chooser leaves to snapshots while a link is up, or
whatever the link does; and all of them. The table of an image does not say which. (DESIGN CHOICE, unsafe: log 192) -/
def State.snapChoices (s : State) (p : Nat) : List (List Nat) :=
  let ts := (s.protOf p).tensors.zipIdx
  let fits := fun (t : Tensor) => t.kind == 0 && decide (s.g F.SP_CFG_SHMIN p ≤ 8 * t.npages) && decide (s.g F.SP_CFG_SHRATE p ≤ t.rate)
  [s.snapTensors p, (ts.filter (fun t => t.1.force == 1 || (t.1.force == 0 && !fits t.1))).map (·.2), (ts.filter (fun t => t.1.force != 2)).map (·.2), ts.map (·.2)]
/-- The image's size for a choice of tensors. -/
def State.choiceSize (s : State) (p : Nat) (ids : List Nat) : Nat := snapSize (s.protOf p).tensors.length (s.idPages p ids).length
/-- Ask for the next bytes of the image being read: at most 2^31 in one RDMA READ (R318). -/
def State.restoreRead (s : State) (p hb off size : Nat) : State :=
  let k := min (size - off) (2 ^ 31)
  s.hostOp hb k (.hostRead hb off k) (.restore p)
/-- RESTORE_SNAP (R310): the image is read from buffer A or B; its data comes with READ_RESPONSE. (DESIGN CHOICE, unsafe: log 78) -/
def execRestoreSnap (h : CmdHdr) (buf : Nat) (s : State) : Res :=
  s.command h 0x0508 1 1 [par 1 buf] (fun s c p =>
    if 1 < buf then refuseCmd s 0x0004
    else match (s.protOf p).bufs with
      | none => refuseCmd s 0x0007
      | some bs =>
        let hb := if buf = 0 then bs.1 else bs.2
        match Sparse.find? s.foyer.hostbufs hb with
        | none => refuseCmd s 0x0007
        | some b =>
          let size := (((s.snapChoices p).map (s.choiceSize p)).filter (fun k => decide (k ≤ b.len))).foldl max 0
          if s.protBusy p then refuseCmd s 0x0504
          else if size = 0 then refuseCmd s 0x0503
          else if !s.bufOk hb then refuseCmd s 0x0008
          else .later ((s.upProt p (fun x => { x with restore := some ⟨c, 1, [], size, []⟩ })).restoreRead p hb 0 size))
/-- Whether the bytes read hold a whole image with the pages of `ids`: the trailer with its digest, and the registered table in count, NPAGES and KIND (R310). -/
def State.imageFits (s : State) (p : Nat) (b ids : List Nat) : Bool :=
  let ts := (s.protOf p).tensors
  let m := (s.idPages p ids).length
  let trail := snapBase ts.length + m * 2 ^ 23 + up64 m
  let same := fun (t : Tensor) (i : Nat) => let x := tensorOf (parAt b (64 + 16 * i) 16); x.npages == t.npages && x.kind == t.kind
  decide (trail + 64 ≤ b.length) && parAt b (trail + 8) 4 == 0x4B4F4E53 && parAt b trail 8 == digestBytes 0 (b.take trail) && parAt b 28 2 == ts.length &&
    ts.zipIdx.all (fun (x : Tensor × Nat) => same x.1 x.2)
/-- The pages of tensors `ids` are written from the image; lines of a page that the status table marks become markers (R310). Without `ids` nothing is restored. -/
def State.restorePages (s : State) (p : Nat) (c : RunCmd) (b : List Nat) (ids : Option (List Nat)) : State :=
  match ids with
  | none => s.cmdDone c 0x0503
  | some ids =>
    let pages := s.idPages p ids
    let base := snapBase (s.protOf p).tensors.length
    let stat := base + pages.length * 2 ^ 23
    let s := pages.zipIdx.foldl (fun (s : State) (e : Nat × Nat) =>
      let f := Pm.frame (s.page e.1)
      let bad := b[stat + e.2]?.getD 0 != 0
      let data := (b.drop (base + e.2 * 2 ^ 23)).take (2 ^ 23)
      (pieces 64 frameLines data).zipIdx.foldl (fun (s : State) (l : List Nat × Nat) => s.writeFrame f l.2 (leVal l.1) bad) ((s.dropPage e.1).clearFrame f)) s
    let s := s.upPages pages (fun v => Pm.setWsc v 0)
    (s.event (some p) 0x8506 [(1, 1), (parAt b 16 2, 2), (parAt b 12 4, 4)]).cmdDone c 0
/-- The image has come (R310): it is checked against the registered table, then its pages are written. -/
def State.restoreImage (s : State) (p : Nat) (c : RunCmd) (b : List Nat) : State :=
  (s.upProt p (fun y => { y with restore := none })).restorePages p c b ((s.snapChoices p).find? (fun ids => s.imageFits p b ids))
/-- Bytes of the image have come, in order: the next READ follows, or the image is whole. -/
def State.restoreData (s : State) (p hb : Nat) (b : List Nat) : State :=
  match (s.protOf p).restore with
  | none => s
  | some r =>
    let all := r.bytes ++ b
    if all.length < r.size then (s.upProt p (fun y => { y with restore := some { r with bytes := all } })).restoreRead p hb all.length r.size
    else s.restoreImage p r.cmd all

end Sys2Proof.Machine
end

