-- ==== Sys2Proof/Machine/Queries.lean ====
section
/-! DEFINITION. Commands that read the device out to a host buffer (spec 13, R344, Table 13.4; spec 14, R353, R356), firmware update by command (R360), and the
data of RDMA READs (spec 12, R318). -/

namespace Sys2Proof.Machine

/-- Write a command's answer to a host buffer at `off`: it completes with the acknowledgement (R323). -/
def State.hostReply (s : State) (c : RunCmd) (p hb off : Nat) (b : List Nat) : CmdOut :=
  match s.buf? c.hdr.queue p hb with
  | none => refuseCmd s 0x0007
  | some x =>
    if x.len < off + b.length then refuseCmd s 0x0004
    else if !s.bufOk hb then refuseCmd s 0x0008
    else .later (s.hostOp hb b.length (.hostWrite hb off b) (.cmd c))
/-- Registers of control space as bytes. -/
def State.regBytes (s : State) (l : List Nat) : List Nat := l.flatMap (fun a => leBytes 8 (s.ctlRead a).1.toNat)

/-- DEV_QUERY: control-space bytes 0x00–0x2F and GMEM.FRAMES. -/
def execDevQuery (h : CmdHdr) (hbuf off : Nat) (s : State) : Res :=
  s.command h 0x0001 0 0 [par 2 hbuf, par 8 off] (fun s c _ => s.hostReply c 8 hbuf off (s.regBytes [0x00, 0x08, 0x10, 0x18, 0x20, 0x28, 0x808000]))

/-! TELEM_READ (R344). -/

/-- A telemetry record: 8-byte fields, then zeros. -/
def telemBytes (l : List Nat) : List Nat := (l.flatMap (leBytes 8) ++ List.replicate 256 0).take 256
/-- KIND 0: a peer context. (DEDUCED, unsafe: log 130) -/
def State.telemPeer (s : State) (c : PeerCtx) : List Nat :=
  [if c.up then 1 else 0, ((s.peerLinks c).map (2 ^ ·)).sum, c.srtt, Sparse.get 256 c.cwnd 2, Sparse.get 256 c.cwnd 3] ++
  (List.range 4).flatMap (fun k => [Sparse.get 0 c.txSeq k, Sparse.get 0 c.rxNext k]) ++ [c.retx] ++ (List.range 7).map (fun k => Sparse.get 0 c.drops (k + 1))
/-- KIND 1: a queue pair. NAKs by code: sequence error, invalid request, remote access, remote operational, RNR. -/
def Qp.telem (q : Qp) : List Nat :=
  [if q.ok then 1 else 0, 32 + q.port, q.spsn, q.epsn, q.retried] ++ (List.range 5).map (fun k => Sparse.get 0 q.nakTx (k + 1)) ++ (List.range 5).map (fun k => Sparse.get 0 q.nakRx (k + 1))
/-- KIND 2: a partition. -/
def State.telemPart (s : State) (p : Nat) : List Nat :=
  [(s.regView R.LAND_NUM p 0).toNat, (s.regView R.LAND_VERDICT p 0).toNat, (s.regView R.COLL_STEP p 0).toNat, (s.regView R.SP_COMMIT p 0).toNat, (s.pagesHeld p).length,
   (s.queuesOf p).length, (s.foyer.qps.filter (fun q => q.2.kind != 0 && q.2.part == p)).length, (s.foyer.regions.filter (fun r => r.2.part == p)).length,
   (s.peers.filter (fun c => c.2.lpart == p)).length]
/-- TELEM_READ. A partition reads its own contexts and queue pairs only. -/
def execTelemRead (h : CmdHdr) (kind id hbuf off : Nat) (s : State) : Res :=
  s.command h 0x0600 2 (if kind = 2 then 1 else 2) [par 1 kind, par 4 id, par 2 hbuf, par 8 off] (fun s c p =>
    match kind with
    | 0 => (match (s.peer? id).filter (fun x => x.lpart == p || p == 8) with | some x => s.hostReply c p hbuf off (telemBytes (s.telemPeer x)) | none => refuseCmd s 0x0007)
    | 1 => (match (s.qp? id).filter (fun x => x.part == p || p == 8) with | some x => s.hostReply c p hbuf off (telemBytes x.telem) | none => refuseCmd s 0x0007)
    | 2 => s.hostReply c p hbuf off (telemBytes (s.telemPart p))
    | _ => refuseCmd s 0x0004)

/-- EVLOG_READ (R356): records FROM onward; one overwritten or not yet in flash is 64 zero bytes. (DESIGN CHOICE, unsafe: log 131) -/
def execEvlogRead (h : CmdHdr) (from_ count hbuf off : Nat) (s : State) : Res :=
  s.command h 0x0601 0 0 [par 4 from_, par 4 count, par 2 hbuf, par 8 off] (fun s c _ =>
    if count = 0 ∨ 65536 < count then refuseCmd s 0x0004
    else
      let one := fun (i : Nat) => match s.mss.log.find? (fun r => r.seq == (from_ + i) % 2 ^ 32) with | some r => r.bytes | none => List.replicate 64 0
      s.hostReply c 8 hbuf off ((List.range count).flatMap one))

/-- A sensor's 8-byte record (R353). -/
def State.sensorBytes (s : State) (i : Nat) : List Nat :=
  let v := s.regView R.MB_SENSOR 0 i
  leBytes 4 (bitsAt v 0 32) ++ [bitsAt v 32 3, bitsAt v 35 1 + 2 * bitsAt v 36 1 + 4 * bitsAt v 37 1] ++ leBytes 2 i
/-- SENSOR_READ (R353): a 16-byte header, then every record in index order. -/
def execSensorRead (h : CmdHdr) (hbuf off : Nat) (s : State) : Res :=
  s.command h 0x0602 0 0 [par 2 hbuf, par 8 off] (fun s c _ =>
    s.hostReply c 8 hbuf off (leBytes 2 numSensors ++ leBytes 6 0 ++ leBytes 8 s.now ++ (List.range numSensors).flatMap s.sensorBytes))

/-! Firmware update (R360). -/

/-- The slot an update may write: not the one that booted. -/
def Mss.freeSlot (m : Mss) : Nat := 1 - m.booted
/-- Start an update of `total` bytes into the other slot. -/
def State.updateStart (s : State) (c : Option RunCmd) (total : Nat) : State :=
  ((s.w F.MB_UPDATE_STATE 0 0 1).w F.MB_UPDATE_KIB 0 0 0).upMss (fun m => { m with update := some ⟨m.freeSlot, c, [], total, 0, false, 0⟩ })
/-- The whole image is here: the slot is marked, erased and programmed (Table 14.10, step 1). (DESIGN CHOICE, unsafe: log 137) -/
def State.updateData (s : State) (b : List Nat) : State :=
  match s.mss.update with
  | some u => if b.length < u.total then s.updateFail 0x0702 else s.upMss (fun m => { m with update := some { u with bytes := b, phase := 1 } })
  | none => s
/-- FW_UPDATE: the image is read from the host; one update runs at a time. -/
def execFwUpdate (h : CmdHdr) (hbuf len : Nat) (s : State) : Res :=
  s.command h 0x0701 0 0 [par 2 hbuf, par 8 len] (fun s c _ =>
    match s.buf? h.queue 8 hbuf with
    | none => refuseCmd s 0x0007
    | some b =>
      if s.mss.update.isSome ∨ s.mss.pldm ≠ 0 then refuseCmd s 0x0003
      else if len = 0 ∨ 2 ^ 26 < len ∨ b.len < len then refuseCmd s 0x0004
      else if !s.bufOk hbuf then refuseCmd s 0x0008
      else .later ((s.updateStart (some c) len).hostOp hbuf len (.hostRead hbuf 0 len) .update))

/-- READ_RESPONSE (R310, R318, R323): the data of the READ whose first packet is `psn`, whole; what was sent before it is acknowledged. -/
def execReadResponse (n psn : Nat) (data : List Nat) (e : EthHead) (s : State) : Res :=
  s.reqRow n e (fun s q =>
    let s := s.qpAcked n (psn % 2 ^ 24) q.ops.length
    match (s.qp? n).bind (·.ops.head?) with
    | some o =>
      let len := match o.out with | .hostRead _ _ k => k | _ => 0
      let hb := match o.out with | .hostRead hb _ _ => hb | _ => 0
      if !isRead o ∨ o.psn ≠ psn % 2 ^ 24 ∨ data.length ≠ len then s
      else
        let s := s.upQp n (fun q => { q with ops := q.ops.drop 1, tries := 0, rnrTries := 0 })
        match o.why with
        | .restore p => s.restoreData p hb data
        | .update => s.updateData data
        | _ => s.opDone o
    | none => s)

end Sys2Proof.Machine
end

