-- ==== Sys2Proof/Machine/Mctp.lean ====
section
/-! DEFINITION. The MSS as an MCTP endpoint (spec 14, R354, R360, R362, Table 14.4; spec 13, MCTP_PASS): control commands, PLDM base, monitoring and firmware
update, and the SPDM responder. Each request is answered with bytes laid out as its standard lays them out. -/

namespace Sys2Proof.Machine

/-- An answer: the state after it, the completion code, and the bytes that follow the code. -/
abbrev Answer := State × Nat × List Nat
/-- k bytes of response r that no rule gives. -/
def openBytes (r k : Nat) : List Nat := (List.range k).map (fun i => Config.openByte r i % 256)

/-! MCTP control commands (R354). -/

/-- Whether a number may be an endpoint ID: 0 is none, 1–7 are reserved, 255 is broadcast. -/
def eidOk (e : Nat) : Bool := decide (8 ≤ e) && decide (e < 255)
/-- A control command: its code and its request bytes. (PRESUMED, unsafe: log 140) -/
def State.mctpControl (s : State) (code : Nat) (b : List Nat) : Answer :=
  match code with
  | 1 =>
    if 2 ≤ parAt b 0 1 % 4 ∨ eidOk (parAt b 1 1) = false then (s, 2, [])
    else (s.upMss (fun m => { m with eid := parAt b 1 1 }), 0, [0, parAt b 1 1, 0])
  | 2 => (s, 0, [s.mss.eid, 0] ++ openBytes 2 1)
  | 3 => (s, 0, beBytes 16 Config.uuid)
  | 4 => if [0, 1, 5, 0x7F, 0xFF].contains (parAt b 0 1) then (s, 0, 1 :: beBytes 4 (Config.mctpVersion (parAt b 0 1))) else (s, 0x80, [])
  | 5 => (s, 0, [4, 0, 1, 5, 0x7F])
  | 6 => if parAt b 0 1 = 0 then (s, 0, [0xFF, 0] ++ beBytes 2 (s.g F.DEV_IDENT_VENDOR 0) ++ openBytes 6 2) else (s, 2, [])
  | _ => (s, 5, [])

/-! PLDM base and monitoring (R354). -/

/-- The commands of a PLDM type that the endpoint has (Table 14.4), by type: base, monitoring, firmware update. -/
def pldmCommands (ty : Nat) : List Nat :=
  match ty with
  | 0 => [1, 2, 3, 4, 5]
  | 2 => [0x04, 0x0A, 0x11, 0x50, 0x51]
  | 5 => [0x01, 0x02, 0x10, 0x13, 0x14, 0x15, 0x16, 0x17, 0x18, 0x1A, 0x1B, 0x1C, 0x1D]
  | _ => []
/-- A set of small numbers as k bytes of bits. -/
def bitBytes (k : Nat) (l : List Nat) : List Nat := leBytes k ((l.map (2 ^ ·)).sum)
/-- A signed number as 4 bytes. -/
def intBytes (v : Int) : List Nat := leBytes 4 (v % 2 ^ 32).toNat
/-- The PLDM unit of a sensor kind: °C, V, A, W, J, each with modifier −3. -/
def pldmUnit (kind : Nat) : Nat := match kind with | 0 => 2 | 1 => 5 | 2 => 6 | 3 => 7 | _ => 8
/-- The numeric sensor PDR of sensor i: sensor ID i + 1, unit modifier −3, upper warning and critical thresholds, the bank's warning a lower one. -/
def sensorPdr (i : Nat) : List Nat :=
  let bank := i = 193
  let thr := (if (sensorWarn i).isSome then (if bank then 8 else 1) else 0) + (if (sensorCrit i).isSome then 2 else 0)
  let body := openBytes (0x1000 + i) 2 ++ leBytes 2 (i + 1) ++ openBytes (0x2000 + i) 8 ++ [pldmUnit (sensorKind i), 0xFD, 0, 0, 0, 0, 0, 0, 0, 1, 5] ++ leBytes 4 0x3F800000 ++ leBytes 4 0 ++
    openBytes (0x3000 + i) 4 ++ intBytes (if sensorKind i = 0 then 2000 else 0) ++ [thr, 0] ++ openBytes (0x4000 + i) 16 ++ [5, if (sensorWarn i).isSome then 8 else 0] ++ openBytes (0x5000 + i) 12 ++
    intBytes (if bank then 0 else (sensorWarn i).getD 0) ++ intBytes (if bank then (sensorWarn i).getD 0 else 0) ++ intBytes ((sensorCrit i).getD 0) ++ leBytes 4 0 ++ leBytes 4 0 ++ leBytes 4 0
  leBytes 4 (i + 1) ++ [1, 2] ++ leBytes 2 0 ++ leBytes 2 body.length ++ body
/-- GetPDR: record handle, data transfer handle (the offset of a later part), part flag (1 first), byte count. -/
def pdrPart (h off first count : Nat) : Option (List Nat) :=
  let k := if h = 0 then 1 else h
  if numSensors < k then none
  else
    let r := sensorPdr (k - 1)
    let o := if first = 1 then 0 else off
    if r.length ≤ o then none
    else
      let p := (r.drop o).take count
      let last := decide (r.length ≤ o + p.length)
      some (leBytes 4 (if k = numSensors then 0 else k + 1) ++ leBytes 4 (if last then 0 else o + p.length) ++ [(if last then 4 else 0) + (if o = 0 then (if last then 1 else 0) else (if last then 0 else 1))] ++ leBytes 2 p.length ++ p ++
        (if last && o != 0 then openBytes (0x6000 + k) 1 else []))
/-- GetSensorReading of sensor i: 0 enabled or unavailable, its present state, its value. -/
def State.pldmReading (s : State) (i : Nat) : List Nat :=
  let v := s.regView R.MB_SENSOR 0 i
  let t := Sparse.get 0 s.mss.thresh i
  [5, if bitsAt v 35 1 = 1 then 0 else 3, if s.mss.receiver.isSome then 2 else 1, if t = 0 then 1 else if t = 2 then 3 else if i = 193 then 5 else 2] ++ openBytes (0x7000 + i) 2 ++ leBytes 4 (bitsAt v 0 32)

/-! PLDM firmware update (R354, R360). -/

/-- A version as characters: 8 hexadecimal digits. -/
def versionText (v : Nat) : List Nat := (beBytes 4 v).flatMap (fun b => [b / 16, b % 16].map (fun d => if d < 10 then 48 + d else 55 + d))
/-- GetFirmwareParameters: one component, the whole image. -/
def State.pldmParams (s : State) : List Nat :=
  let m := s.mss
  let ver := fun (k : Nat) => imgVersion (m.slot k).bytes
  let act := versionText (ver m.rec_.active)
  let pen := match m.rec_.pending with | some k => versionText (ver k) | none => []
  openBytes 0x502 4 ++ leBytes 2 1 ++ [1, 8, if pen.isEmpty then 0 else 1, pen.length] ++ act ++ pen ++
  openBytes 0x503 2 ++ leBytes 2 1 ++ openBytes 0x504 1 ++ leBytes 4 (ver m.rec_.active) ++ [1, 8] ++ openBytes 0x505 8 ++
  leBytes 4 (match m.rec_.pending with | some k => ver k | none => 0) ++ [if pen.isEmpty then 0 else 1, pen.length] ++ openBytes 0x506 14 ++ act ++ pen
/-- The MSS asks the agent for the next part of the image: at most 4,096 bytes and at most the agent's maximum (Table 14.4). -/
def State.pldmAsk (s : State) : State :=
  match s.mss.update with
  | some u => s.emit (.mctp 1 0x515 0 (leBytes 4 u.bytes.length ++ leBytes 4 (min (min 4096 s.mss.maxXfer) (u.total - u.bytes.length))))
  | none => s
/-- An update that the agent cancels fails with one of R360's statuses; which one is open. (DESIGN CHOICE, unsafe: log 139) -/
def State.updateCancel (s : State) : State :=
  let r := s.undef
  r.2.updateFail ([0x0701, 0x0702, 0x0703, 0x0008][r.1 % 4]?.getD 0x0008)
/-- Image bytes from the agent. A part that is not what was asked for is asked for again; with the last part the transfer is complete. -/
def State.pldmData (s : State) (cc : Nat) (b : List Nat) : State :=
  match s.mss.update with
  | some u =>
    if cc ≠ 0 ∨ b.length ≠ min (min 4096 s.mss.maxXfer) (u.total - u.bytes.length) then s.pldmAsk
    else
      let all := u.bytes ++ b
      if all.length < u.total then (s.upMss (fun m => { m with update := some { u with bytes := all } })).pldmAsk
      else ((s.updateData all).upMss (fun m => { m with pldm := 4 })).emit (.mctp 1 0x516 0 [0])
  | none => s
/-- Whether the agent may transfer the component: identifier 0x0001 and a size that fits a slot. -/
def componentOk (b : List Nat) : Bool := parAt b 2 2 == 1 && decide (0 < parAt b 9 4) && decide (parAt b 9 4 ≤ 2 ^ 26)
/-- A firmware update command: its code and its request bytes. -/
def State.pldmUpdate (s : State) (cmd : Nat) (b : List Nat) : Answer :=
  let st := s.mss.pldm
  match cmd with
  | 0x01 => (s, 0, leBytes 4 20 ++ [1] ++ leBytes 2 2 ++ leBytes 2 16 ++ beBytes 16 Config.uuid)
  | 0x02 => (s, 0, s.pldmParams)
  | 0x10 =>
    if s.mss.update.isSome ∨ st ≠ 0 then (s, 0x81, [])
    else if parAt b 0 4 < 32 then (s, 0x83, [])
    else (s.upMss (fun m => { m with pldm := 1, maxXfer := parAt b 0 4 }), 0, [0, 0, 0])
  | 0x13 =>
    if st = 0 then (s, 0x80, [])
    else if st ≠ 1 then (s, 0x84, [])
    else (if parAt b 0 1 / 4 % 2 = 1 then s.upMss (fun m => { m with pldm := 2 }) else s, 0, if parAt b 3 2 = 1 then [0, 0] else [1, 6])
  | 0x14 =>
    if st = 0 then (s, 0x80, [])
    else if st ≠ 2 then (s, 0x84, [])
    else if !componentOk b then (s, 0, [1, 6] ++ leBytes 4 0 ++ leBytes 2 0)
    else (((s.updateStart none (parAt b 9 4)).upMss (fun m => { m with pldm := 3 })).pldmAsk, 0, [0, 0] ++ leBytes 4 0 ++ openBytes 0x514 2)
  | 0x1A =>
    if st = 0 then (s, 0x80, [])
    else if st ≠ 2 then (s, 0x84, [])
    else if s.mss.rec_.pending.isNone then (s, 0x85, [])
    else (s.upMss (fun m => { m with activate := true, pldm := 6 }), 0, openBytes 0x51A 2)
  | 0x1B => (s, 0, [st] ++ openBytes 0x51B 5 ++ leBytes 4 0)
  | 0x1C =>
    if st = 0 then (s, 0x80, [])
    else if st < 3 ∨ 5 < st then (s, 0x84, [])
    else (s.updateCancel.upMss (fun m => { m with pldm := 2 }), 0, [])
  | 0x1D => if st = 0 then (s, 0x80, []) else (s.updateCancel.upMss (fun m => { m with pldm := 0 }), 0, 0 :: leBytes 8 0)
  | _ => (s, 5, [])
/-- A PLDM request: its type, command and bytes. (DEDUCED, unsafe: log 143) -/
def State.pldmAnswer (s : State) (ty cmd : Nat) (b : List Nat) : Answer :=
  match ty, cmd with
  | 0, 0x01 => if parAt b 0 1 = 0 ∨ parAt b 0 1 = 255 then (s, 2, []) else (s.upMss (fun m => { m with tid := parAt b 0 1 }), 0, [])
  | 0, 0x02 => (s, 0, [s.mss.tid])
  | 0, 0x03 => if (pldmCommands (parAt b 5 1)).isEmpty then (s, 0x83, []) else (s, 0, leBytes 4 0 ++ [5] ++ leBytes 8 (Config.pldmVersion (parAt b 5 1)))
  | 0, 0x04 => (s, 0, bitBytes 8 [0, 2, 5])
  | 0, 0x05 => if (pldmCommands (parAt b 0 1)).isEmpty then (s, 0x83, []) else (s, 0, bitBytes 32 (pldmCommands (parAt b 0 1)))
  | 2, 0x04 =>
    if parAt b 1 1 ≠ 0 then (s, 0x80, [])
    else if 2 ≤ parAt b 0 1 then (s, 0x81, [])
    else (s.upMss (fun m => { m with receiver := if parAt b 0 1 = 0 then none else some (parAt b 2 1) }), 0, [])
  | 2, 0x11 => if parAt b 0 2 = 0 ∨ numSensors < parAt b 0 2 then (s, 0x80, []) else (s, 0, s.pldmReading (parAt b 0 2 - 1))
  | 2, 0x50 => (s, 0, [0] ++ openBytes 0x250 26 ++ leBytes 4 numSensors ++ leBytes 4 (((List.range numSensors).map (fun i => (sensorPdr i).length)).sum) ++ leBytes 4 (((List.range numSensors).map (fun i => (sensorPdr i).length)).foldl max 0) ++ [0])
  | 2, 0x51 => (match pdrPart (parAt b 0 4) (parAt b 4 4) (parAt b 8 1) (parAt b 9 2) with | some r => (s, 0, r) | none => (s, 0x82, []))
  | 5, _ => s.pldmUpdate cmd b
  | _, _ => (s, if (pldmCommands ty).isEmpty then 0x20 else 5, [])

/-! The SPDM responder (R362). -/

def Mss.band (m : Mss) (inBand : Bool) : Spdm := if inBand then m.spdmBand else m.spdm
def State.upSpdm (s : State) (inBand : Bool) (f : Spdm → Spdm) : State :=
  s.upMss (fun m => if inBand then { m with spdmBand := f m.spdmBand } else { m with spdm := f m.spdm })
/-- A digest and a signature as bytes. -/
def hashBytes (l : List Nat) : List Nat := leBytes 64 (Config.sha512 l)
def signBytes (l : List Nat) : List Nat := (Config.rsaSign l ++ List.replicate 512 0).take 512
/-- An SPDM ERROR. -/
def spdmError (code data : Nat) : List Nat := [0x12, 0x7F, code, data]
/-- Measurement block i as DMTF lays it out (Table 14.9). -/
def Mss.measBlock (m : Mss) (i : Nat) : List Nat :=
  [i, 1] ++ leBytes 2 67 ++ [if i = 1 then 0 else if i < 8 then 1 else i - 6] ++ leBytes 2 64 ++ leBytes 64 (m.measures[i - 1]?.getD 0)
/-- The response to GET_MEASUREMENTS up to its signature: op 0 asks how many blocks there are, 0xFF for all, 1–9 for one; none for another number. -/
def State.measBody (s : State) (op nonce : Nat) : Option (List Nat) :=
  let l := if op = 0xFF then (List.range 9).map (· + 1) else if op = 0 then [] else [op]
  if op ≠ 0xFF ∧ 9 < op then none
  else
    let r := l.flatMap s.mss.measBlock
    some ([0x12, 0x60, if op = 0 then 9 else 0, 0, l.length] ++ leBytes 3 r.length ++ r ++ leBytes 32 nonce ++ leBytes 2 0)
/-- The answer to a request, as the whole response message. -/
def State.spdmAnswer (s : State) (band : Bool) (b : List Nat) : State × List Nat :=
  let c := s.mss.band band
  let code := parAt b 1 1
  let early := fun (k : Nat) => decide (c.stage < k)
  let clear := fun (s : State) => s.upSpdm band (fun x => { x with meas := [] })
  match code with
  | 0x84 =>
    let r := [0x10, 0x04, 0, 0, 0, 1, 0x00, 0x12]
    (s.upSpdm band (fun _ => ⟨1, b ++ r, [], []⟩), r)
  | 0xE1 =>
    if c.stage ≠ 1 then (s, spdmError 4 0)
    else if parAt b 0 1 ≠ 0x12 then (s, spdmError 0x41 0)
    else if b.length ≠ 20 ∨ parAt b 12 4 < 42 ∨ parAt b 16 4 < parAt b 12 4 then (s, spdmError 1 0)
    else
      let r := [0x12, 0x61, 0, 0, 0] ++ openBytes 0xE1 1 ++ [0, 0] ++ leBytes 4 0x16 ++ leBytes 4 4096 ++ leBytes 4 4096
      (s.upSpdm band (fun x => { x with stage := 2, agreed := x.agreed ++ b ++ r }), r)
  | 0xE3 =>
    if c.stage ≠ 2 then (s, spdmError 4 0)
    else if parAt b 0 1 ≠ 0x12 then (s, spdmError 0x41 0)
    else if b.length < 32 ∨ parAt b 4 2 ≠ b.length then (s, spdmError 1 0)
    else
      let asym := parAt b 8 4 / 32 % 2 * 32
      let hash := parAt b 12 4 / 4 % 2 * 4
      let spec := parAt b 6 1 % 2
      let r := [0x12, 0x63, 0, 0] ++ leBytes 2 36 ++ [spec, 0] ++ leBytes 4 (8 * spec) ++ leBytes 4 asym ++ leBytes 4 hash ++ List.replicate 16 0
      if asym = 0 ∨ hash = 0 then (s, spdmError 1 0)
      else (s.upSpdm band (fun x => { x with stage := 3, agreed := x.agreed ++ b ++ r }), r)
  | 0x81 =>
    if early 3 then (s, spdmError 4 0)
    else if parAt b 0 1 ≠ 0x12 then (s, spdmError 0x41 0)
    else
      let r := [0x12, 0x01, 0, 1] ++ hashBytes Config.certChain
      ((clear s).upSpdm band (fun x => { x with chal := x.chal ++ b ++ r }), r)
  | 0x82 =>
    if early 3 then (s, spdmError 4 0)
    else if parAt b 0 1 ≠ 0x12 then (s, spdmError 0x41 0)
    else if b.length ≠ 8 ∨ parAt b 2 1 % 16 ≠ 0 ∨ Config.certChain.length ≤ parAt b 4 2 then (s, spdmError 1 0)
    else
      let p := (Config.certChain.drop (parAt b 4 2)).take (min (parAt b 6 2) 4088)
      let r := [0x12, 0x02, 0, 0] ++ leBytes 2 p.length ++ leBytes 2 (Config.certChain.length - parAt b 4 2 - p.length) ++ p
      ((clear s).upSpdm band (fun x => { x with chal := x.chal ++ b ++ r }), r)
  | 0x83 =>
    if early 3 then (s, spdmError 4 0)
    else if parAt b 0 1 ≠ 0x12 then (s, spdmError 0x41 0)
    else if b.length ≠ 36 ∨ parAt b 2 1 % 16 ≠ 0 ∨ [0, 1, 0xFF].contains (parAt b 3 1) = false then (s, spdmError 1 0)
    else
      let n := s.undef
      let t := n.2.undef
      let sum := if parAt b 3 1 = 0xFF then leBytes 64 (s.mss.measures[1]?.getD 0) else if parAt b 3 1 = 1 then leBytes 64 t.1 else []
      let body := [0x12, 0x03, 0, 1] ++ hashBytes Config.certChain ++ leBytes 32 n.1 ++ sum ++ leBytes 2 0
      ((clear t.2).upSpdm band (fun x => { x with chal := [] }), body ++ signBytes (c.agreed ++ c.chal ++ b ++ body))
  | 0xE0 =>
    let signed := parAt b 2 1 % 2
    if early 3 then (s, spdmError 4 0)
    else if parAt b 0 1 ≠ 0x12 then (s, spdmError 0x41 0)
    else if b.length ≠ (if signed = 1 then 37 else 4) ∨ (signed = 1 ∧ parAt b 36 1 % 16 ≠ 0) then (s, spdmError 1 0)
    else
      let n := s.undef
      match s.measBody (parAt b 3 1) n.1 with
      | none => (s, spdmError 1 0)
      | some body =>
        if signed = 1 then (n.2.upSpdm band (fun x => { x with meas := [] }), body ++ signBytes (c.agreed ++ c.meas ++ b ++ body))
        else (n.2.upSpdm band (fun x => { x with meas := x.meas ++ b ++ body }), body)
  | _ => (clear s, spdmError 7 code)

/-! The rows. Control and PLDM firmware update answer in recovery too (R358). -/

/-- A control command on the sideband. -/
def State.controlRow (s : State) (code : Nat) (b : List Nat) : Res :=
  if !s.mssOn then .next s
  else
    let a := s.mctpControl code b
    .next (a.1.emit (.mctp 0 code a.2.1 a.2.2))
/-- A PLDM request on the sideband; an activation that nothing holds back is followed by its warm reset (R360). -/
def State.pldmRow (s : State) (ty cmd : Nat) (b : List Nat) : Res :=
  if !s.mssOn ∨ (s.power.phase ≠ .running ∧ ty ≠ 5) then .next s
  else
    let a := s.pldmAnswer ty cmd b
    .next (a.1.emit (.mctp 1 (256 * ty + cmd) a.2.1 a.2.2)).activateNow
/-- An SPDM request on the sideband. -/
def State.spdmRow (s : State) (b : List Nat) : Res :=
  if s.power.phase ≠ .running then .next s
  else
    let a := s.spdmAnswer false b
    .next (a.1.emit (.mctp 5 (parAt a.2 1 1) 0 a.2))

/-- SET_ENDPOINT_ID: operation and EID. -/
def execSetEndpointId (op eid : Nat) (s : State) : Res := s.controlRow 1 [op % 256, eid % 256]
/-- GET_ENDPOINT_ID. -/
def execGetEndpointId (s : State) : Res := s.controlRow 2 []
/-- GET_ENDPOINT_UUID. -/
def execGetEndpointUuid (s : State) : Res := s.controlRow 3 []
/-- GET_MCTP_VERSION_SUPPORT: of one message type. -/
def execGetMctpVersionSupport (ty : Nat) (s : State) : Res := s.controlRow 4 [ty % 256]
/-- GET_MESSAGE_TYPE_SUPPORT. -/
def execGetMessageTypeSupport (s : State) : Res := s.controlRow 5 []
/-- GET_VENDOR_DEFINED_MESSAGE_SUPPORT. -/
def execGetVendorDefinedMessageSupport (sel : Nat) (s : State) : Res := s.controlRow 6 [sel % 256]
/-- GET_TID. -/
def execGetTid (s : State) : Res := s.pldmRow 0 0x02 []
/-- SET_TID. -/
def execSetTid (tid : Nat) (s : State) : Res := s.pldmRow 0 0x01 [tid % 256]
/-- GET_PLDM_VERSION: of one PLDM type, whole. -/
def execGetPldmVersion (ty : Nat) (s : State) : Res := s.pldmRow 0 0x03 (leBytes 4 0 ++ [1, ty % 256])
/-- GET_PLDM_TYPES. -/
def execGetPldmTypes (s : State) : Res := s.pldmRow 0 0x04 []
/-- GET_PLDM_COMMANDS: of one PLDM type and version. -/
def execGetPldmCommands (ty ver : Nat) (s : State) : Res := s.pldmRow 0 0x05 ([ty % 256] ++ leBytes 4 ver)
/-- GET_PDR_REPOSITORY_INFO. -/
def execGetPdrRepositoryInfo (s : State) : Res := s.pldmRow 2 0x50 []
/-- GET_PDR: record handle, data transfer handle, transfer flag, byte count, record change number. -/
def execGetPdr (handle xfer flag count change : Nat) (s : State) : Res := s.pldmRow 2 0x51 (leBytes 4 handle ++ leBytes 4 xfer ++ [flag % 256] ++ leBytes 2 count ++ leBytes 2 change)
/-- GET_SENSOR_READING: sensor ID. -/
def execGetSensorReading (id rearm : Nat) (s : State) : Res := s.pldmRow 2 0x11 (leBytes 2 id ++ [rearm % 256])
/-- SET_EVENT_RECEIVER: mode, protocol, endpoint ID. -/
def execSetEventReceiver (mode proto eid : Nat) (s : State) : Res := s.pldmRow 2 0x04 [mode % 256, proto % 256, eid % 256]
/-- QUERY_DEVICE_IDENTIFIERS. -/
def execQueryDeviceIdentifiers (s : State) : Res := s.pldmRow 5 0x01 []
/-- GET_FIRMWARE_PARAMETERS. -/
def execGetFirmwareParameters (s : State) : Res := s.pldmRow 5 0x02 []
/-- REQUEST_UPDATE: the agent's maximum transfer size, components, outstanding requests (R360). -/
def execRequestUpdate (maxXfer comps outstanding : Nat) (s : State) : Res := s.pldmRow 5 0x10 (leBytes 4 maxXfer ++ leBytes 2 comps ++ [outstanding % 256])
/-- PASS_COMPONENT_TABLE: transfer flag, classification, identifier. -/
def execPassComponentTable (flag cls comp : Nat) (s : State) : Res := s.pldmRow 5 0x13 ([flag % 256] ++ leBytes 2 cls ++ leBytes 2 comp)
/-- UPDATE_COMPONENT: classification, identifier, index, comparison stamp, image size. -/
def execUpdateComponent (cls comp idx stamp size : Nat) (s : State) : Res := s.pldmRow 5 0x14 (leBytes 2 cls ++ leBytes 2 comp ++ [idx % 256] ++ leBytes 4 stamp ++ leBytes 4 size)
/-- REQUEST_FIRMWARE_DATA: the agent's response, a completion code and image bytes (R354, R360). -/
def execRequestFirmwareData (cc : Nat) (data : List Nat) (s : State) : Res :=
  if s.mssOn && s.mss.pldm == 3 then .next (s.pldmData cc data) else .next s
/-- ACTIVATE_FIRMWARE (R360). -/
def execActivateFirmware (selfContained : Nat) (s : State) : Res := s.pldmRow 5 0x1A [selfContained % 256]
/-- GET_STATUS. -/
def execGetStatus (s : State) : Res := s.pldmRow 5 0x1B []
/-- CANCEL_UPDATE_COMPONENT. -/
def execCancelUpdateComponent (s : State) : Res := s.pldmRow 5 0x1C []
/-- CANCEL_UPDATE. -/
def execCancelUpdate (s : State) : Res := s.pldmRow 5 0x1D []
/-- GET_VERSION (R362). -/
def execGetVersion (s : State) : Res := s.spdmRow [0x10, 0x84, 0, 0]
/-- GET_CAPABILITIES: the requester's flags and sizes. -/
def execGetCapabilities (flags xfer msg : Nat) (s : State) : Res := s.spdmRow ([0x12, 0xE1, 0, 0, 0, 0, 0, 0] ++ leBytes 4 flags ++ leBytes 4 xfer ++ leBytes 4 msg)
/-- NEGOTIATE_ALGORITHMS: the requester's measurement specifications, asymmetric and hash algorithms. -/
def execNegotiateAlgorithms (spec asym hash : Nat) (s : State) : Res :=
  s.spdmRow ([0x12, 0xE3, 0, 0] ++ leBytes 2 32 ++ [spec % 256, 0] ++ leBytes 4 asym ++ leBytes 4 hash ++ List.replicate 16 0)
/-- GET_DIGESTS. -/
def execGetDigests (s : State) : Res := s.spdmRow [0x12, 0x81, 0, 0]
/-- GET_CERTIFICATE: slot, offset, length. -/
def execGetCertificate (slot off len : Nat) (s : State) : Res := s.spdmRow ([0x12, 0x82, slot % 256, 0] ++ leBytes 2 off ++ leBytes 2 len)
/-- CHALLENGE: slot, measurement summary wanted, nonce. -/
def execChallenge (slot meas nonce : Nat) (s : State) : Res := s.spdmRow ([0x12, 0x83, slot % 256, meas % 256] ++ leBytes 32 nonce)
/-- GET_MEASUREMENTS: whether signed, which blocks, nonce, slot. -/
def execGetMeasurements (signed : Bool) (op nonce slot : Nat) (s : State) : Res :=
  s.spdmRow ([0x12, 0xE0, if signed then 1 else 0, op % 256] ++ (if signed then leBytes 32 nonce ++ [slot % 256] else []))

/-! In band (Table 13.4, R354). -/

/-- What the MSS answers to a message: none where it is malformed or unsupported. An agent's response to RequestFirmwareData has no answer. (DESIGN CHOICE, unsafe: log 142) -/
def State.inBand (s : State) (b : List Nat) : Option (State × List Nat) :=
  match b.headD 0 % 128 with
  | 1 =>
    let ty := parAt b 2 1 % 64
    let cmd := parAt b 3 1
    let rest := b.drop 4
    if b.length < 4 then none
    else if 128 ≤ parAt b 1 1 then
      let a := s.pldmAnswer ty cmd rest
      some (a.1, [1, parAt b 1 1 % 32, ty, cmd, a.2.1] ++ a.2.2)
    else if ty = 5 ∧ cmd = 0x15 ∧ s.mss.pldm = 3 then some (s.pldmData (parAt rest 0 1) (rest.drop 1), [])
    else none
  | 5 => if b.length < 5 then none else (let a := s.spdmAnswer true (b.drop 1); some (a.1, 5 :: a.2))
  | _ => none
/-- MCTP_PASS: one PLDM or SPDM message; the response goes to the host buffer, its length to RESULT. -/
def execMctpPass (h : CmdHdr) (hbuf off : Nat) (msg : List Nat) (s : State) : Res :=
  s.command h 0x0700 0 0 [par 2 msg.length, par 2 hbuf, par 8 off, parL msg.length (leVal msg)] (fun s c _ =>
    match s.inBand msg with
    | none => refuseCmd s 0x0704
    | some r =>
      if r.2.isEmpty then .done r.1 0 [(0, 2)]
      else match r.1.hostReply { c with result := [(r.2.length, 2)] } 8 hbuf off r.2 with
        | .done _ st x => .done s st x
        | o => o)

end Sys2Proof.Machine
end

