-- ==== Sys2Proof/Machine/Scrub.lean ====
section
/-! DEFINITION. Scrubbing and correction write-back (spec 05, R141, R142, R146, R158). -/

namespace Sys2Proof.Machine

/-- Perform a scheduled correction of word a (R141). -/
def State.writeCorrection (s : State) (n a : Nat) : State :=
  s.upTile n (fun t => match Sparse.find? t.wb a with
    | some v => { t with mem := Sparse.put 0 t.mem a v, wb := Sparse.erase t.wb a }
    | none => t)

/-- CORRECTION_WRITE_BACK (R141, R146): the scheduled write-back of word a is performed; a write of the word since its read has
already abandoned it. -/
def execCorrectionWriteBack (n a : Nat) (s : State) : Res := onTile n 0 (s.writeCorrection n a)

/-- The first bank row at or after r whose segment is powered (R138, R142); 6,144 when there is none. -/
def State.scrubNext (s : State) (n r : Nat) : Nat :=
  if s.segOn n (64 * r) then r
  else (((List.range 8).map (fun k => 768 * k)).find? (fun x => decide (r < x) && s.segOn n (64 * x))).getD 6144

/-- SCRUB_READ (R142, R143): the scrubber reads the next row of its powered segments in every bank, 64 words, corrects them and writes the
corrected ones back. After the last row the pass is complete. (DEDUCED, unsafe: log 60) -/
def execScrubRead (n : Nat) (s : State) : Res :=
  onTile n 0 (
    let r := s.scrubNext n (s.tile n).scrubRow
    let s := if r < 6144 then (List.range 64).foldl (fun s i => ((s.readWord n (64 * r + i) 4 (s.tile n).flight).1).writeCorrection n (64 * r + i)) s else s
    if s.scrubNext n (r + 1) < 6144 then s.upTile n (fun t => { t with scrubRow := r + 1 })
    else ((s.inc F.TILE_SCRUB_PASSES n 0 1).w F.TILE_SCRUB_FORCED n 0 0).upTile n (fun t => { t with scrubRow := 0, scrubStart := s.now }))

/-- SCRUB_FORCED (R142): a pass still open 500 ms after it began. -/
def execScrubForced (n : Nat) (s : State) : Res :=
  onTile n 0 (if s.now < (s.tile n).scrubStart + 500000000 then s else s.w F.TILE_SCRUB_FORCED n 0 1)

/-- GALLERY_SCRUB_READ (R156–R158): slice k of hall h scrubs its next line. -/
def execGalleryScrubRead (h k : Nat) (s : State) : Res :=
  if numHalls ≤ h ∨ 8 ≤ k then .fault .noSuchUnit
  else .next (
    let l := Sparse.get 0 (s.hall h).scrubLine k
    let key := k * 96 + l / 1024
    let s := match s.slot? h key with
      | some x => if x.has (l % 1024) then
          let r := s.readSlot h key (l % 1024)
          match r.2 with
          | some _ => r.1
          | none =>
            let a := x.block * 2 ^ 16 + l % 1024 * 64
            let q := r.1.readFrame (Pm.frame (s.page (pageOf a))) (pageLine a) (some h) false
            match q.2 with
            | some v => q.1.upSlot h key (fun x => { x with lines := Sparse.insert x.lines (l % 1024) (galStore v.data.toNat v.poison) })
            | none => q.1
        else s
      | none => s
    if l + 1 < 98304 then s.upHall h (fun x => { x with scrubLine := Sparse.put 0 x.scrubLine k (l + 1) })
    else
      let f := s.g F.HALL_GAL_SCRUB_FORCED h
      ((s.inc F.HALL_GAL_SCRUB_PASSES h 0 1).w F.HALL_GAL_SCRUB_FORCED h 0 (f - f / 2 ^ k % 2 * 2 ^ k)).upHall h (fun x => { x with
        scrubLine := Sparse.put 0 x.scrubLine k 0, scrubStart := Sparse.put 0 x.scrubStart k s.now }))

/-- GALLERY_SCRUB_FORCED (R158). -/
def execGalleryScrubForced (h k : Nat) (s : State) : Res :=
  if numHalls ≤ h ∨ 8 ≤ k then .fault .noSuchUnit
  else .next (if s.now < Sparse.get 0 (s.hall h).scrubStart k + 500000000 then s
    else s.w F.HALL_GAL_SCRUB_FORCED h 0 (s.g F.HALL_GAL_SCRUB_FORCED h ||| 2 ^ k))

end Sys2Proof.Machine
end

