-- ==== Sys2Proof/Machine/Sync.lean ====
section
/-! DEFINITION. The SYNC instructions and what ends a context's waits (spec 03_tile_sequencer.md, R70, R80, R90–R93; spec 05,
R138, R139). -/

namespace Sys2Proof.Machine

/-- NOP (Table 3.10). -/
def execNop (n c : Nat) (s : State) : Res := onTile n c (s.issuePlain n c .nop (fun s _ => s))

/-- LAND and LAND.OPEN enter DRAIN; with a main-context chain open they fault (R91, R117). (DEDUCED, unsafe: log 40) -/
def State.landIssue (s : State) (n c kind sd : Nat) : State :=
  if !(s.tile n).chain.isEmpty then s.tileFault n c 6 1 ((s.ctx n c).pc - 1) 0
  else s.setWait n c (.drain kind sd (s.tile n).nextId)

/-- LAND (R91). -/
def execLand (n c : Nat) (s : State) : Res := onTile n c (s.issuePlain n c .land (fun s _ => s.landIssue n c 0 0))
/-- LAND.OPEN (R91). -/
def execLandOpen (n c : Nat) (s : State) : Res := onTile n c (s.issuePlain n c .landOpen (fun s w => s.landIssue n c 1 (Ins.sd w)))

/-- WAIT.LAND (R91, R171): a token, the low 32 bits of SA, of 0 or above the flight number faults; a completed landing lets issue go on.
(DESIGN CHOICE, unsafe: log 177) (DESIGN CHOICE, unsafe: log 177) -/
def execWaitLand (n c : Nat) (s : State) : Res :=
  onTile n c (s.issuePlain n c .waitLand (fun s w =>
    let tok := (s.sreg n c (Ins.sa w)).toNat % 2 ^ 32
    if tok = 0 ∨ 0 < diff32 tok (s.tile n).flight then s.tileFault n c 0x0B 5 ((s.ctx n c).pc - 1) 0
    else if s.landed n tok then s else s.setWait n c (.held tok)))

/-- Whether the engine work a FENCE waits for is done (R90). -/
def State.fenceClear (s : State) (n c mask : Nat) (acks : Bool) (before : Nat) : Bool :=
  let t := s.tile n
  t.instrs.all (fun i => !(decide (i.id < before) && i.handler == (c == 1) && mask / 2 ^ i.eng % 2 == 1)) &&
  (!acks || (t.lineOut.all (fun l => !decide (l.id < before)) &&
    t.instrs.all (fun i => !(i.eng == 2 && decide (i.id < before) && St.dir i.desc == 1))))

/-- FENCE (R90): an empty mask, IMM[4:0] = 0, completes at once, whatever IMM[5] is. (DESIGN CHOICE, unsafe: log 178) -/
def execFence (n c : Nat) (s : State) : Res :=
  onTile n c (s.issuePlain n c .fence (fun s w =>
    let m := fld (Ins.imm w) 0 5
    let acks := fld (Ins.imm w) 5 1 == 1
    let b := (s.tile n).nextId
    if m = 0 ∨ s.fenceClear n c m acks b then s else s.setWait n c (.fence m acks b)))

/-- FENCE_DONE (R90). -/
def execFenceDone (n c : Nat) (s : State) : Res :=
  onTile n c (
    match (s.ctx n c).wait with
    | .fence m acks b => if s.alive n && s.fenceClear n c m acks b then s.setWait n c .run else s
    | _ => s)

/-- HALT (R92): waits as LAND waits, then the main context has ended. (DEDUCED, unsafe: log 31) -/
def execHalt (n c : Nat) (s : State) : Res :=
  onTile n c (s.issuePlain n c .halt (fun s _ => s.setWait n c (.drain 2 0 (s.tile n).nextId)))

/-- Whether the matrix, vector and exchange work the main context issued before `before` has completed (R91). -/
def Tile.drained (t : Tile) (before : Nat) : Bool :=
  t.instrs.all (fun i => !(decide (i.id < before) && !i.handler && (i.eng == 0 || i.eng == 1 || i.eng == 3)))

/-- TILE_ARRIVAL (R91, R92, R168, R171): the waits of DRAIN are over: the tile signals its arrival, or ends its main context.
A debug stop and a fault hold it back. -/
def execTileArrival (n : Nat) (s : State) : Res :=
  onTile n 0 (
    match (s.ctx n 0).wait, s.partOf n with
    | .drain kind sd before, some p =>
      let t := s.tile n
      let l := add32 t.flight 1
      if !s.alive n || t.dbgStop || !t.drained before then s
      else if kind = 2 then ((s.setWait n 0 .ended).landGroup p).checkEnd p
      else if 0 < diff32 (add32 l (2 ^ 32 - 4)) (s.g F.LAND_NUM_DONE p) then s
      else
        let s := (s.inc F.XC_LAND_WAIT_COUNT n 0 (s.cyclesSince (n / 64) t.main.since)).arrive n p
        let s := if kind = 0 then s.setWait n 0 (.held l) else (s.setWait n 0 .run).setSreg n 0 sd (BitVec.ofNat 48 l)
        s.landGroup p
    | _, _ => s)

/-! Segments (R93, R138, R139). -/

/-- SEG on (R93): the named segments that are down begin their clear, and the context waits for them. -/
def execSegOn (n c : Nat) (s : State) : Res :=
  onTile n c (s.issuePlain n c .segOn (fun s w =>
    let m := fld (Ins.imm w) 1 7 * 2
    let on := s.g F.TILE_SEG_ON n
    let need := (List.range 8).foldl (fun a k => if m / 2 ^ k % 2 = 1 ∧ on / 2 ^ k % 2 = 0 then a + 2 ^ k else a) 0
    if need = 0 then s
    else (s.w F.TILE_SEG_CLEARING n 0 (s.g F.TILE_SEG_CLEARING n ||| need)).setWait n c (.segOn m)))

/-- SEGMENT_CLEAR_DONE (R139): the clear of segment k ends: its words are clean zeros and it counts as powered. -/
def execSegmentClearDone (n k : Nat) (s : State) : Res :=
  onTile n 0 (
    let cl := s.g F.TILE_SEG_CLEARING n
    if 8 ≤ k ∨ cl / 2 ^ k % 2 = 0 then s
    else
      let s := (s.w F.TILE_SEG_CLEARING n 0 (cl - 2 ^ k)).w F.TILE_SEG_ON n 0 (s.g F.TILE_SEG_ON n ||| 2 ^ k)
      let s := s.upTile n (fun t => { t with mem := Sparse.dropRange t.mem (k * segWords) ((k + 1) * segWords) })
      match (s.ctx n 0).wait with
      | .segOn m => if (s.g F.TILE_SEG_ON n &&& m) = m then s.setWait n 0 .run else s
      | _ => s)

/-- SEG off (R93): the context waits until nothing names the segments. -/
def execSegOff (n c : Nat) (s : State) : Res :=
  onTile n c (s.issuePlain n c .segOff (fun s w =>
    let m := fld (Ins.imm w) 1 7 * 2 &&& s.g F.TILE_SEG_ON n
    if m = 0 then s else s.setWait n c (.segOff m)))

/-- Whether a word range touches a segment of a mask. -/
def touchesSegs (m base limit : Nat) : Bool :=
  (List.range 8).any (fun k => m / 2 ^ k % 2 == 1 && overlaps base limit (k * segWords) ((k + 1) * segWords))

/-- Whether a scoreboard entry or a queued descriptor names a word of the segments (R93). -/
def Tile.segsNamed (t : Tile) (m : Nat) : Bool :=
  t.sb.any (fun e => touchesSegs m e.base e.limit) ||
  (t.instrs.filter (·.inQueue)).any (fun i => (engRegions i.eng i.func i.desc i.vl).any (fun r => touchesSegs m r.base r.limit))

/-- SEGMENT_POWER_DOWN (R93, R139): nothing names the segments: the alcoves that touch them close under R149, and once their accepted
accesses have written, power is removed and the contents are lost. -/
def execSegmentPowerDown (n : Nat) (s : State) : Res :=
  onTile n 0 (
    match (s.ctx n 0).wait with
    | .segOff m =>
      if !s.alive n || (s.tile n).segsNamed m then s
      else
        let ks := (List.range 16).filter (fun k => touchesSegs m (Alc.base (s.alcDesc n k)) (Alc.limit (s.alcDesc n k)))
        let s := ks.foldl (fun s k => s.alcShut n k) s
        if ks.any (fun k => (s.tile n).alcBusy k) then s
        else
          let s := (s.w F.TILE_SEG_ON n 0 (s.g F.TILE_SEG_ON n - (s.g F.TILE_SEG_ON n &&& m))).upTile n (fun t =>
            { t with mem := t.mem.filter (fun e => m / 2 ^ (e.1 / segWords) % 2 == 0), wb := t.wb.filter (fun e => m / 2 ^ (e.1 / segWords) % 2 == 0) })
          s.setWait n 0 .run
    | _ => s)

/-! Stalled dispatches and fetch (R70, R80). -/

/-- The counter a dispatch stall adds to (Table 3.13). -/
def stallReg (why : Nat) : Fld := match why with | 0 => F.SEQ_STALL_QFULL_COUNT | 1 => F.SEQ_STALL_SBFULL_COUNT | _ => F.SEQ_STALL_DATA_COUNT

/-- The dispatch effect of an engine instruction word, by its row. -/
def State.redispatch (s : State) (n c w : Nat) : State :=
  match kindOf w with
  | .mx => s.dispatch n c w 0
  | .vx => s.dispatch n c w 1
  | .st => s.dispatch n c w 2
  | .xc => (s.dispatch n c w 3).xcRecvCheck n
  | .alcOpen => s.alcOpenIssue n c w
  | _ => s.msgIssue n c w

/-- DISPATCH_AFTER_STALL (R80): the stalled instruction of context c tries again; its wait is counted by what held it. -/
def execDispatchAfterStall (n c : Nat) (s : State) : Res :=
  onTile n c (
    match (s.ctx n c).wait with
    | .dispatch why w =>
      if !s.alive n || (s.tile n).dbgStop then s
      else
        let s := s.inc (stallReg why) n 0 (s.cyclesSince (n / 64) (s.ctx n c).since)
        (s.setWait n c .run).perform n c (s.ctx n c).pc (fun s => s.redispatch n c w)
    | _ => s)

/-- Whether a context executes: a main context launched and not ended, a handler context with a handler (R70). -/
def Wait.executes (w : Wait) : Bool := w != .off && w != .idle && w != .ended

/-- Whether a fill of line k is wanted: a context waits for it, or it follows the line a context executes from and holds code (R70). -/
def State.fillWanted (s : State) (n k : Nat) : Bool :=
  [0, 1].any (fun c => (s.ctx n c).wait == .fill k) ||
  ([0, 1].any (fun c => (s.ctx n c).wait.executes && (s.ctx n c).pc / 32 + 1 == k) && ((s.tile n).fetched (32 * k)).isNone && inCode s n (32 * k))

/-- FETCH_LINE_FILL (R70): the line's 16 words are read from segment 0; words that deliver poison are held as poisoned. (DEDUCED, unsafe: log 46) -/
def execFetchLineFill (n k : Nat) (s : State) : Res :=
  onTile n 0 (
    if !s.alive n || !s.fillWanted n k || decide (padWords < 16 * k + 16) then s
    else
      let r := s.readWords n 6 (s.tile n).flight ((List.range 16).map (16 * k + ·))
      let hs := r.2.flatMap (fun w => [BitVec.ofNat 48 w.1, BitVec.ofNat 48 (w.1 / 2 ^ 48)])
      let bad := (r.2.zipIdx.filter (fun p => p.1.2)).map (·.2)
      let s := r.1.upTile n (fun t => { t with lines := Sparse.insert t.lines (k % 64) (k, hs, bad) })
      [0, 1].foldl (fun s c => if (s.ctx n c).wait = .fill k then s.setWait n c .run else s) s)

end Sys2Proof.Machine
end

