-- ==== Sys2Proof/Machine/SyncPins.lean ====
section
/-! DEFINITION. The SYNC inputs (spec 06_flights_landings_exchange.md, R188, R190, R191): input 0 is SYNC_IN_DN, 1 is SYNC_IN_UP. -/

namespace Sys2Proof.Machine

/-- Whether the bound SYNC logic watches an input: its side is not the chain's open end and it is not STUCK. -/
def State.syncWatches (s : State) (pin : Nat) : Bool :=
  s.g F.SYNC_CFG_ENABLE 0 == 1 &&
  (if pin = 0 then s.g F.SYNC_CFG_FIRST 0 == 0 && s.g F.SYNC_STATUS_STUCK_DN 0 == 0
   else s.g F.SYNC_CFG_LAST 0 == 0 && s.g F.SYNC_STATUS_STUCK_UP 0 == 0)

/-- SYNC_PULSE (R188, R190, R191): a qualified pulse is counted and the chain logic evaluated; one more than 4 landings ahead is not counted. -/
def execSyncPulse (pin : Nat) (s : State) : Res :=
  if 2 ≤ pin then .fault .noSuchUnit
  else .next (
    let p := s.g F.SYNC_CFG_PART 0
    let f := if pin = 0 then F.SYNC_COUNT_DNCOUNT else F.SYNC_COUNT_UPCOUNT
    let c := add32 (s.g f 0) 1
    if !s.syncWatches pin then s
    else if 4 < diff32 c (s.g F.LAND_NUM_DONE p) then
      ((s.w F.SYNC_STATUS_EXCESS 0 0 1).partFault p).event (some p) 0x8107 [(pin, 1)]
    else (s.w f 0 0 c).landGroup p)

/-- SYNC_GLITCH (R190): a pulse too short or too close to the one before is ignored and counted. -/
def execSyncGlitch (pin : Nat) (s : State) : Res :=
  if 2 ≤ pin then .fault .noSuchUnit
  else .next (if s.syncWatches pin then s.inc F.SYNC_GLITCH_COUNT 0 0 1 else s)

/-- STUCK_SYNC (R191): an input has stayed active for longer than LAND.CTRL.TIMEOUT. -/
def execStuckSync (pin : Nat) (s : State) : Res :=
  if 2 ≤ pin then .fault .noSuchUnit
  else .next (
    if s.syncWatches pin then
      (s.w (if pin = 0 then F.SYNC_STATUS_STUCK_DN else F.SYNC_STATUS_STUCK_UP) 0 0 1).event (some (s.g F.SYNC_CFG_PART 0)) 0x8106 [(pin, 1)]
    else s)

/-- STUCK_SYNC_CLEAR (R191): a stuck input has been inactive for 1 µs. -/
def execStuckSyncClear (pin : Nat) (s : State) : Res :=
  if 2 ≤ pin then .fault .noSuchUnit
  else .next (s.w (if pin = 0 then F.SYNC_STATUS_STUCK_DN else F.SYNC_STATUS_STUCK_UP) 0 0 0)

end Sys2Proof.Machine
end

