-- ==== Sys2Proof/Machine/Dispatch.lean ====
section
/-! DEFINITION. Which meaning each command has: one arm per constructor of Instr, in the order of spec/opcode_table.json. -/

namespace Sys2Proof.Machine

def exec (i : Instr) (s : State) : Host.Outcome State Fault Refusal :=
  match i with
  | .illegal n c => Sys2Proof.Machine.execIllegal n c s
  | .alu n c => Sys2Proof.Machine.execAlu n c s
  | .alui n c => Sys2Proof.Machine.execAlui n c s
  | .li n c => Sys2Proof.Machine.execLi n c s
  | .cmp n c => Sys2Proof.Machine.execCmp n c s
  | .cmpi n c => Sys2Proof.Machine.execCmpi n c s
  | .plog n c => Sys2Proof.Machine.execPlog n c s
  | .muldiv n c => Sys2Proof.Machine.execMuldiv n c s
  | .ldh n c => Sys2Proof.Machine.execLdh n c s
  | .sth n c => Sys2Proof.Machine.execSth n c s
  | .lde n c => Sys2Proof.Machine.execLde n c s
  | .ste n c => Sys2Proof.Machine.execSte n c s
  | .mfs n c => Sys2Proof.Machine.execMfs n c s
  | .mts n c => Sys2Proof.Machine.execMts n c s
  | .setvl n c => Sys2Proof.Machine.execSetvl n c s
  | .br n c => Sys2Proof.Machine.execBr n c s
  | .call n c => Sys2Proof.Machine.execCall n c s
  | .jr n c => Sys2Proof.Machine.execJr n c s
  | .loop n c => Sys2Proof.Machine.execLoop n c s
  | .callr n c => Sys2Proof.Machine.execCallr n c s
  | .mx n c => Sys2Proof.Machine.execMx n c s
  | .vx n c => Sys2Proof.Machine.execVx n c s
  | .st n c => Sys2Proof.Machine.execSt n c s
  | .xc n c => Sys2Proof.Machine.execXc n c s
  | .send n c => Sys2Proof.Machine.execSend n c s
  | .openOut n c => Sys2Proof.Machine.execOpenOut n c s
  | .openIn n c => Sys2Proof.Machine.execOpenIn n c s
  | .closeOut n c => Sys2Proof.Machine.execCloseOut n c s
  | .closeIn n c => Sys2Proof.Machine.execCloseIn n c s
  | .alcOpen n c => Sys2Proof.Machine.execAlcOpen n c s
  | .alcClose n c => Sys2Proof.Machine.execAlcClose n c s
  | .nop n c => Sys2Proof.Machine.execNop n c s
  | .land n c => Sys2Proof.Machine.execLand n c s
  | .landOpen n c => Sys2Proof.Machine.execLandOpen n c s
  | .waitLand n c => Sys2Proof.Machine.execWaitLand n c s
  | .fence n c => Sys2Proof.Machine.execFence n c s
  | .halt n c => Sys2Proof.Machine.execHalt n c s
  | .hret n c => Sys2Proof.Machine.execHret n c s
  | .segOn n c => Sys2Proof.Machine.execSegOn n c s
  | .segOff n c => Sys2Proof.Machine.execSegOff n c s
  | .dispatchAfterStall n c => Sys2Proof.Machine.execDispatchAfterStall n c s
  | .fetchLineFill n k => Sys2Proof.Machine.execFetchLineFill n k s
  | .tileArrival n => Sys2Proof.Machine.execTileArrival n s
  | .fenceDone n c => Sys2Proof.Machine.execFenceDone n c s
  | .segmentClearDone n k => Sys2Proof.Machine.execSegmentClearDone n k s
  | .segmentPowerDown n => Sys2Proof.Machine.execSegmentPowerDown n s
  | .alcoveCloseRetire n c => Sys2Proof.Machine.execAlcoveCloseRetire n c s
  | .closeOutRetire n => Sys2Proof.Machine.execCloseOutRetire n s
  | .closeInRetire n => Sys2Proof.Machine.execCloseInRetire n s
  | .handlerEntry n => Sys2Proof.Machine.execHandlerEntry n s
  | .mxStart n => Sys2Proof.Machine.execMxStart n s
  | .mxKstep n => Sys2Proof.Machine.execMxKstep n s
  | .mxDrainEnd n => Sys2Proof.Machine.execMxDrainEnd n s
  | .vxStart n c => Sys2Proof.Machine.execVxStart n c s
  | .vxDone n c => Sys2Proof.Machine.execVxDone n c s
  | .stStart n id => Sys2Proof.Machine.execStStart n id s
  | .stWordGroupArrival n id => Sys2Proof.Machine.execStWordGroupArrival n id s
  | .stWriteAck n => Sys2Proof.Machine.execStWriteAck n s
  | .xcStart n => Sys2Proof.Machine.execXcStart n s
  | .xcEntrySend n => Sys2Proof.Machine.execXcEntrySend n s
  | .exchangeDelivery idx => Sys2Proof.Machine.execExchangeDelivery idx s
  | .xcAck idx => Sys2Proof.Machine.execXcAck idx s
  | .multicastRoot idx => Sys2Proof.Machine.execMulticastRoot idx s
  | .reductionContribution idx => Sys2Proof.Machine.execReductionContribution idx s
  | .meshPacket idx => Sys2Proof.Machine.execMeshPacket idx s
  | .messageSend n c cls => Sys2Proof.Machine.execMessageSend n c cls s
  | .messageArrival idx => Sys2Proof.Machine.execMessageArrival idx s
  | .wrapMarker idx => Sys2Proof.Machine.execWrapMarker idx s
  | .doorbell idx => Sys2Proof.Machine.execDoorbell idx s
  | .messageLastWord n k => Sys2Proof.Machine.execMessageLastWord n k s
  | .messageAck idx => Sys2Proof.Machine.execMessageAck idx s
  | .creditReturn idx => Sys2Proof.Machine.execCreditReturn idx s
  | .openingGrant idx => Sys2Proof.Machine.execOpeningGrant idx s
  | .heldDeliveryResume idx => Sys2Proof.Machine.execHeldDeliveryResume idx s
  | .spill n k => Sys2Proof.Machine.execSpill n k s
  | .spillCopyDone n => Sys2Proof.Machine.execSpillCopyDone n s
  | .spillReadback n => Sys2Proof.Machine.execSpillReadback n s
  | .correctionWriteBack n a => Sys2Proof.Machine.execCorrectionWriteBack n a s
  | .scrubRead n => Sys2Proof.Machine.execScrubRead n s
  | .scrubForced n => Sys2Proof.Machine.execScrubForced n s
  | .galleryScrubRead h k => Sys2Proof.Machine.execGalleryScrubRead h k s
  | .galleryScrubForced h k => Sys2Proof.Machine.execGalleryScrubForced h k s
  | .hallClearDone h words lines cells => Sys2Proof.Machine.execHallClearDone h words lines cells s
  | .creationAfterRelease p => Sys2Proof.Machine.execCreationAfterRelease p s
  | .landingComplete p => Sys2Proof.Machine.execLandingComplete p s
  | .landingTimeout p l => Sys2Proof.Machine.execLandingTimeout p l s
  | .syncPulse pin => Sys2Proof.Machine.execSyncPulse pin s
  | .syncGlitch pin => Sys2Proof.Machine.execSyncGlitch pin s
  | .stuckSync pin => Sys2Proof.Machine.execStuckSync pin s
  | .stuckSyncClear pin => Sys2Proof.Machine.execStuckSyncClear pin s
  | .lineReadRequest n id a => Sys2Proof.Machine.execLineReadRequest n id a s
  | .lineWriteRequest n => Sys2Proof.Machine.execLineWriteRequest n s
  | .frameLineRead f l => Sys2Proof.Machine.execFrameLineRead f l s
  | .fillLineArrival h k l => Sys2Proof.Machine.execFillLineArrival h k l s
  | .writeBackDone h k => Sys2Proof.Machine.execWriteBackDone h k s
  | .pageMapCut => Sys2Proof.Machine.execPageMapCut s
  | .prefetchBlockPlaced p j num => Sys2Proof.Machine.execPrefetchBlockPlaced p j num s
  | .copyDone e => Sys2Proof.Machine.execCopyDone e s
  | .repairTimeout e l => Sys2Proof.Machine.execRepairTimeout e l s
  | .repairPageCopyDone e => Sys2Proof.Machine.execRepairPageCopyDone e s
  | .patrolScrub m => Sys2Proof.Machine.execPatrolScrub m s
  | .mr4Readout m codes temp => Sys2Proof.Machine.execMr4Readout m codes temp s
  | .refresh m die rfm => Sys2Proof.Machine.execRefresh m die rfm s
  | .contributionWrite n => Sys2Proof.Machine.execContributionWrite n s
  | .heldLineAccept p j => Sys2Proof.Machine.execHeldLineAccept p j s
  | .bucketStart p b => Sys2Proof.Machine.execBucketStart p b s
  | .bucketPublish p => Sys2Proof.Machine.execBucketPublish p s
  | .noticeDelivery idx => Sys2Proof.Machine.execNoticeDelivery idx s
  | .collectiveSlow p b => Sys2Proof.Machine.execCollectiveSlow p b s
  | .permuteStart p => Sys2Proof.Machine.execPermuteStart p s
  | .replayNotice p k => Sys2Proof.Machine.execReplayNotice p k s
  | .doneWrite n => Sys2Proof.Machine.execDoneWrite n s
  | .linkLost p => Sys2Proof.Machine.execLinkLost p s
  | .snapshotPageSent p => Sys2Proof.Machine.execSnapshotPageSent p s
  | .riskIndexUpdate fec mem => Sys2Proof.Machine.execRiskIndexUpdate fec mem s
  | .restoreShadowDone p step epoch pages => Sys2Proof.Machine.execRestoreShadowDone p step epoch pages s
  | .swtWrite f => Sys2Proof.Machine.execSwtWrite f s
  | .swtRead f => Sys2Proof.Machine.execSwtRead f s
  | .readResp f => Sys2Proof.Machine.execReadResp f s
  | .swtMsg f => Sys2Proof.Machine.execSwtMsg f s
  | .dack f => Sys2Proof.Machine.execDack f s
  | .credit f => Sys2Proof.Machine.execCredit f s
  | .landPacket f => Sys2Proof.Machine.execLandPacket f s
  | .coll f => Sys2Proof.Machine.execColl f s
  | .repair f => Sys2Proof.Machine.execRepair f s
  | .repairResp f => Sys2Proof.Machine.execRepairResp f s
  | .keepalive f => Sys2Proof.Machine.execKeepalive f s
  | .partEnd f => Sys2Proof.Machine.execPartEnd f s
  | .spAck f => Sys2Proof.Machine.execSpAck f s
  | .spRecord f => Sys2Proof.Machine.execSpRecord f s
  | .spPage f => Sys2Proof.Machine.execSpPage f s
  | .spDigest f => Sys2Proof.Machine.execSpDigest f s
  | .ack f => Sys2Proof.Machine.execAck f s
  | .ackTimer ctx cls => Sys2Proof.Machine.execAckTimer ctx cls s
  | .retransmitTimeout ctx => Sys2Proof.Machine.execRetransmitTimeout ctx s
  | .creditPacketTimer ctx => Sys2Proof.Machine.execCreditPacketTimer ctx s
  | .contextDownTimer ctx => Sys2Proof.Machine.execContextDownTimer ctx s
  | .keepaliveTimer ctx => Sys2Proof.Machine.execKeepaliveTimer ctx s
  | .roceSend k => Sys2Proof.Machine.execRoceSend k s
  | .sendWithImmediate k => Sys2Proof.Machine.execSendWithImmediate k s
  | .rdmaWrite k => Sys2Proof.Machine.execRdmaWrite k s
  | .rdmaWriteWithImmediate k => Sys2Proof.Machine.execRdmaWriteWithImmediate k s
  | .rdmaRead k => Sys2Proof.Machine.execRdmaRead k s
  | .roceAck n psn e => Sys2Proof.Machine.execRoceAck n psn e s
  | .roceNak n psn code rnr e => Sys2Proof.Machine.execRoceNak n psn code rnr e s
  | .readResponse n psn data e => Sys2Proof.Machine.execReadResponse n psn data e s
  | .localAckTimeout n => Sys2Proof.Machine.execLocalAckTimeout n s
  | .cnp n e => Sys2Proof.Machine.execCnp n e s
  | .cnpRateTimer n => Sys2Proof.Machine.execCnpRateTimer n s
  | .ptpEventMessage x kind domain seq t => Sys2Proof.Machine.execPtpEventMessage x kind domain seq t s
  | .neighbourDiscovery x v6 own asker => Sys2Proof.Machine.execNeighbourDiscovery x v6 own asker s
  | .pfcFrame x enable times => Sys2Proof.Machine.execPfcFrame x enable times s
  | .droppedFrame x pause unc => Sys2Proof.Machine.execDroppedFrame x pause unc s
  | .linkUp x => Sys2Proof.Machine.execLinkUp x s
  | .linkDown x lfault rfault => Sys2Proof.Machine.execLinkDown x lfault rfault s
  | .takePacket => Sys2Proof.Machine.execTakePacket s
  | .tailDoorbell q v => Sys2Proof.Machine.execTailDoorbell q v s
  | .cheadDoorbell q v => Sys2Proof.Machine.execCheadDoorbell q v s
  | .eheadDoorbell q r v => Sys2Proof.Machine.execEheadDoorbell q r v s
  | .outputLineCopy p => Sys2Proof.Machine.execOutputLineCopy p s
  | .nopCommand h => Sys2Proof.Machine.execNopCommand h s
  | .devQuery h hbuf off => Sys2Proof.Machine.execDevQuery h hbuf off s
  | .queueCreate h queue logslots cring => Sys2Proof.Machine.execQueueCreate h queue logslots cring s
  | .queueDestroy h queue => Sys2Proof.Machine.execQueueDestroy h queue s
  | .qpCreate h kind queue port gidx retry rnr mtu rqpn spsn rpsn rgid => Sys2Proof.Machine.execQpCreate h kind queue port gidx retry rnr mtu rqpn spsn rpsn rgid s
  | .qpDestroy h qpn => Sys2Proof.Machine.execQpDestroy h qpn s
  | .evringSet h hbuf logrec => Sys2Proof.Machine.execEvringSet h hbuf logrec s
  | .eventMask h mask => Sys2Proof.Machine.execEventMask h mask s
  | .warmReset h => Sys2Proof.Machine.execWarmReset h s
  | .partCreate h adopt quota mask => Sys2Proof.Machine.execPartCreate h adopt quota mask s
  | .partRelease h => Sys2Proof.Machine.execPartRelease h s
  | .partKill h capture cbase => Sys2Proof.Machine.execPartKill h capture cbase s
  | .partQuery h => Sys2Proof.Machine.execPartQuery h s
  | .shareOffer h share other => Sys2Proof.Machine.execShareOffer h share other s
  | .shareEnd h share => Sys2Proof.Machine.execShareEnd h share s
  | .peergroupSet h group ctxs => Sys2Proof.Machine.execPeergroupSet h group ctxs s
  | .landgroupSet h mode flags rank size ctxs => Sys2Proof.Machine.execLandgroupSet h mode flags rank size ctxs s
  | .imageLoad h src len img => Sys2Proof.Machine.execImageLoad h src len img s
  | .launch h => Sys2Proof.Machine.execLaunch h s
  | .outputSet h hbuf obase olen => Sys2Proof.Machine.execOutputSet h hbuf obase olen s
  | .pageMap h page n rs => Sys2Proof.Machine.execPageMap h page n rs s
  | .pageFree h page n all => Sys2Proof.Machine.execPageFree h page n all s
  | .pageAttr h page n rs => Sys2Proof.Machine.execPageAttr h page n rs s
  | .regionReg h kind access tile base len => Sys2Proof.Machine.execRegionReg h kind access tile base len s
  | .regionDereg h rkey => Sys2Proof.Machine.execRegionDereg h rkey s
  | .hostbufReg h qpn rkey raddr len => Sys2Proof.Machine.execHostbufReg h qpn rkey raddr len s
  | .hostbufDereg h hbuf => Sys2Proof.Machine.execHostbufDereg h hbuf s
  | .prefetchSet h nent period ahead sbase => Sys2Proof.Machine.execPrefetchSet h nent period ahead sbase s
  | .copypoolSet h frames => Sys2Proof.Machine.execCopypoolSet h frames s
  | .peerAdd h ctx rport rctx pmax enc spray raddr => Sys2Proof.Machine.execPeerAdd h ctx rport rctx pmax enc spray raddr s
  | .peerRemove h ctx => Sys2Proof.Machine.execPeerRemove h ctx s
  | .peerKeyWrite h ctx slot dir salt key => Sys2Proof.Machine.execPeerKeyWrite h ctx slot dir salt key s
  | .peerKeySend h ctx slot dir salt key => Sys2Proof.Machine.execPeerKeySend h ctx slot dir salt key s
  | .peerKeyRetire h ctx slot dir salt key => Sys2Proof.Machine.execPeerKeyRetire h ctx slot dir salt key s
  | .collGroup h rank size node prev next ctxs => Sys2Proof.Machine.execCollGroup h rank size node prev next ctxs s
  | .planSet h nbuck btab cbase climit rbase rhalf => Sys2Proof.Machine.execPlanSet h nbuck btab cbase climit rbase rhalf s
  | .shardReg h shard group fmt epoch step elems slot0 slot1 => Sys2Proof.Machine.execShardReg h shard group fmt epoch step elems slot0 slot1 s
  | .shardDereg h shard => Sys2Proof.Machine.execShardDereg h shard s
  | .tensorReg h entries => Sys2Proof.Machine.execTensorReg h entries s
  | .tensorSet h index force rate => Sys2Proof.Machine.execTensorSet h index force rate s
  | .linkOut h ctx => Sys2Proof.Machine.execLinkOut h ctx s
  | .linkIn h link lsteps ntile shpage shn naddr lbase done => Sys2Proof.Machine.execLinkIn h link lsteps ntile shpage shn naddr lbase done s
  | .linkRemove h link => Sys2Proof.Machine.execLinkRemove h link s
  | .snapbufSet h hbufA hbufB => Sys2Proof.Machine.execSnapbufSet h hbufA hbufB s
  | .snapshotNow h => Sys2Proof.Machine.execSnapshotNow h s
  | .restoreShadow h first count ctx => Sys2Proof.Machine.execRestoreShadow h first count ctx s
  | .restoreSnap h buf => Sys2Proof.Machine.execRestoreSnap h buf s
  | .telemRead h kind id hbuf off => Sys2Proof.Machine.execTelemRead h kind id hbuf off s
  | .evlogRead h start count hbuf off => Sys2Proof.Machine.execEvlogRead h start count hbuf off s
  | .sensorRead h hbuf off => Sys2Proof.Machine.execSensorRead h hbuf off s
  | .mctpPass h hbuf off msg => Sys2Proof.Machine.execMctpPass h hbuf off msg s
  | .fwUpdate h hbuf len => Sys2Proof.Machine.execFwUpdate h hbuf len s
  | .boot reached v1 v2 fails => Sys2Proof.Machine.execBoot reached v1 v2 fails s
  | .bootWatchdog => Sys2Proof.Machine.execBootWatchdog s
  | .holdupMeasure reached v1 v2 op => Sys2Proof.Machine.execHoldupMeasure reached v1 v2 op s
  | .flashSequenceEnd => Sys2Proof.Machine.execFlashSequenceEnd s
  | .logRetry => Sys2Proof.Machine.execLogRetry s
  | .sensorPoll num v => Sys2Proof.Machine.execSensorPoll num v s
  | .pcapTick => Sys2Proof.Machine.execPcapTick s
  | .throttleReportTimer => Sys2Proof.Machine.execThrottleReportTimer s
  | .setEndpointId op eid => Sys2Proof.Machine.execSetEndpointId op eid s
  | .getEndpointId => Sys2Proof.Machine.execGetEndpointId s
  | .getEndpointUuid => Sys2Proof.Machine.execGetEndpointUuid s
  | .getMctpVersionSupport ty => Sys2Proof.Machine.execGetMctpVersionSupport ty s
  | .getMessageTypeSupport => Sys2Proof.Machine.execGetMessageTypeSupport s
  | .getVendorDefinedMessageSupport sel => Sys2Proof.Machine.execGetVendorDefinedMessageSupport sel s
  | .getTid => Sys2Proof.Machine.execGetTid s
  | .setTid tid => Sys2Proof.Machine.execSetTid tid s
  | .getPldmVersion ty => Sys2Proof.Machine.execGetPldmVersion ty s
  | .getPldmTypes => Sys2Proof.Machine.execGetPldmTypes s
  | .getPldmCommands ty ver => Sys2Proof.Machine.execGetPldmCommands ty ver s
  | .getPdrRepositoryInfo => Sys2Proof.Machine.execGetPdrRepositoryInfo s
  | .getPdr handle xfer flag count change => Sys2Proof.Machine.execGetPdr handle xfer flag count change s
  | .getSensorReading id rearm => Sys2Proof.Machine.execGetSensorReading id rearm s
  | .setEventReceiver mode proto eid => Sys2Proof.Machine.execSetEventReceiver mode proto eid s
  | .queryDeviceIdentifiers => Sys2Proof.Machine.execQueryDeviceIdentifiers s
  | .getFirmwareParameters => Sys2Proof.Machine.execGetFirmwareParameters s
  | .requestUpdate maxXfer comps outstanding => Sys2Proof.Machine.execRequestUpdate maxXfer comps outstanding s
  | .passComponentTable flag cls comp => Sys2Proof.Machine.execPassComponentTable flag cls comp s
  | .updateComponent cls comp idx stamp size => Sys2Proof.Machine.execUpdateComponent cls comp idx stamp size s
  | .requestFirmwareData cc data => Sys2Proof.Machine.execRequestFirmwareData cc data s
  | .activateFirmware selfContained => Sys2Proof.Machine.execActivateFirmware selfContained s
  | .getStatus => Sys2Proof.Machine.execGetStatus s
  | .cancelUpdateComponent => Sys2Proof.Machine.execCancelUpdateComponent s
  | .cancelUpdate => Sys2Proof.Machine.execCancelUpdate s
  | .getVersion => Sys2Proof.Machine.execGetVersion s
  | .getCapabilities flags xfer msg => Sys2Proof.Machine.execGetCapabilities flags xfer msg s
  | .negotiateAlgorithms spec asym hash => Sys2Proof.Machine.execNegotiateAlgorithms spec asym hash s
  | .getDigests => Sys2Proof.Machine.execGetDigests s
  | .getCertificate slot off len => Sys2Proof.Machine.execGetCertificate slot off len s
  | .challenge slot meas nonce => Sys2Proof.Machine.execChallenge slot meas nonce s
  | .getMeasurements signed op nonce slot => Sys2Proof.Machine.execGetMeasurements signed op nonce slot s
  | .regRead a => Sys2Proof.Machine.execRegRead a s
  | .regWrite a v => Sys2Proof.Machine.execRegWrite a v s
  | .hallClkWrite h v => Sys2Proof.Machine.execHallClkWrite h v s
  | .clockChangeDone h => Sys2Proof.Machine.execClockChangeDone h s
  | .tstatClear n bits => Sys2Proof.Machine.execTstatClear n bits s
  | .srSeedWrite n seed => Sys2Proof.Machine.execSrSeedWrite n seed s
  | .dbgStop n => Sys2Proof.Machine.execDbgStop n s
  | .dbgGo n => Sys2Proof.Machine.execDbgGo n s
  | .dbgStep n => Sys2Proof.Machine.execDbgStep n s
  | .landCtrlWrite p v => Sys2Proof.Machine.execLandCtrlWrite p v s
  | .portModeWrite p mode => Sys2Proof.Machine.execPortModeWrite p mode s
  | .ptpDiscWrite p on => Sys2Proof.Machine.execPtpDiscWrite p on s
  | .aqpCreate => Sys2Proof.Machine.execAqpCreate s
  | .faultClear failed => Sys2Proof.Machine.execFaultClear failed s
  | .registerWrite a v => Sys2Proof.Machine.execRegisterWrite a v s
  | .readClear a => Sys2Proof.Machine.execReadClear a s
  | .modPwrenAssert => Sys2Proof.Machine.execModPwrenAssert s
  | .modPwrenDeassert => Sys2Proof.Machine.execModPwrenDeassert s
  | .inputPowerLoss => Sys2Proof.Machine.execInputPowerLoss s
  | .endOfReset addr => Sys2Proof.Machine.execEndOfReset addr s
  | .modResetNLow => Sys2Proof.Machine.execModResetNLow s
  | .resetGlitch => Sys2Proof.Machine.execResetGlitch s
  | .throttleAssert => Sys2Proof.Machine.execThrottleAssert s
  | .throttleRelease => Sys2Proof.Machine.execThrottleRelease s
  | .throttleGlitch => Sys2Proof.Machine.execThrottleGlitch s
  | .ppsEdge => Sys2Proof.Machine.execPpsEdge s
  | .ppsGlitch => Sys2Proof.Machine.execPpsGlitch s
  | .ppsLost => Sys2Proof.Machine.execPpsLost s
  | .refclkLoss => Sys2Proof.Machine.execRefclkLoss s
  | .refclkRestored => Sys2Proof.Machine.execRefclkRestored s
  | .smbusStuck => Sys2Proof.Machine.execSmbusStuck s
  | .thermTrip num reached v1 v2 => Sys2Proof.Machine.execThermTrip num reached v1 v2 s
  | .hardwareTrip num => Sys2Proof.Machine.execHardwareTrip num s
  | .bypass => Sys2Proof.Machine.execBypass s
  | .idcode => Sys2Proof.Machine.execIdcode s
  | .samplePreload load => Sys2Proof.Machine.execSamplePreload load s
  | .extest => Sys2Proof.Machine.execExtest s
  | .extestPulse => Sys2Proof.Machine.execExtestPulse s
  | .extestTrain => Sys2Proof.Machine.execExtestTrain s
  | .clamp => Sys2Proof.Machine.execClamp s
  | .highz => Sys2Proof.Machine.execHighz s
  | .hallFieldFailure h => Sys2Proof.Machine.execHallFieldFailure h s
  | .inputPowerApplied => Sys2Proof.Machine.execInputPowerApplied s
  | .powerUpAfterPowerDown => Sys2Proof.Machine.execPowerUpAfterPowerDown s
  | .pfcPauseExpiry x k => Sys2Proof.Machine.execPfcPauseExpiry x k s
  | .rnrRetryTimer n => Sys2Proof.Machine.execRnrRetryTimer n s
  | .entdaa addr => Sys2Proof.Machine.execEntdaa addr s
  | .setdasa addr => Sys2Proof.Machine.execSetdasa addr s

end Sys2Proof.Machine
end

