-- ==== Sys2Proof/Machine/Tick.lean ====
section
/-! DEFINITION. What happens while no command waits: the time base runs (spec 00, R9) and is slewed (spec 15, R379), and an activation that waits for the last partition
to end takes place (spec 14, R360). -/

namespace Sys2Proof.Machine

/-- The time base counts one nanosecond. While a correction is being slewed, one count in 1,000 counts twice or not at all; at other times its
rate is corrected in the same way. (DESIGN CHOICE, unsafe: log 4) -/
def State.tick (s : State) : State :=
  let w := s.power
  if w.slew = 0 then
    let a := w.rateAcc + w.rate
    if a ≤ -1000000000 then { s with power := { w with rateAcc := a + 1000000000 } }
    else if 1000000000 ≤ a then { s with now := s.now + 2, power := { w with rateAcc := a - 1000000000 } }
    else { s with now := s.now + 1, power := { w with rateAcc := a } }
  else if w.slewTick < 999 then { s with now := s.now + 1, power := { w with slewTick := w.slewTick + 1 } }
  else if 0 < w.slew then { s with now := s.now + 2, power := { w with slewTick := 0, slew := w.slew - 1 } }
  else { s with power := { w with slewTick := 0, slew := w.slew + 1 } }
/-- The block idles: time passes. ActivateFirmware's warm reset follows once no partition and no in-band answer holds it back. -/
def State.idle (s : State) : State :=
  if s.foyer.running.any (fun c => c.op == 0x0700) then s.tick else s.tick.activateNow

end Sys2Proof.Machine
end

