-- ==== Sys2Proof/WellFormed.lean ====
section
/-! DEFINITION. When a command names only units that the module has: tiles 0–4,607 of two contexts, halls 0–71, partitions 0–7 and so on (spec 01, 05, 08,
12, 13, 14). A command that is not well-formed faults with noSuchUnit; a well-formed one always answers a next state. -/

namespace Sys2Proof

def tileOk (n : Nat) : Bool := decide (n < 4608)
/-- 0 the main context, 1 the handler. -/
def ctxOk (c : Nat) : Bool := decide (c < 2)
def hallOk (h : Nat) : Bool := decide (h < 72)
def partOk (p : Nat) : Bool := decide (p < 8)
def queueOk (q : Nat) : Bool := decide (q < 64)
def frameOk (f : Nat) : Bool := decide (f < 466033)
/-- Lines of a frame. -/
def lineOk (l : Nat) : Bool := decide (l < 131072)
/-- Block slots of a gallery. -/
def slotOk (k : Nat) : Bool := decide (k < 768)
/-- Page-map entries. -/
def pageOk (e : Nat) : Bool := decide (e < 524288)
/-- Memory controllers. -/
def memcOk (m : Nat) : Bool := decide (m < 32)
/-- Sub-ports, and those of the fabric ports. -/
def subOk (x : Nat) : Bool := decide (x < 72)
def fabricOk (x : Nat) : Bool := decide (x < 64)
/-- Peer contexts. -/
def peerOk (c : Nat) : Bool := decide (c < 8192)
def qpOk (n : Nat) : Bool := decide (n < 1024)

/-- A command names only units that exist. (DESIGN CHOICE, safe: log 3) -/
def Instr.wf (i : Instr) : Bool :=
  match i with
  | .illegal n c => tileOk n && ctxOk c
  | .alu n c => tileOk n && ctxOk c
  | .alui n c => tileOk n && ctxOk c
  | .li n c => tileOk n && ctxOk c
  | .cmp n c => tileOk n && ctxOk c
  | .cmpi n c => tileOk n && ctxOk c
  | .plog n c => tileOk n && ctxOk c
  | .muldiv n c => tileOk n && ctxOk c
  | .ldh n c => tileOk n && ctxOk c
  | .sth n c => tileOk n && ctxOk c
  | .lde n c => tileOk n && ctxOk c
  | .ste n c => tileOk n && ctxOk c
  | .mfs n c => tileOk n && ctxOk c
  | .mts n c => tileOk n && ctxOk c
  | .setvl n c => tileOk n && ctxOk c
  | .br n c => tileOk n && ctxOk c
  | .call n c => tileOk n && ctxOk c
  | .jr n c => tileOk n && ctxOk c
  | .loop n c => tileOk n && ctxOk c
  | .callr n c => tileOk n && ctxOk c
  | .mx n c => tileOk n && ctxOk c
  | .vx n c => tileOk n && ctxOk c
  | .st n c => tileOk n && ctxOk c
  | .xc n c => tileOk n && ctxOk c
  | .send n c => tileOk n && ctxOk c
  | .openOut n c => tileOk n && ctxOk c
  | .openIn n c => tileOk n && ctxOk c
  | .closeOut n c => tileOk n && ctxOk c
  | .closeIn n c => tileOk n && ctxOk c
  | .alcOpen n c => tileOk n && ctxOk c
  | .alcClose n c => tileOk n && ctxOk c
  | .nop n c => tileOk n && ctxOk c
  | .land n c => tileOk n && ctxOk c
  | .landOpen n c => tileOk n && ctxOk c
  | .waitLand n c => tileOk n && ctxOk c
  | .fence n c => tileOk n && ctxOk c
  | .halt n c => tileOk n && ctxOk c
  | .hret n c => tileOk n && ctxOk c
  | .segOn n c => tileOk n && ctxOk c
  | .segOff n c => tileOk n && ctxOk c
  | .dispatchAfterStall n c => tileOk n && ctxOk c
  | .fetchLineFill n _ => tileOk n
  | .tileArrival n => tileOk n
  | .fenceDone n c => tileOk n && ctxOk c
  | .segmentClearDone n _ => tileOk n
  | .segmentPowerDown n => tileOk n
  | .alcoveCloseRetire n c => tileOk n && ctxOk c
  | .closeOutRetire n => tileOk n
  | .closeInRetire n => tileOk n
  | .handlerEntry n => tileOk n
  | .mxStart n => tileOk n
  | .mxKstep n => tileOk n
  | .mxDrainEnd n => tileOk n
  | .vxStart n c => tileOk n && ctxOk c
  | .vxDone n c => tileOk n && ctxOk c
  | .stStart n _ => tileOk n
  | .stWordGroupArrival n _ => tileOk n
  | .stWriteAck n => tileOk n
  | .xcStart n => tileOk n
  | .xcEntrySend n => tileOk n
  | .exchangeDelivery _ => true
  | .xcAck _ => true
  | .multicastRoot _ => true
  | .reductionContribution _ => true
  | .meshPacket _ => true
  | .messageSend n c _ => tileOk n && ctxOk c
  | .messageArrival _ => true
  | .wrapMarker _ => true
  | .doorbell _ => true
  | .messageLastWord n _ => tileOk n
  | .messageAck _ => true
  | .creditReturn _ => true
  | .openingGrant _ => true
  | .heldDeliveryResume _ => true
  | .spill n _ => tileOk n
  | .spillCopyDone n => tileOk n
  | .spillReadback n => tileOk n
  | .correctionWriteBack n _ => tileOk n
  | .scrubRead n => tileOk n
  | .scrubForced n => tileOk n
  | .galleryScrubRead h k => hallOk h && decide (k < 8)
  | .galleryScrubForced h k => hallOk h && decide (k < 8)
  | .hallClearDone h _ _ _ => hallOk h
  | .creationAfterRelease p => partOk p
  | .landingComplete p => partOk p
  | .landingTimeout p _ => partOk p
  | .syncPulse pin => decide (pin < 2)
  | .syncGlitch pin => decide (pin < 2)
  | .stuckSync pin => decide (pin < 2)
  | .stuckSyncClear pin => decide (pin < 2)
  | .lineReadRequest n _ _ => tileOk n
  | .lineWriteRequest n => tileOk n
  | .frameLineRead f l => frameOk f && lineOk l
  | .fillLineArrival h k l => hallOk h && slotOk k && decide (l < 1024)
  | .writeBackDone h k => hallOk h && slotOk k
  | .pageMapCut => true
  | .prefetchBlockPlaced p _ _ => partOk p
  | .copyDone e => pageOk e
  | .repairTimeout e l => pageOk e && lineOk l
  | .repairPageCopyDone e => pageOk e
  | .patrolScrub m => memcOk m
  | .mr4Readout m _ _ => memcOk m
  | .refresh m die _ => memcOk m && decide (die < 16)
  | .contributionWrite n => tileOk n
  | .heldLineAccept p _ => partOk p
  | .bucketStart p _ => partOk p
  | .bucketPublish p => partOk p
  | .noticeDelivery _ => true
  | .collectiveSlow p _ => partOk p
  | .permuteStart p => partOk p
  | .replayNotice p k => partOk p && decide (k < 2)
  | .doneWrite n => tileOk n
  | .linkLost p => partOk p
  | .snapshotPageSent p => partOk p
  | .riskIndexUpdate fec mem => fec.all (fun x => subOk x.1) && mem.all (fun x => memcOk x.1)
  | .restoreShadowDone p _ _ _ => partOk p
  | .swtWrite f => fabricOk f.sub
  | .swtRead f => fabricOk f.sub
  | .readResp f => fabricOk f.sub
  | .swtMsg f => fabricOk f.sub
  | .dack f => fabricOk f.sub
  | .credit f => fabricOk f.sub
  | .landPacket f => fabricOk f.sub
  | .coll f => fabricOk f.sub
  | .repair f => fabricOk f.sub
  | .repairResp f => fabricOk f.sub
  | .keepalive f => fabricOk f.sub
  | .partEnd f => fabricOk f.sub
  | .spAck f => fabricOk f.sub
  | .spRecord f => fabricOk f.sub
  | .spPage f => fabricOk f.sub
  | .spDigest f => fabricOk f.sub
  | .ack f => fabricOk f.sub
  | .ackTimer ctx _ => peerOk ctx
  | .retransmitTimeout ctx => peerOk ctx
  | .creditPacketTimer ctx => peerOk ctx
  | .contextDownTimer ctx => peerOk ctx
  | .keepaliveTimer ctx => peerOk ctx
  | .roceSend k => decide (k.port < 4)
  | .sendWithImmediate k => decide (k.port < 4)
  | .rdmaWrite k => decide (k.port < 4)
  | .rdmaWriteWithImmediate k => decide (k.port < 4)
  | .rdmaRead k => decide (k.port < 4)
  | .roceAck n _ _ => qpOk n
  | .roceNak n _ _ _ _ => qpOk n
  | .readResponse n _ _ _ => qpOk n
  | .localAckTimeout n => qpOk n
  | .cnp n _ => qpOk n
  | .cnpRateTimer n => qpOk n
  | .ptpEventMessage x _ _ _ _ => subOk x.sub
  | .neighbourDiscovery x _ _ _ => subOk x.sub
  | .pfcFrame x _ _ => subOk x
  | .droppedFrame x _ _ => subOk x.sub
  | .linkUp x => subOk x
  | .linkDown x _ _ => subOk x
  | .takePacket => true
  | .tailDoorbell q _ => queueOk q
  | .cheadDoorbell q _ => queueOk q
  | .eheadDoorbell q r _ => queueOk q && decide (r < 9)
  | .outputLineCopy p => partOk p
  | .nopCommand h => queueOk h.queue
  | .devQuery h _ _ => queueOk h.queue
  | .queueCreate h _ _ _ => queueOk h.queue
  | .queueDestroy h _ => queueOk h.queue
  | .qpCreate h _ _ _ _ _ _ _ _ _ _ _ => queueOk h.queue
  | .qpDestroy h _ => queueOk h.queue
  | .evringSet h _ _ => queueOk h.queue
  | .eventMask h _ => queueOk h.queue
  | .warmReset h => queueOk h.queue
  | .partCreate h _ _ _ => queueOk h.queue
  | .partRelease h => queueOk h.queue
  | .partKill h _ _ => queueOk h.queue
  | .partQuery h => queueOk h.queue
  | .shareOffer h _ _ => queueOk h.queue
  | .shareEnd h _ => queueOk h.queue
  | .peergroupSet h _ _ => queueOk h.queue
  | .landgroupSet h _ _ _ _ _ => queueOk h.queue
  | .imageLoad h _ _ _ => queueOk h.queue
  | .launch h => queueOk h.queue
  | .outputSet h _ _ _ => queueOk h.queue
  | .pageMap h _ _ _ => queueOk h.queue
  | .pageFree h _ _ _ => queueOk h.queue
  | .pageAttr h _ _ _ => queueOk h.queue
  | .regionReg h _ _ _ _ _ => queueOk h.queue
  | .regionDereg h _ => queueOk h.queue
  | .hostbufReg h _ _ _ _ => queueOk h.queue
  | .hostbufDereg h _ => queueOk h.queue
  | .prefetchSet h _ _ _ _ => queueOk h.queue
  | .copypoolSet h _ => queueOk h.queue
  | .peerAdd h _ _ _ _ _ _ _ => queueOk h.queue
  | .peerRemove h _ => queueOk h.queue
  | .peerKeyWrite h _ _ _ _ _ => queueOk h.queue
  | .peerKeySend h _ _ _ _ _ => queueOk h.queue
  | .peerKeyRetire h _ _ _ _ _ => queueOk h.queue
  | .collGroup h _ _ _ _ _ _ => queueOk h.queue
  | .planSet h _ _ _ _ _ _ => queueOk h.queue
  | .shardReg h _ _ _ _ _ _ _ _ => queueOk h.queue
  | .shardDereg h _ => queueOk h.queue
  | .tensorReg h _ => queueOk h.queue
  | .tensorSet h _ _ _ => queueOk h.queue
  | .linkOut h _ => queueOk h.queue
  | .linkIn h _ _ _ _ _ _ _ _ => queueOk h.queue
  | .linkRemove h _ => queueOk h.queue
  | .snapbufSet h _ _ => queueOk h.queue
  | .snapshotNow h => queueOk h.queue
  | .restoreShadow h _ _ _ => queueOk h.queue
  | .restoreSnap h _ => queueOk h.queue
  | .telemRead h _ _ _ _ => queueOk h.queue
  | .evlogRead h _ _ _ _ => queueOk h.queue
  | .sensorRead h _ _ => queueOk h.queue
  | .mctpPass h _ _ _ => queueOk h.queue
  | .fwUpdate h _ _ => queueOk h.queue
  | .boot _ _ _ fails => fails.all hallOk
  | .bootWatchdog => true
  | .holdupMeasure _ _ _ _ => true
  | .flashSequenceEnd => true
  | .logRetry => true
  | .sensorPoll num _ => decide (num < 194)
  | .pcapTick => true
  | .throttleReportTimer => true
  | .setEndpointId _ _ => true
  | .getEndpointId => true
  | .getEndpointUuid => true
  | .getMctpVersionSupport _ => true
  | .getMessageTypeSupport => true
  | .getVendorDefinedMessageSupport _ => true
  | .getTid => true
  | .setTid _ => true
  | .getPldmVersion _ => true
  | .getPldmTypes => true
  | .getPldmCommands _ _ => true
  | .getPdrRepositoryInfo => true
  | .getPdr _ _ _ _ _ => true
  | .getSensorReading _ _ => true
  | .setEventReceiver _ _ _ => true
  | .queryDeviceIdentifiers => true
  | .getFirmwareParameters => true
  | .requestUpdate _ _ _ => true
  | .passComponentTable _ _ _ => true
  | .updateComponent _ _ _ _ _ => true
  | .requestFirmwareData _ _ => true
  | .activateFirmware _ => true
  | .getStatus => true
  | .cancelUpdateComponent => true
  | .cancelUpdate => true
  | .getVersion => true
  | .getCapabilities _ _ _ => true
  | .negotiateAlgorithms _ _ _ => true
  | .getDigests => true
  | .getCertificate _ _ _ => true
  | .challenge _ _ _ => true
  | .getMeasurements _ _ _ _ => true
  | .regRead _ => true
  | .regWrite _ _ => true
  | .hallClkWrite h _ => hallOk h
  | .clockChangeDone h => hallOk h
  | .tstatClear n _ => tileOk n
  | .srSeedWrite n _ => tileOk n
  | .dbgStop n => tileOk n
  | .dbgGo n => tileOk n
  | .dbgStep n => tileOk n
  | .landCtrlWrite p _ => partOk p
  | .portModeWrite p _ => decide (p < 36)
  | .ptpDiscWrite p _ => decide (p < 36)
  | .aqpCreate => true
  | .faultClear _ => true
  | .registerWrite _ _ => true
  | .readClear _ => true
  | .modPwrenAssert => true
  | .modPwrenDeassert => true
  | .inputPowerLoss => true
  | .endOfReset _ => true
  | .modResetNLow => true
  | .resetGlitch => true
  | .throttleAssert => true
  | .throttleRelease => true
  | .throttleGlitch => true
  | .ppsEdge => true
  | .ppsGlitch => true
  | .ppsLost => true
  | .refclkLoss => true
  | .refclkRestored => true
  | .smbusStuck => true
  | .thermTrip num _ _ _ => decide (num < 118)
  | .hardwareTrip num => decide (num < 86)
  | .bypass => true
  | .idcode => true
  | .samplePreload _ => true
  | .extest => true
  | .extestPulse => true
  | .extestTrain => true
  | .clamp => true
  | .highz => true
  | .hallFieldFailure h => hallOk h
  | .inputPowerApplied => true
  | .powerUpAfterPowerDown => true
  | .pfcPauseExpiry x k => subOk x && decide (k < 8)
  | .rnrRetryTimer n => qpOk n
  | .entdaa _ => true
  | .setdasa _ => true

end Sys2Proof
end

