-- ==== Sys2Proof/Safety.lean ====
section
/-! DEFINITION. What counts as a safe state of the block: frame memory in its canonical form, and only well-formed commands waiting. A run from a safe state
never stops. -/

namespace Sys2Proof.Machine

/-- Frame memory is canonical, and every waiting command names only units that exist. -/
def State.Safe (s : State) : Prop := Memory.wf s.frames = true ∧ s.pending.all Instr.wf = true

/-! Words for what a tile row meets. -/

/-- Context c of tile n issues now the instruction w of row k that it stands at (R70–R73, R95, R99, R101): the tile is alive and not stopped, the context does not wait,
its pc lies in the code region with no breakpoint in the way, the fetch buffer holds the word unpoisoned, a handler has budget left, and the row is one of its context. -/
def State.stands (s : State) (n c : Nat) (k : Kind) (w : Nat) : Bool :=
  decide (n < numTiles) && decide (c < 2) && s.canIssue n c && inCode s n (s.ctx n c).pc &&
  (decide ((s.tile n).bpPass / 2 ^ c % 2 = 1) || (s.breakpoint n c (s.ctx n c).pc).isNone) &&
  (s.tile n).fetched (s.ctx n c).pc == some (w, false) && kindOf w == k && (c == 0 || (s.tile n).budget != 0) && !ctxForbidden k c
/-- The guard of instruction w holds in context c (R73). -/
def State.guarded (s : State) (n c w : Nat) : Bool := (s.tile n).pred c (Ins.pg w) != (Ins.pn w == 1)

/-- The blocks whose registers a report may change: command queues, event rings, ports and the mailbox. -/
def RUnit.reporting (u : RUnit) : Bool := u == .cq || u == .ev || u == .port || u == .mb

/-- `t` is `s` but for what a report leaves (an event record, a completion record, a log record): the foyer, the management subsystem's log, what has left the module,
the partitions' notes of commands and ends, and registers of reporting blocks. -/
def State.Reports (s t : State) : Prop :=
  { t with regs := s.regs, foyer := s.foyer, mss := s.mss, out := s.out, evLost := s.evLost, parts := s.parts } = s ∧
  ∀ r u i, r.unit.reporting = false → t.regs.rd r u i = s.regs.rd r u i

/-- `t` is `s` but for what a report leaves and the state and registers of tile n. -/
def State.Beside (n : Nat) (s t : State) : Prop :=
  { t with regs := s.regs, foyer := s.foyer, mss := s.mss, out := s.out, evLost := s.evLost, parts := s.parts, tiles := s.tiles } = s ∧
  (∀ m, m ≠ n → t.tile m = s.tile m) ∧ (∀ r u i, r.unit.reporting = false → r.unit ≠ .tile → t.regs.rd r u i = s.regs.rd r u i) ∧
  (∀ r ∈ regsOf .tile, ∀ m i, m ≠ n → i < r.count → t.regs.rd r m i = s.regs.rd r m i)

/-- The keys of the three counters that the issue of an instruction by tile n may add to (Table 3.13). -/
def issueKeys (n : Nat) : List Nat := [R.SEQ_ISSUED_M.key n 0, R.SEQ_ISSUED_H.key n 0, R.SEQ_STALL_DATA.key n 0]

/-- Context c of tile n has issued a scalar instruction: its scalar registers, predicates, vector length and pc are as given, and all else is as it was but for the
counts of issues, a LAUNCH that waited for the tile's first instruction, and the notes of the issue itself (R66, R70–R78). -/
def State.Scalar (s t : State) (n c : Nat) (regs : Nat → Half) (preds : Nat → Bool) (vl pc : Nat) : Prop :=
  s.Beside n t ∧ (∀ r i, r.unit = .tile → r.key n i ∉ issueKeys n → t.regs.rd r n i = s.regs.rd r n i) ∧
  (∀ i, t.sreg n c i = regs i) ∧ (∀ i, (t.tile n).pred c i = preds i) ∧ (t.ctx n c).vl = vl ∧ (t.ctx n c).pc = pc ∧ (t.ctx n c).wait = .run ∧
  (t.ctx n c).srq = (s.ctx n c).srq ∧ t.ctx n (1 - c) = s.ctx n (1 - c) ∧
  { t.tile n with main := (s.tile n).main, hand := (s.tile n).hand, sregs := (s.tile n).sregs, begun := (s.tile n).begun, budget := (s.tile n).budget,
                  bpPass := (s.tile n).bpPass } = s.tile n

/-- The scalar registers of a context with register d set to v: register 0 reads 0. -/
def State.regsWith (s : State) (n c d : Nat) (v : Half) (i : Nat) : Half := if i = d ∧ d ≠ 0 then v else s.sreg n c i
/-- The predicates of a context with predicate d set to b: predicate 0 reads 1. -/
def State.predsWith (s : State) (n c d : Nat) (b : Bool) (i : Nat) : Bool := if i = d ∧ d ≠ 0 then b else (s.tile n).pred c i
/-- The next pc (R76). -/
def State.nextPc (s : State) (n c : Nat) : Nat := ((s.ctx n c).pc + 1) % 2 ^ 17

/-- The command by which context c of tile n issues a row. -/
def Kind.row (k : Kind) (n c : Nat) : Instr :=
  match k with
  | .illegal => .illegal n c | .alu => .alu n c | .alui => .alui n c | .li => .li n c | .cmp => .cmp n c | .cmpi => .cmpi n c | .plog => .plog n c
  | .muldiv => .muldiv n c | .ldh => .ldh n c | .sth => .sth n c | .lde => .lde n c | .ste => .ste n c | .mfs => .mfs n c | .mts => .mts n c | .setvl => .setvl n c
  | .br => .br n c | .call => .call n c | .jr => .jr n c | .loop => .loop n c | .callr => .callr n c | .mx => .mx n c | .vx => .vx n c | .st => .st n c | .xc => .xc n c
  | .send => .send n c | .openOut => .openOut n c | .openIn => .openIn n c | .closeOut => .closeOut n c | .closeIn => .closeIn n c | .alcOpen => .alcOpen n c
  | .alcClose => .alcClose n c | .nop => .nop n c | .land => .land n c | .landOpen => .landOpen n c | .waitLand => .waitLand n c | .fence => .fence n c
  | .halt => .halt n c | .hret => .hret n c | .segOn => .segOn n c | .segOff => .segOff n c

/-- Tile n has just faulted (R100): the fault is on record, neither context issues, and its memory and scalar registers are as they were, as is all beside it. -/
def State.Faulted (s t : State) (n ctx cause eng iaddr waddr : Nat) : Prop :=
  s.Beside n t ∧ t.g F.SEQ_FAULT_A_VALID n = 1 ∧ t.g F.SEQ_FAULT_A_CAUSE n = cause ∧ t.g F.SEQ_FAULT_A_CTX n = ctx ∧ t.g F.SEQ_FAULT_A_ENGINE n = eng ∧
  t.g F.SEQ_FAULT_A_IADDR n = iaddr ∧ t.g F.SEQ_FAULT_B_FLIGHT n = (s.tile n).flight % 2 ^ 32 ∧ t.g F.SEQ_FAULT_B_WADDR n = waddr ∧
  t.canIssue n 0 = false ∧ t.canIssue n 1 = false ∧ (t.tile n).mem = (s.tile n).mem ∧ (t.tile n).sregs = (s.tile n).sregs

/-- Word a of tile n. -/
def State.word (s : State) (n a : Nat) : EccRead := readStored (Sparse.get 0 (s.tile n).mem a)
/-- `t` with the scratchpad words and scheduled corrections of tile n put back as `s` has them. -/
def State.memOf (s t : State) (n : Nat) : State := t.upTile n (fun x => { x with mem := (s.tile n).mem, wb := (s.tile n).wb })
/-- Only word a of tile n differs between `s` and `t`: every other word, and every other scheduled correction, is as it was. -/
def State.onlyWord (s t : State) (n a : Nat) : Prop :=
  ∀ b, b ≠ a → Sparse.get 0 (t.tile n).mem b = Sparse.get 0 (s.tile n).mem b ∧ Sparse.find? (t.tile n).wb b = Sparse.find? (s.tile n).wb b

/-- Engine instruction w of context c can dispatch now with descriptor d (R79, R80, R82, R138): a free queue entry, the descriptor held by no writer, whole, powered
and unpoisoned, scoreboard entries to spare, no refusal by the engine, and every region powered and outside the code region. -/
def State.dispatches (s : State) (n c w eng d : Nat) : Bool :=
  let func := if eng = 4 then fld (Ins.aux w) 7 3 else 0
  let k := descWords eng func
  let a := descAddr s n c w
  let vl := (s.ctx n c).vl
  let ws := (s.tile n).peekDesc a k
  (s.tile n).queueFree eng c && !sbHazard (s.tile n).sb a k false && (s.descFault n eng a k).isNone && !ws.any (·.2) && joinWords ws == d &&
  decide ((sbRegister (s.tile n).sb (s.tile n).nextId (engRegions eng func d vl)).length ≤ 48) && !s.engRefused n c eng func d vl &&
  (engRegions eng func d vl).all (fun r => s.rangeOn n r.base r.limit) && (engWrites eng d vl).all (fun r => !s.touchesCode n r.1 r.2)
/-- The instruction that a dispatch adds to its tile. -/
def State.dispatched (s : State) (n c w eng d : Nat) : EngInstr :=
  let func := if eng = 4 then fld (Ins.aux w) 7 3 else 0
  ⟨(s.tile n).nextId, eng, c == 1, (s.ctx n c).pc, (s.tile n).flight, func, d, (s.ctx n c).vl, (s.ctx n c).srq, if eng = 4 then s.msgClass n func d else 0,
    .queued, 0, false, 0, s.now, s.regs.rd R.TILE_SR_SEED n 0, s.g F.TILE_AMODE_OVF_NAN n == 1, []⟩

/-- Nothing at the head of a message order of tile n takes effect of itself (R199, R213): the main context's class-1 head is a SEND, a close that waits, or has earlier class-0
entries before it, and the handler's heads have been judged. -/
def State.msgRests (s : State) (n : Nat) : Bool :=
  ((s.tile n).order false 1).head?.all (fun i => i.func == 0 || i.stage == .running || ((s.tile n).order false 0).any (fun j => decide (j.id < i.id))) &&
  [0, 1].all (fun k => ((s.tile n).order true k).head?.all (fun i => i.func != 0 || i.next != 0))

/-! Words for what a received Stairway Transport packet meets. -/

/-- Frame f is a packet of a row at an up fabric sub-port, and passes every check (R333): as seen by its user in state s1, with its context, extended sequence number and
payload. -/
def State.accepts (s : State) (f : SwtFrame) (typ : Nat) (sub : Option Nat) (s1 : State) (c : PeerCtx) (q pay : Nat) : Prop :=
  f.sub < 64 ∧ s.linkUp f.sub = true ∧ isRow f typ sub = true ∧ s.swtCheck f = .good s1 c q pay
/-- Between `s` and `t` packet f of extended sequence number q has been received: counted, and its class's window moved on (R328). -/
def State.received (s t : State) (f : SwtFrame) (q : Nat) : Prop :=
  t.g F.PT_RX_PKTS (f.sub / 2) = min (s.g F.PT_RX_PKTS (f.sub / 2) + 1) (2 ^ F.PT_RX_PKTS.width - 1) ∧
  ∀ c, s.peer? f.dctx = some c → ∃ d, t.peer? f.dctx = some d ∧ d.rxNext = (c.took f.cls q).rxNext ∧ d.rxGot = (c.took f.cls q).rxGot
/-- A packet of this type, class, AUX and ADDR waits on a context to be acknowledged (R327, R329). -/
def State.sends (t : State) (ctx typ cls aux addr : Nat) : Prop :=
  ∃ d, t.peer? ctx = some d ∧ ∃ x ∈ d.unacked, x.typ = typ ∧ x.cls = cls ∧ x.aux = aux ∧ x.addr = addr

/-! Words for commands (Table 13.4). -/

/-- A command's packet header, opcode, where it is permitted (0 A, 1 P, 2 A P), what it needs of its partition (`cmdBad`), and its parameters. -/
structure CmdForm where
  hdr : CmdHdr
  op : Nat
  perm : Nat
  need : Nat
  pars : List Par
/-- The form of a row that is a command packet; WARM_RESET, which takes the commands in progress with it, has none. -/
def cmdForm (i : Instr) : Option CmdForm :=
  match i with
  | .nopCommand h => some ⟨h, 0x0000, 2, 0, []⟩
  | .devQuery h hbuf off => some ⟨h, 0x0001, 0, 0, [par 2 hbuf, par 8 off]⟩
  | .queueCreate h queue logslots cring => some ⟨h, 0x0002, 0, 1, [par 1 queue, par 1 logslots, par 2 cring]⟩
  | .queueDestroy h queue => some ⟨h, 0x0003, 0, 0, [par 1 queue]⟩
  | .qpCreate h kind queue port gidx retry rnr mtu rqpn spsn rpsn rgid => some ⟨h, 0x0004, 0, 1, [par 1 kind, par 1 queue, par 1 port, par 1 gidx, par 1 retry, par 1 rnr, par 2 mtu, par 4 rqpn, par 4 spsn, par 4 rpsn, parL 16 rgid]⟩
  | .qpDestroy h qpn => some ⟨h, 0x0005, 0, 0, [par 4 qpn]⟩
  | .evringSet h hbuf logrec => some ⟨h, 0x0006, 2, 2, [par 2 hbuf, par 1 logrec]⟩
  | .eventMask h mask => some ⟨h, 0x0007, 2, 2, [parL 32 mask]⟩
  | .partCreate h adopt quota mask => some ⟨h, 0x0100, 0, 3, [par 1 adopt, par 4 quota, parL 9 mask]⟩
  | .partRelease h => some ⟨h, 0x0101, 2, 1, []⟩
  | .partKill h capture cbase => some ⟨h, 0x0102, 0, 1, [par 1 capture, par 8 cbase]⟩
  | .partQuery h => some ⟨h, 0x0103, 2, 1, []⟩
  | .shareOffer h share other => some ⟨h, 0x0104, 1, 1, [par 2 share, par 1 other]⟩
  | .shareEnd h share => some ⟨h, 0x0105, 1, 1, [par 2 share]⟩
  | .peergroupSet h group ctxs => some ⟨h, 0x0106, 1, 1, [par 2 group, par 2 ctxs.length, parList 2 ctxs]⟩
  | .landgroupSet h mode flags rank size ctxs => some ⟨h, 0x0107, 1, 1, [par 1 mode, par 1 flags, par 2 rank, par 2 size, par 2 ctxs.length, parList 2 ctxs]⟩
  | .imageLoad h src len _ => some ⟨h, 0x0200, 1, 1, [par 8 src, par 8 len]⟩
  | .launch h => some ⟨h, 0x0201, 1, 1, []⟩
  | .outputSet h hbuf obase olen => some ⟨h, 0x0202, 1, 1, [par 2 hbuf, par 8 obase, par 8 olen]⟩
  | .pageMap h page n rs => some ⟨h, 0x0300, 2, 1, [par 4 page, par 4 n, par 1 rs]⟩
  | .pageFree h page n all => some ⟨h, 0x0301, 2, (if all = 1 ∧ h.queue = 0 then 3 else 1), [par 4 page, par 4 n, par 1 all]⟩
  | .pageAttr h page n rs => some ⟨h, 0x0302, 2, 1, [par 4 page, par 4 n, par 1 rs]⟩
  | .regionReg h kind access tile base len => some ⟨h, 0x0303, 2, 2, [par 1 kind, par 1 access, par 2 tile, par 8 base, par 8 len]⟩
  | .regionDereg h rkey => some ⟨h, 0x0304, 2, 2, [par 4 rkey]⟩
  | .hostbufReg h qpn rkey raddr len => some ⟨h, 0x0305, 2, 2, [par 4 qpn, par 4 rkey, par 8 raddr, par 8 len]⟩
  | .hostbufDereg h hbuf => some ⟨h, 0x0306, 2, 2, [par 2 hbuf]⟩
  | .prefetchSet h nent period ahead sbase => some ⟨h, 0x0307, 1, 1, [par 4 nent, par 4 period, par 1 ahead, par 8 sbase]⟩
  | .copypoolSet h frames => some ⟨h, 0x0308, 0, 0, [par 4 frames]⟩
  | .peerAdd h ctx rport rctx pmax enc spray raddr => some ⟨h, 0x0400, 1, 1, [par 2 ctx, par 2 rport, par 2 rctx, par 2 pmax, par 1 enc, par 8 spray, parL 16 raddr]⟩
  | .peerRemove h ctx => some ⟨h, 0x0401, 1, 1, [par 2 ctx]⟩
  | .peerKeyWrite h ctx slot dir salt key => some ⟨h, 0x0402, 1, 1, (keyPars ctx slot dir 0 salt key)⟩
  | .peerKeySend h ctx slot dir salt key => some ⟨h, 0x0402, 1, 1, (keyPars ctx slot dir 1 salt key)⟩
  | .peerKeyRetire h ctx slot dir salt key => some ⟨h, 0x0402, 1, 1, (keyPars ctx slot dir 2 salt key)⟩
  | .collGroup h rank size node prev next ctxs => some ⟨h, 0x0403, 1, 1, [par 2 rank, par 2 size, par 1 node, par 2 prev, par 2 next, parList 2 ctxs]⟩
  | .planSet h nbuck btab cbase climit rbase rhalf => some ⟨h, 0x0404, 1, 1, [par 4 nbuck, par 8 btab, par 8 cbase, par 8 climit, par 8 rbase, par 8 rhalf]⟩
  | .shardReg h shard group fmt epoch step elems slot0 slot1 => some ⟨h, 0x0405, 1, 1, [par 2 shard, par 1 group, par 1 fmt, par 2 epoch, par 4 step, par 8 elems, par 8 slot0, par 8 slot1]⟩
  | .shardDereg h shard => some ⟨h, 0x0406, 1, 1, [par 2 shard]⟩
  | .tensorReg h entries => some ⟨h, 0x0500, 1, 1, [par 2 entries.length, parList 16 entries]⟩
  | .tensorSet h index force rate => some ⟨h, 0x0501, 1, 1, [par 2 index, par 1 force, par 4 rate]⟩
  | .linkOut h ctx => some ⟨h, 0x0502, 1, 1, [par 2 ctx]⟩
  | .linkIn h link lsteps ntile shpage shn naddr lbase done => some ⟨h, 0x0503, 1, 1, [par 1 link, par 1 lsteps, par 2 ntile, par 4 shpage, par 4 shn, par 4 naddr, par 8 lbase, par 8 done]⟩
  | .linkRemove h link => some ⟨h, 0x0504, 1, 1, [par 1 link]⟩
  | .snapbufSet h hbufA hbufB => some ⟨h, 0x0505, 1, 1, [par 2 hbufA, par 2 hbufB]⟩
  | .snapshotNow h => some ⟨h, 0x0506, 1, 1, []⟩
  | .restoreShadow h first count ctx => some ⟨h, 0x0507, 1, 1, [par 2 first, par 2 count, par 2 ctx]⟩
  | .restoreSnap h buf => some ⟨h, 0x0508, 1, 1, [par 1 buf]⟩
  | .telemRead h kind id hbuf off => some ⟨h, 0x0600, 2, (if kind = 2 then 1 else 2), [par 1 kind, par 4 id, par 2 hbuf, par 8 off]⟩
  | .evlogRead h from_ count hbuf off => some ⟨h, 0x0601, 0, 0, [par 4 from_, par 4 count, par 2 hbuf, par 8 off]⟩
  | .sensorRead h hbuf off => some ⟨h, 0x0602, 0, 0, [par 2 hbuf, par 8 off]⟩
  | .mctpPass h hbuf off msg => some ⟨h, 0x0700, 0, 0, [par 2 msg.length, par 2 hbuf, par 8 off, parL msg.length (leVal msg)]⟩
  | .fwUpdate h hbuf len => some ⟨h, 0x0701, 0, 0, [par 2 hbuf, par 8 len]⟩
  | _ => none
/-- The command of a row may start now and is not refused (R340, R342). -/
def State.starts (s : State) (i : Instr) : Bool := (cmdForm i).any (fun f => decide (f.hdr.queue < 64) && s.mayStart f.hdr f.op f.pars && s.cmdBad f.hdr f.perm f.need == 0)
/-- The command in progress, with a RESULT. -/
def State.cmdOf (s : State) (f : CmdForm) (r : List (Nat × Nat)) : RunCmd := ⟨f.hdr, f.op, s.cmdObjs f.hdr f.op (packPars f.pars), r⟩
/-- A started command: it has left the packets taken and is in progress. -/
def State.cmdBegun (s : State) (f : CmdForm) : State :=
  s.upFoyer (fun x => { x with taken := x.taken.filter (fun t => t.hdr != f.hdr), running := x.running ++ [s.cmdOf f []] })
/-- The state that the effect of a row's command meets. -/
def State.begunBy (s : State) (i : Instr) : State := match cmdForm i with | some f => s.cmdBegun f | none => s
/-- A row's command completes at once with success: `u` is what its effect leaves, and `r` its RESULT. -/
def State.Succeeds (s : State) (i : Instr) (u : State) (r : List (Nat × Nat)) : Prop := ∃ f, cmdForm i = some f ∧ exec i s = .next (u.cmdDone (s.cmdOf f r) 0)

end Sys2Proof.Machine
end

