-- ==== Sys2Proof/Certificates/Slice0/Obligations.lean ====
section
/-! DEFINITION. The statements: what each row of the opcode table does to the state, what it leaves alone, and what holds of the block as a whole. A statement with several parts is their conjunction. -/

open Sys2Proof Sys2Proof.Machine

namespace Sys2Proof.Rules

/-- ALU, ALUI, LI, MULDIV and SETVL, where a context stands at one whose guard holds (R72–R74, R77): the destination gets the result, s0 stays 0, the pc goes to the next instruction, and nothing else of the tile changes. -/
def ArithmeticRows : Prop :=
  ∀ (s : State) (n c w : Nat), s.guarded n c w = true →
    (s.stands n c .alu w = true → ∃ t, exec (.alu n c) s = .next t ∧ s.Scalar t n c (s.regsWith n c (Ins.sd w)
      (aluOp (Ins.fn w) (s.sreg n c (Ins.sa w)) (s.sreg n c (Ins.sb w)) ((s.tile n).pred c (Ins.pd w)))) ((s.tile n).pred c) (s.ctx n c).vl (s.nextPc n c)) ∧
    (s.stands n c .alui w = true → ∃ t, exec (.alui n c) s = .next t ∧ s.Scalar t n c (s.regsWith n c (Ins.sd w)
      (aluOp (Ins.fn w) (s.sreg n c (Ins.sa w)) (BitVec.ofInt 48 (sext (Ins.imm w) 22)) false)) ((s.tile n).pred c) (s.ctx n c).vl (s.nextPc n c)) ∧
    (s.stands n c .li w = true → ∃ t, exec (.li n c) s = .next t ∧ s.Scalar t n c (s.regsWith n c (Ins.sd w)
      (if Ins.fn w = 0 then BitVec.ofNat 48 (Ins.sa w * 2 ^ 22 + Ins.imm w)
       else if Ins.fn w = 1 then BitVec.ofInt 48 (sext (Ins.sa w * 2 ^ 22 + Ins.imm w) 27)
       else BitVec.ofNat 48 (Ins.imm w * 2 ^ 26 + (s.sreg n c (Ins.sd w)).toNat % 2 ^ 26))) ((s.tile n).pred c) (s.ctx n c).vl (s.nextPc n c)) ∧
    (s.stands n c .muldiv w = true → ∃ t, exec (.muldiv n c) s = .next t ∧ s.Scalar t n c (s.regsWith n c (Ins.sd w)
      (mulOp (Ins.fn w) (s.sreg n c (Ins.sa w)) (s.sreg n c (Ins.sb w)) (s.sreg n c (Ins.sc w)))) ((s.tile n).pred c) (s.ctx n c).vl (s.nextPc n c)) ∧
    (s.stands n c .setvl w = true → ∃ t, exec (.setvl n c) s = .next t ∧ s.Scalar t n c (s.regsWith n c (Ins.sd w)
      (BitVec.ofNat 48 (min ((s.sreg n c (Ins.sa w)).toNat + fld w 0 13) 4096))) ((s.tile n).pred c) (min ((s.sreg n c (Ins.sa w)).toNat + fld w 0 13) 4096) (s.nextPc n c))

/-- CMP, CMPI and PLOG, where a context stands at one whose guard holds (R72–R74, Table 3.5): the predicate gets the result, p0 stays 1, and nothing else of the tile changes. -/
def PredicateRows : Prop :=
  ∀ (s : State) (n c w : Nat), s.guarded n c w = true →
    (s.stands n c .cmp w = true → ∃ t, exec (.cmp n c) s = .next t ∧ s.Scalar t n c (s.sreg n c)
      (s.predsWith n c (Ins.pd w) (cmpOp (Ins.fn w) (s.sreg n c (Ins.sa w)) (s.sreg n c (Ins.sb w)))) (s.ctx n c).vl (s.nextPc n c)) ∧
    (s.stands n c .cmpi w = true → ∃ t, exec (.cmpi n c) s = .next t ∧ s.Scalar t n c (s.sreg n c)
      (s.predsWith n c (Ins.sd w % 8) (cmpOp (Ins.fn w) (s.sreg n c (Ins.sa w)) (BitVec.ofInt 48 (sext (Ins.imm w) 22)))) (s.ctx n c).vl (s.nextPc n c)) ∧
    (s.stands n c .plog w = true → ∃ t, exec (.plog n c) s = .next t ∧ s.Scalar t n c (s.sreg n c)
      (s.predsWith n c (Ins.pd w) (plogOp (Ins.fn w) ((s.tile n).pred c (Ins.sa w % 8)) ((s.tile n).pred c (Ins.sb w % 8)))) (s.ctx n c).vl (s.nextPc n c))

/-- BR, CALL, JR, LOOP and CALLR, where a context stands at one whose guard holds (R76): the pc goes where R76 says, a link register gets the address of the next instruction, LOOP counts its register down, and nothing else of the tile changes. A link or a count in s0 is not written. -/
def BranchRows : Prop :=
  ∀ (s : State) (n c w : Nat), s.guarded n c w = true →
    (s.stands n c .br w = true → ∃ t, exec (.br n c) s = .next t ∧ s.Scalar t n c (s.sreg n c) ((s.tile n).pred c) (s.ctx n c).vl
      ((((s.ctx n c).pc : Int) + sext (Ins.off w) 18) % 2 ^ 17).toNat) ∧
    (s.stands n c .call w = true → ∃ t, exec (.call n c) s = .next t ∧
      s.Scalar t n c (s.regsWith n c (Ins.sl w) (BitVec.ofNat 48 (s.nextPc n c))) ((s.tile n).pred c) (s.ctx n c).vl
      ((((s.ctx n c).pc : Int) + sext (Ins.off w) 18) % 2 ^ 17).toNat) ∧
    (s.stands n c .jr w = true → ∃ t, exec (.jr n c) s = .next t ∧ s.Scalar t n c (s.sreg n c) ((s.tile n).pred c) (s.ctx n c).vl
      ((((s.sreg n c (Ins.csa w)).toNat : Int) + sext (Ins.off w) 18) % 2 ^ 17).toNat) ∧
    (s.stands n c .loop w = true → ∃ t, exec (.loop n c) s = .next t ∧
      s.Scalar t n c (s.regsWith n c (Ins.csa w) (s.sreg n c (Ins.csa w) - 1)) ((s.tile n).pred c) (s.ctx n c).vl
      (if Ins.csa w ≠ 0 ∧ s.sreg n c (Ins.csa w) ≠ 1 then ((((s.ctx n c).pc : Int) + sext (Ins.off w) 18) % 2 ^ 17).toNat else s.nextPc n c)) ∧
    (s.stands n c .callr w = true → ∃ t, exec (.callr n c) s = .next t ∧
      s.Scalar t n c (s.regsWith n c (Ins.sl w) (BitVec.ofNat 48 (s.nextPc n c))) ((s.tile n).pred c) (s.ctx n c).vl
      ((((s.sreg n c (Ins.csa w)).toNat : Int) + sext (Ins.off w) 18) % 2 ^ 17).toNat)

/-- A row whose guard does not hold counts as issued and does nothing else but go to the next instruction (R72, R73, R76): only a reserved opcode or function code faults then, not a branch kind. -/
def GuardNotHolding : Prop :=
  ∀ (s : State) (n c w : Nat) (k : Kind), (k = .illegal → Ins.op w = 0x18) → s.stands n c k w = true → s.guarded n c w = false →
    ∃ t, exec (k.row n c) s = .next t ∧ s.Scalar t n c (s.sreg n c) ((s.tile n).pred c) (s.ctx n c).vl (s.nextPc n c)

/-- ILLEGAL faults the tile with cause ILLEGAL: a reserved opcode or function code whatever the guard field, a reserved branch kind where the guard holds (R72, R76, R100). -/
def IllegalRow : Prop :=
  ∀ (s : State) (n c w : Nat), s.stands n c .illegal w = true → (Ins.op w = 0x18 → s.guarded n c w = true) →
    ∃ t, exec (.illegal n c) s = .next t ∧ s.Faulted t n c 1 5 (s.ctx n c).pc 0

/-- LDH and LDE of a clean word that no hazard holds (R75, R85): the half-word or element, zero- or sign-extended, into SD, and nothing else of the tile changes. -/
def LoadRows : Prop :=
  ∀ (s : State) (n c w d : Nat), s.guarded n c w = true →
    (s.stands n c .ldh w = true → accReady n (halfAddr s n c w) true false s = true → accFault s n (halfAddr s n c w) false = none →
      s.word n (halfAddr s n c w) = .clean d →
      ∃ t, exec (.ldh n c) s = .next t ∧ s.Scalar t n c (s.regsWith n c (Ins.sd w) (BitVec.ofNat 48 (fld d (48 * fld w 21 1) 48)))
        ((s.tile n).pred c) (s.ctx n c).vl (s.nextPc n c)) ∧
    (s.stands n c .lde w = true → elemOk w = true → accReady n (elemAddr s n c w) true false s = true → accFault s n (elemAddr s n c w) false = none →
      s.word n (elemAddr s n c w) = .clean d →
      let k := elemWidth (fld w 19 3)
      ∃ t, exec (.lde n c) s = .next t ∧ s.Scalar t n c (s.regsWith n c (Ins.sd w)
          (if fld w 19 1 = 1 then BitVec.ofInt 48 (sext (fld d (k * fld w 15 4) k) k) else BitVec.ofNat 48 (fld d (k * fld w 15 4) k)))
        ((s.tile n).pred c) (s.ctx n c).vl (s.nextPc n c))

/-- STH and STE to a clean word that no hazard holds (R75, R85, R145): the low bits of SD replace the half-word or element; the word's other bits, every other word, and all else of the tile stay. -/
def StoreRows : Prop :=
  ∀ (s : State) (n c w d : Nat), s.guarded n c w = true →
    (s.stands n c .sth w = true → accReady n (halfAddr s n c w) true true s = true → accFault s n (halfAddr s n c w) true = none →
      s.word n (halfAddr s n c w) = .clean d →
      ∃ t e, exec (.sth n c) s = .next t ∧ t.word n (halfAddr s n c w) = .clean e ∧ fld e (48 * fld w 21 1) 48 = (s.sreg n c (Ins.sd w)).toNat ∧
        (∀ i, i < 48 * fld w 21 1 ∨ 48 * fld w 21 1 + 48 ≤ i → e.testBit i = d.testBit i) ∧ s.onlyWord t n (halfAddr s n c w) ∧
        s.Scalar (s.memOf t n) n c (s.sreg n c) ((s.tile n).pred c) (s.ctx n c).vl (s.nextPc n c)) ∧
    (s.stands n c .ste w = true → elemOk w = true → accReady n (elemAddr s n c w) true true s = true → accFault s n (elemAddr s n c w) true = none →
      s.word n (elemAddr s n c w) = .clean d →
      let k := elemWidth (fld w 19 3)
      ∃ t e, exec (.ste n c) s = .next t ∧ t.word n (elemAddr s n c w) = .clean e ∧ fld e (k * fld w 15 4) k = (s.sreg n c (Ins.sd w)).toNat % 2 ^ k ∧
        (∀ i, i < k * fld w 15 4 ∨ k * fld w 15 4 + k ≤ i → e.testBit i = d.testBit i) ∧ s.onlyWord t n (elemAddr s n c w) ∧
        s.Scalar (s.memOf t n) n c (s.sreg n c) ((s.tile n).pred c) (s.ctx n c).vl (s.nextPc n c))

/-- Where a scalar access faults (R69, R75, R100, R143): LDH or STH of a word outside the scratchpad, in a segment that is down, or, for a store, in the code region; LDE or STE of an element that does not exist; a load of a poisoned word. -/
def AccessFaults : Prop :=
  ∀ (s : State) (n c w : Nat), s.guarded n c w = true →
    (∀ f, s.stands n c .ldh w = true → accFault s n (halfAddr s n c w) false = some f →
      ∃ t, exec (.ldh n c) s = .next t ∧ s.Faulted t n c f 5 (s.ctx n c).pc (halfAddr s n c w % 2 ^ 19)) ∧
    (∀ f, s.stands n c .sth w = true → accFault s n (halfAddr s n c w) true = some f →
      ∃ t, exec (.sth n c) s = .next t ∧ s.Faulted t n c f 5 (s.ctx n c).pc (halfAddr s n c w % 2 ^ 19)) ∧
    (s.stands n c .lde w = true → elemOk w = false → ∃ t, exec (.lde n c) s = .next t ∧ s.Faulted t n c 1 5 (s.ctx n c).pc 0) ∧
    (s.stands n c .ste w = true → elemOk w = false → ∃ t, exec (.ste n c) s = .next t ∧ s.Faulted t n c 1 5 (s.ctx n c).pc 0) ∧
    (s.stands n c .ldh w = true → accReady n (halfAddr s n c w) true false s = true → accFault s n (halfAddr s n c w) false = none →
      s.word n (halfAddr s n c w) = .poison →
      ∃ t, exec (.ldh n c) s = .next t ∧ s.Faulted t n c 0x0A 5 (s.ctx n c).pc (halfAddr s n c w))

/-- NOP, WAIT.LAND of a completed landing, FENCE with nothing to wait for, SEG on of segments that are up, and SEG off of segments that are down only go to the next instruction (R90, R91, R93, Table 3.10). -/
def SyncRowsAtOnce : Prop :=
  ∀ (s : State) (n c w : Nat), s.guarded n c w = true →
    let same := fun t => s.Scalar t n c (s.sreg n c) ((s.tile n).pred c) (s.ctx n c).vl (s.nextPc n c)
    let tok := (s.sreg n c (Ins.sa w)).toNat % 2 ^ 32
    (s.stands n c .nop w = true → ∃ t, exec (.nop n c) s = .next t ∧ same t) ∧
    (s.stands n c .waitLand w = true → tok ≠ 0 → ¬ 0 < diff32 tok (s.tile n).flight → s.landed n tok = true → ∃ t, exec (.waitLand n c) s = .next t ∧ same t) ∧
    (s.stands n c .fence w = true → fld (Ins.imm w) 0 5 = 0 ∨ s.fenceClear n c (fld (Ins.imm w) 0 5) (fld (Ins.imm w) 5 1 == 1) (s.tile n).nextId = true →
      ∃ t, exec (.fence n c) s = .next t ∧ same t) ∧
    (s.stands n c .segOn w = true → (∀ k, k < 8 → (fld (Ins.imm w) 1 7 * 2) / 2 ^ k % 2 = 1 → s.g F.TILE_SEG_ON n / 2 ^ k % 2 = 1) →
      ∃ t, exec (.segOn n c) s = .next t ∧ same t) ∧
    (s.stands n c .segOff w = true → (fld (Ins.imm w) 1 7 * 2 &&& s.g F.TILE_SEG_ON n) = 0 → ∃ t, exec (.segOff n c) s = .next t ∧ same t)

/-- LAND, LAND.OPEN, HALT, WAIT.LAND, FENCE, SEG on and SEG off where there is something to wait for (R90–R93, R117): the context waits for what R90–R93 say, its pc past the instruction, and nothing else of the tile changes. -/
def SyncRowsWait : Prop :=
  ∀ (s : State) (n c w : Nat), s.guarded n c w = true →
    let waits := fun (t : State) (x : Wait) => (t.ctx n c).wait = x ∧ s.Scalar (t.setWait n c .run) n c (s.sreg n c) ((s.tile n).pred c) (s.ctx n c).vl (s.nextPc n c)
    let tok := (s.sreg n c (Ins.sa w)).toNat % 2 ^ 32
    let m := fld (Ins.imm w) 1 7 * 2
    (s.stands n c .land w = true → (s.tile n).chain = [] → ∃ t, exec (.land n c) s = .next t ∧ waits t (.drain 0 0 (s.tile n).nextId)) ∧
    (s.stands n c .landOpen w = true → (s.tile n).chain = [] → ∃ t, exec (.landOpen n c) s = .next t ∧ waits t (.drain 1 (Ins.sd w) (s.tile n).nextId)) ∧
    (s.stands n c .halt w = true → ∃ t, exec (.halt n c) s = .next t ∧ waits t (.drain 2 0 (s.tile n).nextId)) ∧
    (s.stands n c .waitLand w = true → tok ≠ 0 → ¬ 0 < diff32 tok (s.tile n).flight → s.landed n tok = false →
      ∃ t, exec (.waitLand n c) s = .next t ∧ waits t (.held tok)) ∧
    (s.stands n c .fence w = true → fld (Ins.imm w) 0 5 ≠ 0 → s.fenceClear n c (fld (Ins.imm w) 0 5) (fld (Ins.imm w) 5 1 == 1) (s.tile n).nextId = false →
      ∃ t, exec (.fence n c) s = .next t ∧ waits t (.fence (fld (Ins.imm w) 0 5) (fld (Ins.imm w) 5 1 == 1) (s.tile n).nextId)) ∧
    (s.stands n c .segOff w = true → (m &&& s.g F.TILE_SEG_ON n) ≠ 0 → ∃ t, exec (.segOff n c) s = .next t ∧ waits t (.segOff (m &&& s.g F.TILE_SEG_ON n))) ∧
    (s.stands n c .segOn w = true → ∀ k, k < 8 → m / 2 ^ k % 2 = 1 → s.g F.TILE_SEG_ON n / 2 ^ k % 2 = 0 →
      ∃ t, exec (.segOn n c) s = .next t ∧ waits (t.wreg R.TILE_SEG n 0 (s.regs.rd R.TILE_SEG n)) (.segOn m) ∧ t.g F.TILE_SEG_ON n = s.g F.TILE_SEG_ON n ∧
        ∀ j, j < 8 → (t.g F.TILE_SEG_CLEARING n / 2 ^ j % 2 = 1 ↔
          s.g F.TILE_SEG_CLEARING n / 2 ^ j % 2 = 1 ∨ (m / 2 ^ j % 2 = 1 ∧ s.g F.TILE_SEG_ON n / 2 ^ j % 2 = 0)))

/-- HANDLER_ENTRY with an item of a valid handler at the head of class 0, or of class 1 when class 0 is empty, and with nothing to offer (R97, R98, R208): the context's registers are as R98 sets them up, its budget is full, and it issues from the handler's entry; the idle item is popped with no other effect. -/
def HandlerEnters : Prop :=
  ∀ (s : State) (n : Nat), n < 4608 → s.alive n = true → (s.tile n).dbgStop = false → (s.ctx n 1).wait = .idle →
    let l := (s.hall (n / 64)).listsOf (n % 64)
    l.dead = false →
    (∀ c rest w w1, ((l.c0 = c :: rest) ∨ (l.c0 = [] ∧ l.c1 = c :: rest)) → readStored (Sparse.get 0 (s.hall (n / 64)).cells (2 * c)) = .clean w →
      readStored (Sparse.get 0 (s.hall (n / 64)).cells (2 * c + 1)) = .clean w1 →
      Cell.spilled w = 0 → Cell.hnum w ≠ 0 → (s.tile n).handlerEntry (Cell.hnum w) / 2 ^ 17 % 2 = 1 → inCode s n ((s.tile n).handlerEntry (Cell.hnum w) % 2 ^ 17) = true →
      ∃ t, exec (.handlerEntry n) s = .next t ∧ (t.ctx n 1).wait = .run ∧ (t.ctx n 1).pc = (s.tile n).handlerEntry (Cell.hnum w) % 2 ^ 17 ∧ (t.ctx n 1).vl = 0 ∧
        t.sreg n 1 24 = BitVec.ofNat 48 (Cell.ch w) ∧ t.sreg n 1 25 = BitVec.ofNat 48 (s.g F.CHI_STATE_RBASE n (Cell.ch w) + Cell.off w) ∧ t.sreg n 1 26 = BitVec.ofNat 48 (Cell.len w) ∧
        t.sreg n 1 27 = BitVec.ofNat 48 (Cell.hnum w + Cell.cls w * 256) ∧ (∀ i, 27 < i → i < 32 → t.sreg n 1 i = 0) ∧ (∀ i, 0 < i → i < 8 → (t.tile n).pred 1 i = false) ∧
        (t.tile n).budget = s.g F.SEQ_HBUDGET_LIMIT n ∧ ((t.hall (n / 64)).listsOf (n % 64)).c0 ++ ((t.hall (n / 64)).listsOf (n % 64)).c1 = (l.c0 ++ l.c1).tail ∧
        t.ctx n 0 = s.ctx n 0 ∧ (t.tile n).mem = (s.tile n).mem) ∧
    (l.c0 = [] → l.c1 = [] → ∃ t, exec (.handlerEntry n) s = .next t ∧ (t.tile n).signals = (s.tile n).signals - 1 ∧ t.ctx n 1 = s.ctx n 1 ∧ (t.tile n).mem = (s.tile n).mem ∧ t.regs = s.regs)

/-- HRET ends the handler (R99, Table 3.11): its context is idle, nothing runs, the handler counts, and the main context and the scratchpad stay. -/
def HandlerReturn : Prop :=
  ∀ (s : State) (n w : Nat), s.stands n 1 .hret w = true → s.guarded n 1 w = true →
    ∃ t, exec (.hret n 1) s = .next t ∧ (t.ctx n 1).wait = .idle ∧ (t.tile n).running = none ∧
      t.g F.SEQ_HANDLED_COUNT n = min (s.g F.SEQ_HANDLED_COUNT n + 1) (2 ^ 48 - 1) ∧ t.ctx n 0 = s.ctx n 0 ∧ (t.tile n).mem = (s.tile n).mem ∧
      (∀ i, i < 24 → t.sreg n 1 i = s.sreg n 1 i) ∧ ∀ m, m ≠ n → t.tile m = s.tile m

/-- The ends of a context's waits: FENCE_DONE, SEGMENT_CLEAR_DONE, SEGMENT_POWER_DOWN and ALCOVE_CLOSE_RETIRE, where what they wait for has come (R90, R93, R138, R139, R147, R149). -/
def WaitsEnd : Prop :=
  ∀ (s : State) (n c : Nat), n < 4608 → c < 2 → s.alive n = true →
    (∀ m acks b, (s.ctx n c).wait = .fence m acks b → s.fenceClear n c m acks b = true →
      ∃ t, exec (.fenceDone n c) s = .next t ∧ t.ctx n c = { s.ctx n c with wait := .run, since := s.now } ∧ (∀ m, m ≠ n → t.tile m = s.tile m) ∧ t.regs = s.regs ∧
        (t.tile n).mem = (s.tile n).mem) ∧
    (∀ k, k < 8 → s.g F.TILE_SEG_CLEARING n / 2 ^ k % 2 = 1 →
      ∃ t, exec (.segmentClearDone n k) s = .next t ∧ (∀ a, a / 49152 = k → t.word n a = .clean 0) ∧
        (∀ a, a / 49152 ≠ k → Sparse.get 0 (t.tile n).mem a = Sparse.get 0 (s.tile n).mem a) ∧ t.g F.TILE_SEG_CLEARING n / 2 ^ k % 2 = 0 ∧
        t.g F.TILE_SEG_ON n = (s.g F.TILE_SEG_ON n ||| 2 ^ k) ∧
        (∀ m, (s.ctx n 0).wait = .segOn m → (t.ctx n 0).wait = if (t.g F.TILE_SEG_ON n &&& m) = m then .run else .segOn m)) ∧
    (∀ m, (s.ctx n 0).wait = .segOff m → (s.tile n).segsNamed m = false → (s.tile n).accepted = [] →
      ∃ t, exec (.segmentPowerDown n) s = .next t ∧ (t.ctx n 0).wait = .run ∧
        (∀ k, k < 8 → (t.g F.TILE_SEG_ON n / 2 ^ k % 2 = 1 ↔ s.g F.TILE_SEG_ON n / 2 ^ k % 2 = 1 ∧ m / 2 ^ k % 2 = 0)) ∧
        (∀ a, Sparse.get 0 (t.tile n).mem a = if m / 2 ^ (a / 49152) % 2 = 0 then Sparse.get 0 (s.tile n).mem a else 0)) ∧
    (∀ k d, k < 16 → (s.ctx n c).wait = .alcClose k (some d) → (s.tile n).alcBusy k = false →
      ∃ t, exec (.alcoveCloseRetire n c) s = .next t ∧ (t.ctx n c).wait = .run ∧ t.alcIsOpen n k = true ∧ t.alcDesc n k = d.toNat ∧
        ∀ j, j < 16 → j ≠ k → t.alcIsOpen n j = s.alcIsOpen n j ∧ t.alcDesc n j = s.alcDesc n j) ∧
    (∀ k, (s.ctx n c).wait = .alcClose k none → (s.tile n).alcBusy k = false →
      ∃ t, exec (.alcoveCloseRetire n c) s = .next t ∧ (t.ctx n c).wait = .run ∧ t.regs = s.regs ∧ (t.tile n).mem = (s.tile n).mem)

/-- TILE_ARRIVAL once the waits of DRAIN are over (R91, R92, R168, R171): LAND waits for the landing of the next flight, LAND.OPEN puts its number in SD and goes on, and HALT ends the main context. The flight number goes up by 1 with an arrival. -/
def TileArrives : Prop :=
  ∀ (s : State) (n p kind sd before : Nat), n < 4608 → s.alive n = true → (s.tile n).dbgStop = false → s.partOf n = some p →
    (s.ctx n 0).wait = .drain kind sd before → (s.tile n).drained before = true →
    let l := add32 (s.tile n).flight 1
    ∃ t, exec (.tileArrival n) s = .next t ∧ (∀ a, Sparse.get 0 (t.tile n).mem a = Sparse.get 0 (s.tile n).mem a) ∧
      (kind = 2 → (t.ctx n 0).wait = .ended ∧ (t.tile n).flight = (s.tile n).flight) ∧
      (kind = 0 → ¬ 0 < diff32 (add32 l (2 ^ 32 - 4)) (s.g F.LAND_NUM_DONE p) → (t.ctx n 0).wait = .held l ∧ (t.tile n).flight = l ∧ (t.tile n).pendV = none) ∧
      (kind = 1 → ¬ 0 < diff32 (add32 l (2 ^ 32 - 4)) (s.g F.LAND_NUM_DONE p) →
        (t.ctx n 0).wait = .run ∧ (t.tile n).flight = l ∧ t.sreg n 0 sd = if sd = 0 then 0 else BitVec.ofNat 48 l) ∧
      (kind ≠ 2 → 0 < diff32 (add32 l (2 ^ 32 - 4)) (s.g F.LAND_NUM_DONE p) → t = s)

/-- FETCH_LINE_FILL of a line that is wanted (R70): its 32 half-words are there to fetch, a word that reads poisoned is held as poisoned, the contexts that waited for it go on, and every clean word stays. -/
def LineFilled : Prop :=
  ∀ (s : State) (n k : Nat), n < 4608 → s.alive n = true → s.fillWanted n k = true → 16 * k + 16 ≤ padWords →
    ∃ t, exec (.fetchLineFill n k) s = .next t ∧
      (∀ pc d, pc / 32 = k → s.word n (pc / 2) = .clean d → (t.tile n).fetched pc = some (fld d (48 * (pc % 2)) 48, false)) ∧
      (∀ pc, pc / 32 = k → s.word n (pc / 2) = .poison → (t.tile n).fetched pc = some (0, true)) ∧
      (∀ c, c < 2 → (s.ctx n c).wait = .fill k → (t.ctx n c).wait = .run) ∧ (∀ c, c < 2 → (s.ctx n c).wait ≠ .fill k → t.ctx n c = s.ctx n c) ∧
      ∀ a d, s.word n a = .clean d → t.word n a = .clean d

/-- MX, VX, ST and XC that can dispatch (R79, R80, R82): the instruction joins its engine's queue with its descriptor, its regions are registered, p[PD] is set, and memory, scalar registers and the other context stay. -/
def DispatchRows : Prop :=
  ∀ (s : State) (n c w d eng : Nat), s.guarded n c w = true → s.dispatches n c w eng d = true →
    let k := if eng = 0 then Kind.mx else if eng = 1 then Kind.vx else if eng = 2 then Kind.st else Kind.xc
    eng < 4 → s.stands n c k w = true → (eng = 3 → ∀ i ∈ (s.tile n).instrs, i.id < (s.tile n).nextId) →
    ∃ t, exec (k.row n c) s = .next t ∧ (t.tile n).nextId = (s.tile n).nextId + 1 ∧
      (∃ i ∈ (t.tile n).instrs, { i with recvDone := false } = s.dispatched n c w eng d) ∧ (eng < 3 → (t.tile n).instrs = (s.tile n).instrs ++ [s.dispatched n c w eng d]) ∧
      (eng < 3 → (t.tile n).sb = sbRegister (s.tile n).sb (s.tile n).nextId (engRegions eng 0 d (s.ctx n c).vl)) ∧
      (∀ i, (t.tile n).pred c i = s.predsWith n c (Ins.dpd w) true i) ∧ (∀ i, t.sreg n c i = s.sreg n c i) ∧ (t.ctx n c).pc = s.nextPc n c ∧ (t.ctx n c).wait = .run ∧
      t.ctx n (1 - c) = s.ctx n (1 - c) ∧ (t.tile n).mem = (s.tile n).mem ∧ ∀ m, m ≠ n → t.tile m = s.tile m

/-- What holds a dispatch back (R80): with TRY, p[PD] is cleared and the context goes on; without it, the context waits at the instruction. DISPATCH_AFTER_STALL of an instruction that can now dispatch is its dispatch. -/
def DispatchStall : Prop :=
  ∀ (s : State) (n c w eng : Nat),
    let k := if eng = 0 then Kind.mx else if eng = 1 then Kind.vx else Kind.st
    eng < 3 →
    (s.guarded n c w = true → s.stands n c k w = true → (s.tile n).queueFree eng c = false →
      ∃ t, exec (k.row n c) s = .next t ∧ (t.tile n).instrs = (s.tile n).instrs ∧ (t.tile n).sb = (s.tile n).sb ∧ (t.tile n).mem = (s.tile n).mem ∧
        (Ins.tryBit w = 1 → s.Scalar t n c (s.sreg n c) (s.predsWith n c (Ins.dpd w) false) (s.ctx n c).vl (s.nextPc n c)) ∧
        (Ins.tryBit w = 0 → (t.ctx n c).wait = .dispatch 0 w ∧ s.Scalar (t.setWait n c .run) n c (s.sreg n c) ((s.tile n).pred c) (s.ctx n c).vl (s.ctx n c).pc)) ∧
    (∀ why d, n < 4608 → c < 2 → s.alive n = true → (s.tile n).dbgStop = false → (s.ctx n c).wait = .dispatch why w → (s.ctx n c).pc < 2 ^ 17 - 1 → kindOf w = k → s.dispatches n c w eng d = true →
      ∃ t, exec (.dispatchAfterStall n c) s = .next t ∧ (t.ctx n c).wait = .run ∧ (t.ctx n c).pc = s.nextPc n c ∧
        (t.tile n).instrs = (s.tile n).instrs ++ [s.dispatched n c w eng d] ∧ (∀ i, (t.tile n).pred c i = s.predsWith n c (Ins.dpd w) true i) ∧
        (t.tile n).mem = (s.tile n).mem)

/-- MX_START, VX_START, ST_START and XC_START of instructions that may start (R80, R83, R88, R103, R107, R116, R177): they go from their queue into work, INIT = 0 sets the bank to zero, INIT = 1 keeps it and INIT = 2 loads it, a matrix instruction without K-steps drains or completes at once, a store hands over all its lines, an exchange without entries has sent all of them, and no clean word of the scratchpad changes. -/
def EngineStarts : Prop :=
  ∀ (s : State) (n c : Nat), n < 4608 → c < 2 → (s.partOf n).isSome = true →
    let starts := fun (t : State) (ids : List Nat) => (t.tile n).instrs = (s.tile n).instrs.map (fun i => if ids.contains i.id then { i with stage := .running, since := s.now } else i)
    let clean := fun (t : State) => ∀ a d, s.word n a = .clean d → t.word n a = .clean d
    (∀ i, (s.tile n).mxHead = some i → (s.tile n).mxRunning = none → sbReady (s.tile n).sb i.id [] (mxRegions i.desc) = true →
      ∃ t, exec (.mxStart n) s = .next t ∧ clean t ∧ (Mx.ksteps i.desc ≠ 0 → starts t [i.id]) ∧
        (Mx.init i.desc = 0 → (t.tile n).bankGet (mxBank i.desc i.handler) = List.replicate 1024 (0, false)) ∧
        (Mx.init i.desc = 1 → (t.tile n).acc = (if i.handler then ((s.tile n).bankHAt i.id).acc else (s.tile n).acc)) ∧
        (Mx.init i.desc = 2 → ∀ e, e < 1024 → Sparse.get 0 (t.tile n).acc (mxBank i.desc i.handler * 1024 + e) =
          (let x := (s.tile n).mxElem (Mx.dAddr i.desc) (Mx.dStride i.desc) 0 (e / 32) (e % 32) false
           if x.2 then 1 + 2 ^ 32 else 1 + (convT ⟨0, false, 0, 0, 0, 0⟩ 0 0 (fp32.decode false x.1)).1)) ∧
        (Mx.ksteps i.desc = 0 → Mx.drain i.desc = 0 → (t.tile n).instrs = (s.tile n).instrs.filter (fun x => x.id != i.id)) ∧
        (Mx.ksteps i.desc = 0 → Mx.drain i.desc ≠ 0 → ∃ j, (t.tile n).drains = (s.tile n).drains ++ [j] ∧ j.id = i.id)) ∧
    (∀ ch, (s.tile n).vxCandidate c = some ch → ch.all (fun i => sbReady (s.tile n).sb i.id (ch.map (·.id)) (vxRegions i.desc i.vl)) = true →
      ∃ t, exec (.vxStart n c) s = .next t ∧ starts t (ch.map (·.id)) ∧ (t.tile n).mem = (s.tile n).mem) ∧
    (∀ i id, (s.tile n).instr? id = some i → i.eng = 2 → i.stage = .queued → sbReady (s.tile n).sb id [] (stRegions i.desc) = true → (s.tile n).stBlocked i = false →
      ∃ t, exec (.stStart n id) s = .next t ∧ clean t ∧
        (St.dir i.desc = 0 → (t.tile n).instrs = (s.tile n).instrs.map (fun i => if i.id = id then { i with stage := .running, since := s.now, range := (s.tile n).stByteRange i.desc } else i)) ∧
        (St.dir i.desc ≠ 0 → (t.tile n).lineOut = (s.tile n).lineOut ++ ((s.tile n).stStoreAll (s.roundCtx n i (St.rm i.desc)) id i.desc).1)) ∧
    (∀ i, (s.tile n).exchanges.find? (fun i => i.stage == .queued) = some i → s.landFaulted n (xcAfter i) = false → (s.tile n).exchanges.all (fun j => !(j.stage == .running)) = true →
      sbReady (s.tile n).sb i.id [] (engRegions 3 0 i.desc 0) = true → s.landed n (xcAfter i) = true →
      ∃ t, exec (.xcStart n) s = .next t ∧ (t.tile n).mem = (s.tile n).mem ∧ (Xc.nent i.desc ≠ 0 → starts t [i.id]) ∧
        (Xc.nent i.desc = 0 → ∀ j ∈ (t.tile n).instrs, j.id = i.id → j.stage = .sent))

/-- MX_KSTEP and MX_DRAIN_END (R51, R52, R109, R110, R112): a K-step leaves its results in the bank and counts, and the last one drains or completes; the end of a drain writes the drained words and no others, and the instruction is complete. -/
def MatrixSteps : Prop :=
  ∀ (s : State) (n : Nat), n < 4608 →
    (∀ i, (s.tile n).mxRunning = some i →
      let bank := mxBank i.desc i.handler
      ∃ t, exec (.mxKstep n) s = .next t ∧
        (∀ e r, (mxBankStep (s.tile n) i.desc bank i.next ((s.tile n).bankGet bank)).1[e]? = some r →
          Sparse.get 0 (t.tile n).acc (bank * 1024 + e) = 1 + r.1 + (if r.2 then 2 ^ 32 else 0)) ∧
        (i.next + 1 ≠ Mx.ksteps i.desc → (t.tile n).instrs = (s.tile n).instrs.map (fun j => if j.id = i.id then { j with next := i.next + 1 } else j)) ∧
        (i.next + 1 = Mx.ksteps i.desc → Mx.drain i.desc = 0 → (t.tile n).instrs = (s.tile n).instrs.filter (fun x => x.id != i.id)) ∧
        (i.next + 1 = Mx.ksteps i.desc → Mx.drain i.desc ≠ 0 → (t.tile n).drains.map (·.id) = (s.tile n).drains.map (·.id) ++ [i.id]) ∧
        t.g F.ENG_MX_KSTEPS_COUNT n = min (s.g F.ENG_MX_KSTEPS_COUNT n + 1) (2 ^ F.ENG_MX_KSTEPS_COUNT.width - 1) ∧
        (∀ a d, s.word n a = .clean d → t.word n a = .clean d)) ∧
    (∀ j rest i, (s.tile n).drains = j :: rest → (s.tile n).instr? j.id = some i → (∀ w ∈ j.words, w.byte = none) → (j.words.map (·.addr)).Nodup →
      ∃ t, exec (.mxDrainEnd n) s = .next t ∧ (t.tile n).drains = rest ∧ (t.tile n).instrs = (s.tile n).instrs.filter (fun x => x.id != j.id) ∧
        (∀ w ∈ j.words, Sparse.get 0 (t.tile n).mem w.addr = storeVal w.data w.poison) ∧
        (∀ a, a ∉ j.words.map (·.addr) → Sparse.get 0 (t.tile n).mem a = Sparse.get 0 (s.tile n).mem a))

/-- VX_DONE of a running instruction or chain (R113–R131): its result words are written and no others, its elements count, and every instruction of it is complete. -/
def VectorDone : Prop :=
  ∀ (s : State) (n c : Nat), n < 4608 → c < 2 →
    let ch := (s.tile n).vxRunning (c == 1)
    let s1 := ch.foldl (fun s i => (s.readWords n 0 i.flight (vxReadList i.desc i.vl)).1) s
    let words := (vxChainRun s1 n ch []).flatMap (fun p => p.2.words)
    (∀ w ∈ words, w.byte = none) → (words.map (·.addr)).Nodup →
    ∃ t, exec (.vxDone n c) s = .next t ∧ (t.tile n).instrs = (s.tile n).instrs.filter (fun x => ch.all (fun i => x.id != i.id)) ∧
      (∀ w ∈ words, Sparse.get 0 (t.tile n).mem w.addr = storeVal w.data w.poison) ∧
      (∀ a d, a ∉ words.map (·.addr) → s.word n a = .clean d → t.word n a = .clean d) ∧
      (∀ i, ch = [i] → t.g F.ENG_VX_ELEMS_COUNT n = min (s.g F.ENG_VX_ELEMS_COUNT n + Vx.nrows i.desc * i.vl) (2 ^ F.ENG_VX_ELEMS_COUNT.width - 1))

/-- MESH_PACKET, MULTICAST_ROOT and XC_ENTRY_SEND (R21–R24, R178, R179, R183): a packet moves one hop of its route, is handed to its hall or dropped by its tag; a root router tells the sender the destination count; the sender puts an entry for one tile on the mesh and keeps it until it is acknowledged. -/
def MeshRows : Prop :=
  ∀ (s : State) (idx : Nat) (p : Packet),
    (s.net[idx]? = some p → p.arrived = false → s.firstOfFlow p = true →
      (p.here ≠ p.dstHall → ∃ t, exec (.meshPacket idx) s = .next t ∧ t.tiles = s.tiles ∧ t.regs = s.regs ∧
        t.net = s.net.map (fun q => if q.id = p.id then { q with here := nextHop q.route q.here q.dstHall } else q)) ∧
      (p.here = p.dstHall → s.tagOk p = true → (∀ a b c d e f, p.body ≠ .mcast a b c d e true f) → ∃ t, exec (.meshPacket idx) s = .next t ∧ t.tiles = s.tiles ∧ t.regs = s.regs ∧
        t.net = s.net.map (fun q => if q.id = p.id then { q with arrived := true } else q)) ∧
      (p.here = p.dstHall → s.tagOk p = false → ∃ t, exec (.meshPacket idx) s = .next t ∧ t.net = s.net.filter (fun q => q.id != p.id) ∧
        t.g F.HALL_XPART_DROP_COUNT p.dstHall = min (s.g F.HALL_XPART_DROP_COUNT p.dstHall + 1) (2 ^ F.HALL_XPART_DROP_COUNT.width - 1) ∧
        ∀ m, (t.tile m).mem = (s.tile m).mem)) ∧
    (∀ src i e group daddr words g, s.net[idx]? = some p → p.body = .mcast src i e group daddr false words → p.arrived = true → s.firstOfFlow p = true →
      Sparse.find? (s.hall p.dstHall).groups group = some g → g.root = true →
      ∃ t, exec (.multicastRoot idx) s = .next t ∧ t.ban = s.ban ++ [⟨banRouter p.dstHall, src, .exCount i e g.dests⟩] ∧ t.tiles = s.tiles ∧
        ∀ k, k < 64 → g.deliver.getLsbD k = true → ∃ q ∈ t.net, q.arrived = true ∧ q.dstHall = p.dstHall ∧ q.tag = p.tag ∧ q.body = .exch src i e (p.dstHall * 64 + k) daddr words) ∧
    (∀ n i e, n < 4608 → (s.partOf n).isSome = true → (s.tile n).exchanges.find? (fun i => i.stage == .running) = some i → (s.tile n).xcUnack.length < 64 →
      s.word n (Xc.list i.desc + i.next) = .clean e → s.xeRefused n i.desc e = false → Xe.mc e = 0 → Xe.rop e = 0 →
      ∃ t, exec (.xcEntrySend n) s = .next t ∧ (t.tile n).xcUnack = (s.tile n).xcUnack ++ [⟨i.id, i.next, some 1, 0⟩] ∧
        t.g F.XC_SENT_WORDS n = min (s.g F.XC_SENT_WORDS n + Xe.len e) (2 ^ F.XC_SENT_WORDS.width - 1) ∧
        ∃ q, t.net = s.net ++ [q] ∧ q.srcHall = n / 64 ∧ q.route = Xe.route e ∧ q.dstHall = s.devTile ((s.partOf n).getD 8) (Xe.dest e) / 64 ∧
          q.body = .exch n i.id i.next (s.devTile ((s.partOf n).getD 8) (Xe.dest e)) (Xe.daddr e) (s.readWords n 0 i.flight ((List.range (Xe.len e)).map (Xe.saddr e + ·))).2)

/-- EXCHANGE_DELIVERY, REDUCTION_CONTRIBUTION and XC_ACK (R150, R151, R180, R181, R183): an access that an open alcove admits writes its words and no others, one that none admits writes nothing, and each is answered; a router keeps a contribution until the last; an acknowledgement counts for its entry. -/
def DeliveryRows : Prop :=
  ∀ (s : State) (idx : Nat) (p : Packet),
    (∀ src i e dst daddr words, s.net[idx]? = some p → p.body = .exch src i e dst daddr words → p.arrived = true → s.firstOfFlow p = true → s.portHeld p dst = false →
      (∀ k, s.alcoveCheck dst daddr words.length true 0 1 ⟨some p.tag, none, p.tag⟩ = .ok k →
        ∃ t, exec (.exchangeDelivery idx) s = .next t ∧ t.net = s.net.filter (fun q => q.id != p.id) ∧ t.ban = s.ban ++ [⟨dst, src, .exAck i e 0 (s.localTile dst) daddr none⟩] ∧
          (∀ k w, words[k]? = some w → Sparse.get 0 (t.tile dst).mem (daddr + k) = storeVal w.1 w.2) ∧
          (∀ a, a < daddr ∨ daddr + words.length ≤ a → Sparse.get 0 (t.tile dst).mem a = Sparse.get 0 (s.tile dst).mem a) ∧ (∀ m, m ≠ dst → t.tile m = s.tile m)) ∧
      (∀ why k, s.alcoveCheck dst daddr words.length true 0 1 ⟨some p.tag, none, p.tag⟩ = .error (why, k) →
        ∃ t, exec (.exchangeDelivery idx) s = .next t ∧ t.ban = s.ban ++ [⟨dst, src, .exAck i e why (s.localTile dst) daddr none⟩] ∧
          (∀ m, (t.tile m).mem = (s.tile m).mem) ∧ t.g F.TILE_ALCOVE_VIOL_COUNT dst = min (s.g F.TILE_ALCOVE_VIOL_COUNT dst + 1) (2 ^ F.TILE_ALCOVE_VIOL_COUNT.width - 1) ∧
          (s.tile dst).flight ∈ (t.tile dst).pendF)) ∧
    (∀ src i e dst daddr rid cidx rop words d, s.net[idx]? = some p → p.body = .red src i e dst daddr rid cidx rop words → p.arrived = true → s.firstOfFlow p = true →
      Sparse.find? (s.hall p.dstHall).reds rid = some d → words.length = d.len → cidx < d.n →
      let pr := Sparse.get ⟨dst, daddr, rop, []⟩ (s.hall p.dstHall).pending rid
      let got : List RedContrib := pr.got ++ [⟨cidx, src, i, e, (((s.tile src).instr? i).map (·.flight)).getD (s.tile src).flight⟩]
      let buf := (s.hall p.dstHall).bufStore (d.buf + cidx * d.len) words
      pr.got.any (fun g => g.cidx == cidx) = false → pr.tile = dst → pr.daddr = daddr → pr.rop = rop →
      ∃ t, exec (.reductionContribution idx) s = .next t ∧ t.ban = s.ban ++ [⟨banRouter p.dstHall, src, .exAck i e 0 0 daddr none⟩] ∧ t.tiles = s.tiles ∧
        (pr.got.length + 1 < d.n →
          Sparse.find? (t.hall p.dstHall).pending rid = some { pr with got := got } ∧ (t.hall p.dstHall).redBuf = buf.redBuf ∧ t.net = s.net.filter (fun q => q.id != p.id)) ∧
        (d.n ≤ pr.got.length + 1 → Sparse.find? (t.hall p.dstHall).pending rid = none ∧
          ∃ q, t.net = s.net.filter (fun q => q.id != p.id) ++ [q] ∧ q.arrived = true ∧ q.dstHall = p.dstHall ∧
            q.body = .redOut dst daddr (routerCombine rop ((List.range d.n).map (fun c => buf.bufWords (d.buf + c * d.len) d.len)) d.len)
              (got.map (fun g => (g.src, g.instr, g.entry, g.flight))))) ∧
    (∀ b i e dt a, s.banAt idx = some b → b.msg = .exAck i e 0 dt a none →
      ∃ t, exec (.xcAck idx) s = .next t ∧ t.ban = s.ban.eraseIdx idx ∧ t.regs = s.regs ∧ (∀ m, (t.tile m).mem = (s.tile m).mem) ∧
        (t.tile b.dst).xcUnack = ((s.tile b.dst).xcUnack.map (fun u => if u.id = i ∧ u.entry = e then { u with got := u.got + 1 } else u)).filter
          (fun u => u.need.all (fun k => decide (u.got < k)))) ∧
    (∀ b i e why dt a late, s.banAt idx = some b → b.msg = .exAck i e why dt a late → why ≠ 0 →
      ∃ t, exec (.xcAck idx) s = .next t ∧ t.ban = s.ban.eraseIdx idx ∧ (∀ m, (t.tile m).mem = (s.tile m).mem) ∧
        t.g F.XC_NACK_COUNT b.dst = min (s.g F.XC_NACK_COUNT b.dst + 1) (2 ^ F.XC_NACK_COUNT.width - 1) ∧ t.g F.XC_NACK_LAST_REASON b.dst = why % 2 ^ F.XC_NACK_LAST_REASON.width)

/-- OPEN_OUT, OPEN_IN, CLOSE_OUT, CLOSE_IN and SEND that dispatch (R79, R194–R199, R213): the instruction joins its order behind what waits there; with nothing before it an opened channel holds its descriptor's fields, a close waits for its channel or is over at once, a handler's SEND is judged, and what the channels' state does not allow faults the tile; p[PD] is set and memory and scalar registers stay. What the engine refuses at dispatch, the reserved functions with it, faults the tile. -/
def MessageRows : Prop :=
  ∀ (s : State) (n c w d : Nat), s.guarded n c w = true → s.msgRests n = true → (∀ i ∈ (s.tile n).instrs, i.id < (s.tile n).nextId) →
    let func := fld (Ins.aux w) 7 3
    let ch := fld d 0 6
    let i := s.dispatched n c w 4 d
    let alone := (s.tile n).order false 0 = [] ∧ (s.tile n).order false 1 = []
    let keeps := fun (t : State) => (∀ i, (t.tile n).pred c i = s.predsWith n c (Ins.dpd w) true i) ∧ (∀ i, t.sreg n c i = s.sreg n c i) ∧
      (t.ctx n c).pc = s.nextPc n c ∧ (t.ctx n c).wait = .run ∧ t.ctx n (1 - c) = s.ctx n (1 - c) ∧ (t.tile n).mem = (s.tile n).mem
    let joins := fun (t : State) => keeps t ∧ (t.tile n).instrs = (s.tile n).instrs ++ [i] ∧ ∀ k, t.outC n k = s.outC n k ∧ t.inC n k = s.inC n k
    (s.dispatches n c w 4 d = true →
      (s.stands n c .send w = true → (c = 0 ∨ (s.tile n).order true i.cls ≠ []) → ∃ t, exec (.send n c) s = .next t ∧ joins t) ∧
      (s.stands n c .send w = true → c = 1 → (s.tile n).order true i.cls = [] → i.cls < 2 → s.sendCause n i = none →
        ∃ t, exec (.send n c) s = .next t ∧ keeps t ∧ (t.tile n).instrs = (s.tile n).instrs ++ [{ i with next := 1 }]) ∧
      (s.stands n c .openOut w = true → alone → s.openOutBad n d = false → ∃ t, exec (.openOut n c) s = .next t ∧ keeps t ∧ (t.tile n).instrs = (s.tile n).instrs ∧
        t.g F.CHO_CFG_OPEN n ch = 1 ∧ t.g F.CHO_CFG_DKIND n ch = Oo.dkind d ∧ t.g F.CHO_CFG_DTILE n ch = Oo.dtile d ∧
        t.g F.CHO_CFG_TARGET n ch = Oo.target d ∧ t.g F.CHO_CFG_INCH n ch = Oo.inch d ∧ t.g F.CHO_CFG_CLASS n ch = Oo.cls d ∧
        t.g F.CHO_CFG_REPLY n ch = Oo.reply d ∧ t.g F.CHO_CFG_MAXLEN n ch = Oo.maxlen d ∧ t.g F.CHO_CFG_RSIZE n ch = Oo.rsize d ∧
        t.g F.CHO_STATE_WP n ch = 0 ∧ t.g F.CHO_STATE_CRED n ch = s.g F.CHO_STATE_CRED n ch ∧ (t.outC n ch).dest = s.chanTile n (Oo.dkind d) (Oo.target d) (Oo.dtile d)) ∧
      (s.stands n c .openIn w = true → alone → s.openInBad n d = false → ∃ t, exec (.openIn n c) s = .next t ∧ keeps t ∧ (t.tile n).instrs = (s.tile n).instrs ∧
        t.g F.CHI_CFG_OPEN n ch = 1 ∧ t.g F.CHI_CFG_SKIND n ch = Oi.skind d ∧ t.g F.CHI_CFG_STILE n ch = Oi.stile d ∧
        t.g F.CHI_CFG_SOUTCH n ch = Oi.soutch d ∧ t.g F.CHI_CFG_HBASE n ch = Oi.hbase d ∧ t.g F.CHI_CFG_MODE n ch = Oi.mode d ∧
        t.g F.CHI_STATE_RBASE n ch = Oi.rbase d ∧ t.g F.CHI_STATE_RSIZE n ch = Oi.rsize d ∧ t.g F.CHI_STATE_RP n ch = 0 ∧
        (t.inC n ch).msgs = [] ∧ (t.inC n ch).rspace = (if Oi.replyin d = 1 then Oi.rsize d else 0)) ∧
      (s.stands n c .closeOut w = true → alone → s.g F.CHO_CFG_OPEN n ch = 1 → ∃ t, exec (.closeOut n c) s = .next t ∧ keeps t ∧
        (t.tile n).closeWaiting 3 = some { i with stage := .running } ∧ t.g F.CHO_CFG_OPEN n ch = 1) ∧
      (s.stands n c .closeOut w = true → alone → s.g F.CHO_CFG_OPEN n ch = 0 → ∃ t, exec (.closeOut n c) s = .next t ∧ keeps t ∧ (t.tile n).instrs = (s.tile n).instrs) ∧
      (s.stands n c .closeIn w = true → alone → s.g F.CHI_CFG_OPEN n ch = 1 →
        (∀ j, j < 64 → s.g F.CHO_CFG_OPEN n j = 1 → (s.outC n j).rgrant ≠ 0 → (s.outC n j).pair ≠ ch) → ∃ t, exec (.closeIn n c) s = .next t ∧ keeps t ∧
        (t.tile n).closeWaiting 4 = some { i with stage := .running } ∧ (t.inC n ch).closing = true) ∧
      (s.stands n c .closeIn w = true → alone → s.g F.CHI_CFG_OPEN n ch = 0 →
        (∀ j, j < 64 → s.g F.CHO_CFG_OPEN n j = 1 → (s.outC n j).rgrant ≠ 0 → (s.outC n j).pair ≠ ch) →
        ∃ t, exec (.closeIn n c) s = .next t ∧ keeps t ∧ (t.tile n).instrs = (s.tile n).instrs) ∧
      (∀ k ∈ [Kind.openOut, .openIn, .closeOut, .closeIn], s.stands n c k w = true → ¬ alone → ∃ t, exec (k.row n c) s = .next t ∧ joins t) ∧
      ((∀ a, a < descWords 4 func → ∃ x, s.word n (descAddr s n c w + a) = .clean x) →
        (∀ cause, s.stands n c .send w = true → c = 1 → (s.tile n).order true i.cls = [] → i.cls < 2 → s.sendCause n i = some cause →
          ∃ t, exec (.send n c) s = .next t ∧ s.Faulted t n 1 cause 4 (s.ctx n c).pc 0) ∧
        (s.stands n c .openOut w = true → alone → s.openOutBad n d = true → ∃ t, exec (.openOut n c) s = .next t ∧ s.Faulted t n 0 6 4 (s.ctx n c).pc 0) ∧
        (s.stands n c .openIn w = true → alone → s.openInBad n d = true → ∃ t, exec (.openIn n c) s = .next t ∧ s.Faulted t n 0 6 4 (s.ctx n c).pc 0) ∧
        (∀ j, s.stands n c .closeIn w = true → alone → j < 64 → s.g F.CHO_CFG_OPEN n j = 1 → (s.outC n j).rgrant ≠ 0 → (s.outC n j).pair = ch →
          ∃ t, exec (.closeIn n c) s = .next t ∧ s.Faulted t n 0 6 4 (s.ctx n c).pc 0))) ∧
    (∀ k ∈ [Kind.send, .openOut, .openIn, .closeOut, .closeIn], s.stands n c k w = true → (s.tile n).queueFree 4 c = true →
      let a := descAddr s n c w
      sbHazard (s.tile n).sb a (descWords 4 func) false = false → s.descFault n 4 a (descWords 4 func) = none →
      (∀ j, j < descWords 4 func → ∃ x, s.word n (a + j) = .clean x) → joinWords ((s.tile n).peekDesc a (descWords 4 func)) = d →
      (sbRegister (s.tile n).sb (s.tile n).nextId (engRegions 4 func d (s.ctx n c).vl)).length ≤ 48 → s.engRefused n c 4 func d (s.ctx n c).vl = true →
      ∃ t, exec (k.row n c) s = .next t ∧ s.Faulted t n c 6 4 (s.ctx n c).pc 0)

/-- MESSAGE_SEND, MESSAGE_ARRIVAL, WRAP_MARKER, DOORBELL, MESSAGE_LAST_WORD and HELD_DELIVERY_RESUME (R149–R151, R199–R208): the head SEND of an order goes out with its header and words, behind a marker where the ring wraps, or waits for credit; a message is checked once and takes a cell, waits for one, or is refused; a marker is written and its pad noted; an item whose doorbell and last word have come joins its list. -/
def MessageFlow : Prop :=
  ∀ (s : State) (n idx : Nat),
    (∀ c cls i, n < 4608 → c < 2 → (s.tile n).order (c == 1) cls = [i] → (∀ x ∈ (s.tile n).instrs, x.eng = 4 → x.inQueue = true → x = i) → i.func = 0 → (s.partOf n).isSome = true →
      let j := Snd.outch i.desc
      let len := Snd.len i.desc
      let pad := s.sendPad n j len
      (if i.handler ∧ i.next ≠ 0 then none else s.sendCause n i) = none → (s.tile n).unackMsgs < 64 → sbReady (s.tile n).sb i.id [] (engRegions 4 0 i.desc 0) = true →
      let wp := if pad = 0 then s.g F.CHO_STATE_WP n j else 0
      let hdr := fun (off len : Nat) (wrap : Bool) (grant : Nat) => (⟨s.localTile n, (s.partOf n).getD 0, j, s.g F.CHO_CFG_INCH n j, off, len, Snd.sub i.desc, s.g F.CHO_CFG_CLASS n j, wrap,
        s.g F.CHO_CFG_REPLY n j == 1, (s.outC n j).seq, grant, (s.outC n j).pair, false, 0⟩ : MsgHdr)
      let enough := len + pad ≤ s.g F.CHO_STATE_CRED n j ∧ ((s.outC n j).rgrant = 0 ∨ (s.outC n j).rgrant ≤ (s.inC n (s.outC n j).pair).rspace)
      (enough → ∃ t, exec (.messageSend n c cls) s = .next t ∧ (t.tile n).order (c == 1) cls = [] ∧
        (t.outC n j).unacked = (s.outC n j).unacked ++ [((s.outC n j).seq, len, (s.outC n j).rgrant, i.id)] ∧ (t.outC n j).seq = ((s.outC n j).seq + 1) % 256 ∧
        t.g F.CHO_STATE_CRED n j = s.g F.CHO_STATE_CRED n j - (len + pad) ∧ t.g F.CHO_STATE_WP n j = (wp + len) % s.g F.CHO_CFG_RSIZE n j % 2 ^ F.CHO_STATE_WP.width ∧
        (∀ a x, s.word n a = .clean x → t.word n a = .clean x) ∧ (∀ m, m ≠ n → t.tile m = s.tile m) ∧
        (∀ m, s.g F.CHO_CFG_DKIND n j ≠ 2 → (s.outC n j).dest = some m → t.ban = s.ban ++ [⟨n, m, .bell (s.g F.CHO_CFG_INCH n j) (s.outC n j).seq n⟩] ∧
          ∃ q, t.net = s.net ++ (if pad = 0 then [] else [⟨s.nextPkt, (s.partOf n).getD 8, n / 64, m / 64, 0, n / 64, s.g F.CHO_CFG_CLASS n j, false, none,
              .msg m (hdr (s.g F.CHO_STATE_WP n j) 1 true 0) n [(wrapWord pad, false)]⟩]) ++ [q] ∧
            q.tag = (s.partOf n).getD 8 ∧ q.srcHall = n / 64 ∧ q.dstHall = m / 64 ∧ q.cls = s.g F.CHO_CFG_CLASS n j ∧
            q.body = .msg m (hdr wp len false (s.outC n j).rgrant) n (s.readWords n 0 i.flight ((List.range len).map (Snd.saddr i.desc + ·))).2)) ∧
      (¬ enough → (i.handler = false ∨ i.next ≠ 0) → ∃ t, exec (.messageSend n c cls) s = .next t ∧ (t.outC n j).stall = some ((s.outC n j).stall.getD s.now) ∧ t.net = s.net ∧ t.ban = s.ban ∧ t.regs = s.regs ∧
        (t.tile n).mem = (s.tile n).mem ∧ (t.tile n).instrs = (s.tile n).instrs)) ∧
    (∀ p h src words, s.net[idx]? = some p → p.body = .msg n h src words → p.held = none → s.portHeld p n = false → p.arrived = true → s.firstOfFlow p = true →
      let ring := s.g F.CHI_STATE_RBASE n h.inch + h.off
      (∀ alc, h.wrap = false → s.msgCheck n h p.tag = .ok alc →
        ∃ t, exec (.messageArrival idx) s = .next t ∧ (t.tile n).accepted = (s.tile n).accepted ++ [(alc, p.id)] ∧ (∀ m, (t.tile m).mem = (s.tile m).mem) ∧
          (∀ cell, s.cellFor n h.cls = some cell → t.net = s.net.filter (fun q => q.id != p.id) ∧ (t.hall (n / 64)).cellBusy cell = true ∧
            ∃ m, (t.inC n h.inch).msgs = (s.inC n h.inch).msgs ++ [m] ∧ m.hdr = h ∧ m.cell = cell ∧ m.words = words ∧ m.landed = false ∧ m.queued = false ∧ m.pad = (s.inC n h.inch).padnext) ∧
          (s.cellFor n h.cls = none → t.net = s.net.map (fun q => if q.id = p.id then { q with held := some alc } else q) ∧ t.regs = s.regs ∧ t.halls = s.halls)) ∧
      (∀ alc, h.wrap = true → s.msgCheck n h p.tag = .ok alc →
        ∃ t, exec (.wrapMarker idx) s = .next t ∧ (t.inC n h.inch).padnext = s.g F.CHI_STATE_RSIZE n h.inch - h.off ∧ t.net = s.net.filter (fun q => q.id != p.id) ∧
          (h.xdev = false → t.ban = s.ban ++ [⟨n, src, .msgAck h.soutch (256 + h.seq) 0 (s.localTile n) ring⟩]) ∧
          (∀ k w, words[k]? = some w → Sparse.get 0 (t.tile n).mem (ring + k) = storeVal w.1 w.2) ∧
          (∀ a, a < ring ∨ ring + words.length ≤ a → Sparse.get 0 (t.tile n).mem a = Sparse.get 0 (s.tile n).mem a)) ∧
      (∀ why alc, s.msgCheck n h p.tag = .error (why, alc) →
        ∃ t, exec (if h.wrap then .wrapMarker idx else .messageArrival idx) s = .next t ∧ t.net = s.net.filter (fun q => q.id != p.id) ∧ (∀ m, (t.tile m).mem = (s.tile m).mem) ∧
          (s.tile n).flight ∈ (t.tile n).pendF ∧
          (h.xdev = false → ∃ l, t.ban = l ++ [⟨n, src, .msgAck h.soutch (if h.wrap then 256 + h.seq else h.seq) why (s.localTile n) ring⟩]))) ∧
    (∀ p h src words alc cell, s.net[idx]? = some p → p.body = .msg n h src words → p.held = some alc → s.cellFor n h.cls = some cell →
      ∃ t, exec (.heldDeliveryResume idx) s = .next t ∧ t.net = s.net.filter (fun q => q.id != p.id) ∧ (t.tile n).accepted = (s.tile n).accepted ∧ (∀ m, (t.tile m).mem = (s.tile m).mem) ∧
        (t.hall (n / 64)).cellBusy cell = true ∧
        ∃ m, (t.inC n h.inch).msgs = (s.inC n h.inch).msgs ++ [m] ∧ m.hdr = h ∧ m.cell = cell ∧ m.words = words ∧ m.landed = false ∧ m.queued = false) ∧
    (∀ b k seq src, s.banAt idx = some b → b.msg = .bell k seq src → (s.inC b.dst k).dead.contains (src, seq) = true →
      ∃ t, exec (.doorbell idx) s = .next t ∧ t.ban = s.ban.eraseIdx idx ∧ (t.inC b.dst k).dead = (s.inC b.dst k).dead.erase (src, seq) ∧ (t.inC b.dst k).msgs = (s.inC b.dst k).msgs ∧
        t.regs = s.regs ∧ t.halls = s.halls ∧ t.net = s.net) ∧
    (∀ b k seq src, s.banAt idx = some b → b.msg = .bell k seq src → (s.inC b.dst k).dead.contains (src, seq) = false →
      ((s.inC b.dst k).msgs.find? (fun m => m.hdr.seq == seq && m.src == src && !m.doorbell) = none →
        ∃ t, exec (.doorbell idx) s = .next t ∧ t.ban = s.ban.eraseIdx idx ∧ (t.inC b.dst k).bells = (s.inC b.dst k).bells ++ [(src, seq)] ∧ (t.inC b.dst k).msgs = (s.inC b.dst k).msgs) ∧
      (∀ m, (s.inC b.dst k).msgs.find? (fun m => m.hdr.seq == seq && m.src == src && !m.doorbell) = some m → ((s.inC b.dst k).msgs.map (·.pid)).Nodup →
        (m.landed = false → (∀ x, (s.inC b.dst k).msgs.find? (fun m => !m.queued && !m.done) = some x → (x.doorbell && x.landed) = false) →
          ∃ t, exec (.doorbell idx) s = .next t ∧ t.ban = s.ban.eraseIdx idx ∧ t.halls = s.halls ∧
            (t.inC b.dst k).msgs = (s.inC b.dst k).msgs.map (fun x => if x.pid = m.pid then { x with doorbell := true } else x)) ∧
        (m.landed = true → (s.inC b.dst k).msgs.find? (fun m => !m.queued && !m.done) = some m →
          ∃ t, exec (.doorbell idx) s = .next t ∧ (s.tile b.dst).signals < (t.tile b.dst).signals ∧ ∃ x ∈ (t.inC b.dst k).msgs, x.pid = m.pid ∧ x.doorbell = true ∧ x.queued = true))) ∧
    (∀ k m, n < 4608 → (s.inC n k).msgs.find? (fun m => !m.landed) = some m → ((s.inC n k).msgs.map (·.pid)).Nodup →
      let ring := s.g F.CHI_STATE_RBASE n k + m.hdr.off
      ∃ t, exec (.messageLastWord n k) s = .next t ∧ (∀ i w, m.words[i]? = some w → Sparse.get 0 (t.tile n).mem (ring + i) = storeVal w.1 w.2) ∧
        (∀ a, a < ring ∨ ring + m.words.length ≤ a → Sparse.get 0 (t.tile n).mem a = Sparse.get 0 (s.tile n).mem a) ∧
        (t.tile n).accepted = (s.tile n).accepted.filter (fun x => x.2 != m.pid) ∧
        (∃ x ∈ (t.inC n k).msgs, x.pid = m.pid ∧ x.landed = true ∧
          (m.doorbell = true → (s.inC n k).msgs.find? (fun m => !m.queued && !m.done) = some m → x.queued = true ∧ (s.tile n).signals < (t.tile n).signals)))

/-- CORRECTION_WRITE_BACK, SCRUB_READ and SCRUB_FORCED (R141, R142): a scheduled correction takes its word's place; the scrubber corrects the next row of a powered segment, leaves every clean word, and goes to the next row; a pass open for 500 ms is forced. -/
def ScrubRows : Prop :=
  ∀ (s : State) (n : Nat), n < 4608 →
    (∀ a v, Sparse.find? (s.tile n).wb a = some v →
      ∃ t, exec (.correctionWriteBack n a) s = .next t ∧ Sparse.get 0 (t.tile n).mem a = v ∧ Sparse.find? (t.tile n).wb a = none ∧ s.onlyWord t n a ∧
        (∀ m, m ≠ n → t.tile m = s.tile m) ∧ t.regs = s.regs) ∧
    (s.scrubNext n (s.tile n).scrubRow < 6144 → s.scrubNext n (s.scrubNext n (s.tile n).scrubRow + 1) < 6144 →
      ∃ t, exec (.scrubRead n) s = .next t ∧ (t.tile n).scrubRow = s.scrubNext n (s.tile n).scrubRow + 1 ∧ (∀ a d, Sparse.find? (s.tile n).wb a = none → s.word n a = .clean d → t.word n a = .clean d) ∧
        (∀ a d, a / 64 = s.scrubNext n (s.tile n).scrubRow → s.word n a = .corrected d → t.word n a = .clean d) ∧
        (∀ a, a / 64 ≠ s.scrubNext n (s.tile n).scrubRow → Sparse.get 0 (t.tile n).mem a = Sparse.get 0 (s.tile n).mem a)) ∧
    ((s.tile n).scrubStart + 500000000 ≤ s.now → ∃ t, exec (.scrubForced n) s = .next t ∧ t.g F.TILE_SCRUB_FORCED n = 1 ∧ t.tiles = s.tiles ∧
      t.g F.TILE_SCRUB_PASSES n = s.g F.TILE_SCRUB_PASSES n)

/-- GALLERY_SCRUB_READ and GALLERY_SCRUB_FORCED (R156–R158): a slice's scrub goes line by line, over lines no slot holds too, and counts its passes; a slice whose pass has been open for 500 ms is forced, and no other. -/
def GalleryScrubRows : Prop :=
  ∀ (s : State) (h k : Nat), h < 72 → k < 8 →
    let l := Sparse.get 0 (s.hall h).scrubLine k
    (l + 1 < 98304 → ∃ t, exec (.galleryScrubRead h k) s = .next t ∧ Sparse.get 0 (t.hall h).scrubLine k = l + 1 ∧ (∀ j, j ≠ k → Sparse.get 0 (t.hall h).scrubLine j = Sparse.get 0 (s.hall h).scrubLine j)) ∧
    (98304 ≤ l + 1 → s.slot? h (k * 96 + l / 1024) = none → ∃ t, exec (.galleryScrubRead h k) s = .next t ∧ Sparse.get 0 (t.hall h).scrubLine k = 0 ∧ Sparse.get 0 (t.hall h).scrubStart k = s.now ∧
      t.g F.HALL_GAL_SCRUB_PASSES h = min (s.g F.HALL_GAL_SCRUB_PASSES h + 1) (2 ^ F.HALL_GAL_SCRUB_PASSES.width - 1) ∧ t.g F.HALL_GAL_SCRUB_FORCED h / 2 ^ k % 2 = 0) ∧
    (Sparse.get 0 (s.hall h).scrubStart k + 500000000 ≤ s.now → ∃ t, exec (.galleryScrubForced h k) s = .next t ∧ t.halls = s.halls ∧ t.tiles = s.tiles ∧
      ∀ j, j < 8 → (t.g F.HALL_GAL_SCRUB_FORCED h / 2 ^ j % 2 = 1 ↔ j = k ∨ s.g F.HALL_GAL_SCRUB_FORCED h / 2 ^ j % 2 = 1))

/-- LANDING_COMPLETE and LANDING_TIMEOUT of a partition that lands alone (R167–R174, R193): the verdict and the number of the completed landing are written, held contexts go on or, with the fault bit, every tile stops; a landing incomplete for too long is counted and reported once. -/
def LandingRows : Prop :=
  ∀ (s : State) (p : Nat), p < 8 → s.landMode p = 0 →
    let l := add32 (s.g F.LAND_NUM_DONE p) 1
    (∀ bits, s.landBits p l = some bits → bits < 2 ^ 16 →
      ∃ t, exec (.landingComplete p) s = .next t ∧ t.g F.LAND_NUM_DONE p = l ∧ (t.regs.rd R.LAND_VERDICT p).toNat = bits + l * 2 ^ 16 ∧
        (bits / 4 % 2 = 0 → ∀ n ∈ s.tilesOf p, ∀ m, (s.ctx n 0).wait = .held m → diff32 m l ≤ 0 → (t.ctx n 0).wait = .run) ∧
        (bits / 4 % 2 = 1 → ∀ n ∈ s.tilesOf p, (s.ctx n 0).wait ≠ .off → (t.tile n).stopped = true)) ∧
    (∀ k e t0, s.landing? p k = some e → e.first = some t0 → e.reported = false → t0 + 1000 * s.g F.LAND_CTRL_TIMEOUT p ≤ s.now → s.landBits p k = none →
      ∃ t, exec (.landingTimeout p k) s = .next t ∧ t.g F.LAND_TIMEOUTS_COUNT p = min (s.g F.LAND_TIMEOUTS_COUNT p + 1) (2 ^ F.LAND_TIMEOUTS_COUNT.width - 1) ∧
        t.g F.LAND_LATE_VALID p = 1 ∧ t.g F.LAND_LATE_LANDING p = k % 2 ^ F.LAND_LATE_LANDING.width ∧ t.g F.LAND_NUM_DONE p = s.g F.LAND_NUM_DONE p ∧ ∀ n, t.tile n = s.tile n)

/-- SYNC_PULSE, SYNC_GLITCH, STUCK_SYNC and STUCK_SYNC_CLEAR on a watched input (R188, R190, R191): a pulse within four landings counts; one beyond them does not and faults the partition; glitches count; a stuck input shows in SYNC.STATUS until it ends. -/
def SyncPins : Prop :=
  ∀ (s : State) (pin : Nat), pin < 2 →
    let f := if pin = 0 then F.SYNC_COUNT_DNCOUNT else F.SYNC_COUNT_UPCOUNT
    let g := if pin = 0 then F.SYNC_STATUS_STUCK_DN else F.SYNC_STATUS_STUCK_UP
    let p := s.g F.SYNC_CFG_PART 0
    (s.syncWatches pin = true → ¬ 4 < diff32 (add32 (s.g f 0) 1) (s.g F.LAND_NUM_DONE p) → ∃ t, exec (.syncPulse pin) s = .next t ∧ t.g f 0 = add32 (s.g f 0) 1) ∧
    (s.syncWatches pin = true → 4 < diff32 (add32 (s.g f 0) 1) (s.g F.LAND_NUM_DONE p) →
      ∃ t, exec (.syncPulse pin) s = .next t ∧ t.g f 0 = s.g f 0 ∧ t.g F.SYNC_STATUS_EXCESS 0 = 1 ∧ ∀ x ∈ t.parts, x.num = p → x.fault = true) ∧
    (s.syncWatches pin = true → ∃ t, exec (.syncGlitch pin) s = .next t ∧ t.g F.SYNC_GLITCH_COUNT 0 = min (s.g F.SYNC_GLITCH_COUNT 0 + 1) (2 ^ F.SYNC_GLITCH_COUNT.width - 1) ∧ t.g f 0 = s.g f 0) ∧
    (s.syncWatches pin = true → ∃ t, exec (.stuckSync pin) s = .next t ∧ t.g g 0 = 1 ∧ t.syncWatches pin = false ∧ t.g f 0 = s.g f 0) ∧
    (∃ t, exec (.stuckSyncClear pin) s = .next t ∧ t.g g 0 = 0 ∧ t.tiles = s.tiles ∧ t.parts = s.parts)

/-- LINE_READ_REQUEST and LINE_WRITE_REQUEST of a tile within its partition's range (R218, R220, R229–R235): a read that the hall's own gallery holds is served with its value, a refused one with poison, and one of a peer's range waits for the peer's answer; a write that can be applied is taken, and where it took a slot the slot holds the line. -/
def LineRequests : Prop :=
  ∀ (s : State) (n p : Nat) (i : EngInstr), n < 4608 → s.partOf n = some p →
    (∀ id a, (s.tile n).instr? id = some i → i.eng = 2 → a % 64 = 0 → s.stMayRead n i a = true →
      (St.tgt i.desc = 1 → s.peerUp (St.peer i.desc) = true → s.waits.contains ⟨n, id, a⟩ = false →
        ∃ t, exec (.lineReadRequest n id a) s = .next t ∧ ⟨n, id, a⟩ ∈ t.waits ∧ (t.tile n).mem = (s.tile n).mem ∧ (t.tile n).lineResp = (s.tile n).lineResp ∧ t.frames = s.frames ∧ t.halls = s.halls) ∧
      (∀ x v, St.tgt i.desc = 0 → s.pageReason p (pageOf a) false = 0 → s.resultHeld p a = false → s.mending a = false →
        (s.holders (blockOf a)).find? (fun x => x.1 == n / 64 && x.2.2.has (a / 64 % 1024) && x.2.2.state != .moving) = some x → (s.slotValue (n / 64) x.2.1 a).2 = some v →
        ∃ t, exec (.lineReadRequest n id a) s = .next t ∧ (t.tile n).lineResp = (s.tile n).lineResp ++ [⟨id, a, v⟩] ∧ (t.tile n).mem = (s.tile n).mem) ∧
      (St.tgt i.desc = 0 → s.pageReason p (pageOf a) false ≠ 0 → ∃ t, exec (.lineReadRequest n id a) s = .next t ∧ (t.tile n).lineResp = (s.tile n).lineResp ++ [⟨id, a, ⟨0, true⟩⟩] ∧
        (∀ x ∈ t.parts, x.num = p → x.fault = true) ∧ t.frames = s.frames ∧ t.halls = s.halls)) ∧
    (∀ l, (s.tile n).nextOut = some l → (s.tile n).instr? l.id = some i → s.stMayWrite n = true → St.tgt i.desc = 0 → s.inCarea p l.addr = false → s.doneLink p l.addr = none →
      s.pageReason p (pageOf l.addr) true = 0 → s.pageHeld (pageOf l.addr) = false → (s.hallWrite (n / 64) l.addr l.data l.mask l.poison).2 = true →
      ∃ t, exec (.lineWriteRequest n) s = .next t ∧ (t.tile n).lineOut.filter (fun x => !x.issued) = ((s.tile n).lineOut.filter (fun x => !x.issued)).drop 1 ∧
        (t.tile n).mem = (s.tile n).mem ∧
        ∀ k, s.holders (blockOf l.addr) = [] → l.mask = BitVec.allOnes 64 → (s.allocSlot (n / 64) (blockOf l.addr) .modified none).2 = some k →
          ∃ z, t.slot? (n / 64) k = some z ∧ z.block = blockOf l.addr ∧
            Sparse.find? z.lines (l.addr / 64 % 1024) = some (galStore (if l.poison then 0 else l.data.toNat) l.poison))

/-- FRAME_LINE_READ, FILL_LINE_ARRIVAL and WRITE_BACK_DONE (R226, R230–R234): a read corrects a line it can correct and leaves every other line; a line a slot waits for is on its way to it, arrives in it, and an evicted slot becomes free. -/
def FillRows : Prop :=
  ∀ (s : State),
    (∀ f l, f < 466033 → l < 131072 → (s.pageOfFrame f).any (fun e => s.repairing e l) = false →
      let w := (s.pageOfFrame f).bind (fun e => s.wanting (e * 128 + l / 1024) (l % 1024))
      (∀ d k, w = none → frameClassify (s.frameLine f l) = .corrected d k →
        ∃ t, exec (.frameLineRead f l) s = .next t ∧ t.frameLine f l = frameStore d false ∧ (∀ g m, m < 131072 → (g, m) ≠ (f, l) → t.frameLine g m = s.frameLine g m) ∧
          t.g F.MEMC_CE_COUNT (place f l).1 = min (s.g F.MEMC_CE_COUNT (place f l).1 + 1) (2 ^ F.MEMC_CE_COUNT.width - 1)) ∧
      (∀ d x, w = some x → frameClassify (s.frameLine f l) = .clean d → s.readRoom x.1 2 = true →
        s.readShare x.1 (((s.pageOfFrame f).getD 0) * 2 ^ 23 + l * 64) = true →
        ∃ t, exec (.frameLineRead f l) s = .next t ∧ t.flying = s.flying ++ [⟨x.1, x.2, l % 1024, ⟨BitVec.ofNat 512 d, false⟩⟩] ∧ t.frames = s.frames ∧ t.tiles = s.tiles)) ∧
    (∀ h k l x y, h < 72 → k < 768 → l < 1024 → s.flying.find? (fun x => x.hall == h && x.slot == k && x.line == l) = some x → s.slot? h k = some y → y.has l = false →
      ∃ t z, exec (.fillLineArrival h k l) s = .next t ∧ t.slot? h k = some z ∧ z.block = y.block ∧ Sparse.find? z.lines l = some (galStore x.val.data.toNat x.val.poison) ∧
        (∀ m, m ≠ l → Sparse.find? z.lines m = Sparse.find? y.lines m) ∧ t.flying = s.flying.filter (fun z => !(z.hall == h && z.slot == k && z.line == l)) ∧ t.frames = s.frames) ∧
    (∀ h k x, h < 72 → k < 768 → s.slot? h k = some x → x.state = .evicting → ∃ t, exec (.writeBackDone h k) s = .next t ∧ t.slot? h k = none ∧ ∀ n, (t.tile n).mem = (s.tile n).mem)

/-- DONE_WRITE, LINK_LOST, SNAPSHOT_PAGE_SENT and RESTORE_SHADOW_DONE (R298, R302, R304, R309): a DONE of the step being replayed ends the replay; a link silent for 1 s is lost; the trailer completes an image, and a page sent is no longer held; a restore takes the buddy's step, or fails where an adopted partition's step differs. -/
def ProtectionRows : Prop :=
  ∀ (s : State) (p : Nat), p < 8 →
    (∀ n l i k x, n < 4608 → (s.tile n).nextOut = some l → s.partOf n = some p → (s.tile n).instr? l.id = some i → s.doneLink p l.addr = some k → s.stMayWrite n = true → St.tgt i.desc = 0 → s.inCarea p l.addr = false →
      s.pageReason p (pageOf l.addr) true = 0 → s.pageHeld (pageOf l.addr) = false → (s.hallWrite (n / 64) l.addr l.data l.mask l.poison).2 = true → s.inLink? p k = some x → l.poison = false →
      (s.g F.SP_IN_STATE_REPLAYING p k = 1 → l.data.toNat % 2 ^ 32 = x.step →
        ∃ t, exec (.doneWrite n) s = .next t ∧ t.g F.SP_IN_STATE_STEP p k = x.step ∧ t.g F.SP_IN_STATE_REPLAYING p k = 0 ∧ (t.tile n).mem = (s.tile n).mem) ∧
      (s.g F.SP_IN_STATE_REPLAYING p k = 1 → l.data.toNat % 2 ^ 32 ≠ x.step →
        ∃ t, exec (.doneWrite n) s = .next t ∧ t.g F.SP_IN_STATE_REPLAYING p k = 1 ∧ ∀ y ∈ t.parts, y.num = p → y.fault = true)) ∧
    (∀ c k, s.linkIsUp p = true → s.peer? (s.g F.SP_LINK_CTX p) = some c → k ∈ c.unacked → k.typ = 8 → k.since + 1000000000 ≤ s.now →
      ∃ t, exec (.linkLost p) s = .next t ∧ t.g F.SP_LINK_UP p = 0 ∧ t.g F.SP_LINK_CATCHUP p = 0 ∧ t.g F.SP_LAG_LOST p = min (s.g F.SP_LAG_LOST p + 1) (2 ^ F.SP_LAG_LOST.width - 1) ∧
        (t.protOf p).catchDue = [] ∧ (t.protOf p).snapDue = true ∧ (t.protOf p).digests = [] ∧ t.tiles = s.tiles) ∧
    (∀ buf step epoch time ids pages sent dg phase hb, (s.protOf p).job = some (.snapshot buf step epoch time ids pages sent dg phase) → (s.protOf p).bufs = some hb →
      (∀ q ∈ s.foyer.qps, ∀ o ∈ q.2.ops, o.why ≠ .snapshot p) →
      (2 ≤ phase → (∀ e ∈ pages.zipIdx, ∃ y ∈ sent, y.1 = e.2) →
        ∃ t, exec (.snapshotPageSent p) s = .next t ∧ t.g F.SP_SNAP_BUF p = buf % 2 ∧ t.g F.SP_SNAP_VALIDIMG p = 1 ∧ t.g F.SP_SNAP_ACTIVE p = 0 ∧ t.g F.SP_SNAP_STEP p = step % 2 ^ 32 ∧
          t.g F.SP_SNAP_COUNT_DONE p = min (s.g F.SP_SNAP_COUNT_DONE p + 1) (2 ^ F.SP_SNAP_COUNT_DONE.width - 1) ∧ (t.protOf p).job = none ∧ t.frames = s.frames) ∧
      (∀ e k rest ls, pages.zipIdx.filter (fun e => !sent.any (fun y => y.1 == e.2)) = (e, k) :: rest → s.copies = [] → (s.pageImage e).2 = some ls →
          s.bufTakes (if buf = 0 then hb.1 else hb.2) (snapBase (s.protOf p).tensors.length + k * 2 ^ 23 + (plainBytes ls).length) = true →
        ∃ t, exec (.snapshotPageSent p) s = .next t ∧ Pm.hold (t.page e) = 0 ∧ Pm.copyv (t.page e) = 0 ∧
          t.g F.SP_SNAP_PROG_SENT p = min (s.g F.SP_SNAP_PROG_SENT p + 1) (2 ^ F.SP_SNAP_PROG_SENT.width - 1) ∧
          ∃ d, (t.protOf p).job = some (.snapshot buf step epoch time ids pages (sent ++ [(k, ls.any (·.poison))]) d 0))) ∧
    (∀ r x step epoch pages, (s.protOf p).restore = some r → s.part? p = some x → r.source = 0 →
      (x.adopted = true → s.g F.SP_COMMIT_STEP p ≠ step →
        ∃ t, exec (.restoreShadowDone p step epoch pages) s = .next t ∧ (t.protOf p).restore = none ∧ t.g F.SP_COMMIT_STEP p = s.g F.SP_COMMIT_STEP p ∧ t.frames = s.frames) ∧
      (¬(x.adopted = true ∧ s.g F.SP_COMMIT_STEP p ≠ step) →
        (∀ i ∈ r.tensors, ∀ y, s.tensor? p i = some y → ∀ e ∈ y.pages, (!x.adopted || Pm.wsc (s.page e) == 1) = true → ∃ q ∈ pages, q.1 = e) →
        ∃ t, exec (.restoreShadowDone p step epoch pages) s = .next t ∧ (t.protOf p).restore = none ∧ t.g F.SP_COMMIT_STEP p = step % 2 ^ 32 ∧ t.g F.SP_LINK_ACKED p = step % 2 ^ 32 ∧
          (∀ i ∈ r.tensors, ∀ y, t.tensor? p i = some y → y.method = 2 ∧ y.catching = false)))

/-- RISK_INDEX_UPDATE (R306, R307): the index is the sum of its parts, held to 255; the temperature part is that of the hottest valid sensor; an index at or above T3 puts the device in tier 3. -/
def RiskRow : Prop :=
  ∀ (s : State) (fec mem : List (Nat × Nat)), (∀ x ∈ fec, x.1 < 72) → (∀ x ∈ mem, x.1 < 32) →
    ∃ t, exec (.riskIndexUpdate fec mem) s = .next t ∧
      t.g F.SP_RISK_INDEX 0 = min 255 (t.g F.SP_RISK_CEPTS 0 + t.g F.SP_RISK_TEMPPTS 0 + t.g F.SP_RISK_FLAPPTS 0 + t.g F.SP_RISK_HOLDPTS 0 + t.g F.SP_RISK_UEPTS 0) ∧
      t.g F.SP_RISK_TEMPPTS 0 = tempPoints s.hottest ∧ (s.g F.MB_HOLDUP_FAILED 0 = 1 → t.g F.SP_RISK_HOLDPTS 0 = 48) ∧
      (s.g F.SP_TIERCFG_T3 0 ≤ t.g F.SP_RISK_INDEX 0 → t.g F.SP_RISK_TIER 0 = 3) ∧ t.tiles = s.tiles ∧ t.frames = s.frames ∧ t.halls = s.halls

/-- RDMA_WRITE and RDMA_WRITE_WITH_IMMEDIATE of one packet that passes the transport checks (R318–R321, R339): an admitted write does what its region's kind does and the packet number moves on; words reach a scratchpad, a refused write writes nothing and is counted; the immediate value moves TAIL on a command queue pair, and does nothing on another. -/
def HostWrites : Prop :=
  ∀ (s s1 : State) (k : RocePkt) (q : Qp), k.port < 4 → s.roceCheck k false = .good s1 q → k.first = true → k.last = true → k.data.length = k.len → k.len ≤ 1024 * 2 ^ q.mtu →
    let r := s1.regionCheck q k.rkey k.va k.len true
    let c : QpCur := ⟨r.2.2.1, k.va, k.len, []⟩
    (q.kind ≠ 1 → exec (.rdmaWriteWithImmediate k) s = exec (.rdmaWrite k) s) ∧
    (r.2.1 = 3 → ∃ t p, exec (.rdmaWrite k) s = .next t ∧ exec (.rdmaWriteWithImmediate k) s = .next t ∧ t.frames = s.frames ∧ t.halls = s.halls ∧ (∀ n, (t.tile n).mem = (s.tile n).mem) ∧
      t.qp? k.qpn = some p ∧ p.epsn = q.epsn ∧ Sparse.get 0 p.nakTx 3 = Sparse.get 0 q.nakTx 3 + 1 ∧
      t.g F.ROCE_NAK_ACC (32 + q.port) = min (s.g F.ROCE_NAK_ACC (32 + q.port) + 1) (2 ^ F.ROCE_NAK_ACC.width - 1)) ∧
    (∀ u part, r.2.1 = 0 → r.1.regionWrite c k.data = .ok (u, part, true) →
      ∃ t, exec (.rdmaWrite k) s = .next t ∧ t.frames = u.frames ∧ t.halls = u.halls ∧ (∀ n, (t.tile n).mem = (u.tile n).mem) ∧
        (r.2.2.1.kind ≠ 2 → ∃ p, t.qp? k.qpn = some p ∧ p.epsn = (q.epsn + 1) % 2 ^ 24 ∧ p.cur = none)) ∧
    (r.2.1 = 0 → r.2.2.1.kind = 1 →
      let n := s.devTile r.2.2.1.part r.2.2.1.tile
      let w := r.2.2.1.base + k.va / 12
      ∃ t, exec (.rdmaWrite k) s = .next t ∧ (∀ i, 12 * i + 12 ≤ k.len → Sparse.get 0 (t.tile n).mem (w + i) = storeVal (leVal ((k.data.drop (12 * i)).take 12)) false) ∧
        (∀ a, a < w ∨ w + k.len / 12 ≤ a → Sparse.get 0 (t.tile n).mem a = Sparse.get 0 (s.tile n).mem a) ∧ ∀ m, m ≠ n → (t.tile m).mem = (s.tile m).mem) ∧
    (∀ u part, r.2.1 = 0 → q.kind = 1 → r.1.regionWrite c k.data = .ok (u, part, true) → k.imm / 2 ^ 30 % 4 = 0 → s.g F.CQ_CFG_VALID q.queue = 1 →
      sub30 (k.imm % 2 ^ 30) (s.g F.CQ_HEAD_HEAD q.queue) ≤ 2 ^ s.g F.CQ_CFG_LOGSLOTS q.queue →
      ∃ t, exec (.rdmaWriteWithImmediate k) s = .next t ∧ t.g F.CQ_TAIL_TAIL q.queue = k.imm % 2 ^ 30 ∧ t.frames = u.frames ∧ t.halls = u.halls)

/-- ROCE_SEND, SEND_WITH_IMMEDIATE and RDMA_READ that pass the transport checks (R318, R320–R322): a SEND on a command queue pair with room writes its ring and moves TAIL, one without room is told so; an admitted read sends its bytes, or has them sent when the pause of their priority ends, and moves the packet number on; one that meets a held line waits, and a refused one is counted. -/
def HostRequests : Prop :=
  ∀ (s s1 : State) (k : RocePkt) (q : Qp), k.port < 4 → s.roceCheck k true = .good s1 q →
    let tail := s.g F.CQ_TAIL_TAIL q.queue
    let n := (k.data.length + 127) / 128
    let r := s1.regionCheck q k.rkey k.va k.len false
    exec (.sendWithImmediate k) s = exec (.roceSend k) s ∧
    (q.kind = 1 → s.g F.CQ_CFG_VALID q.queue = 1 → sub30 tail (s.g F.CQ_HEAD_HEAD q.queue) + n ≤ 2 ^ s.g F.CQ_CFG_LOGSLOTS q.queue →
      ∃ t p, exec (.roceSend k) s = .next t ∧ t.frames = (s1.ringWrite q.queue (128 * tail) k.data).frames ∧ t.g F.CQ_TAIL_TAIL q.queue = (tail + n) % 2 ^ 30 ∧ t.halls = s.halls ∧ t.tiles = s.tiles ∧
        t.qp? k.qpn = some p ∧ p.epsn = (q.epsn + q.packets k.data.length) % 2 ^ 24) ∧
    (q.kind = 1 → s.g F.CQ_CFG_VALID q.queue = 1 → 2 ^ s.g F.CQ_CFG_LOGSLOTS q.queue < sub30 tail (s.g F.CQ_HEAD_HEAD q.queue) + n →
      ∃ t p, exec (.roceSend k) s = .next t ∧ t.frames = s.frames ∧ t.g F.CQ_TAIL_TAIL q.queue = tail ∧ t.qp? k.qpn = some p ∧ p.epsn = q.epsn ∧
        t.g F.ROCE_NAK_RNR (32 + q.port) = min (s.g F.ROCE_NAK_RNR (32 + q.port) + 1) (2 ^ F.ROCE_NAK_RNR.width - 1)) ∧
    (∀ b, r.2.1 = 0 → (r.1.regionRead r.2.2.1 (2 ^ 40 + k.qpn * 2 ^ 24 + k.psn) k.va k.len).2 = some b → b.any (·.2) = false → b.length = k.len → k.len ≤ 1024 * 2 ^ q.mtu →
      r.2.2.1.kind ≠ 2 → (s1.qp? k.qpn).map (·.answers) = some [] →
      ∃ t p, exec (.rdmaRead k) s = .next t ∧ t.qp? k.qpn = some p ∧ p.epsn = (q.epsn + 1) % 2 ^ 24 ∧
        (s.hostMay q.port 2 = true → Output.roce k.qpn 6 (k.psn % 2 ^ 24) (s.roceHead q 2) (b.map (·.1)) ∈ t.out) ∧
        (s.hostMay q.port 2 = false → (2, 6, k.psn % 2 ^ 24, b.map (·.1)) ∈ p.answers)) ∧
    (r.2.1 = 0 → (r.1.regionRead r.2.2.1 (2 ^ 40 + k.qpn * 2 ^ 24 + k.psn) k.va k.len).2 = none →
      ∃ t, exec (.rdmaRead k) s = .next t ∧ t.qp? k.qpn = s.qp? k.qpn ∧ t.tiles = s.tiles ∧ t.out = s.out) ∧
    (r.2.1 = 3 → ∃ t p, exec (.rdmaRead k) s = .next t ∧ t.frames = s.frames ∧ t.qp? k.qpn = some p ∧ p.epsn = q.epsn ∧
      t.g F.ROCE_NAK_ACC (32 + q.port) = min (s.g F.ROCE_NAK_ACC (32 + q.port) + 1) (2 ^ F.ROCE_NAK_ACC.width - 1))

/-- DROPPED_FRAME, LINK_UP, LINK_DOWN, PORT_MODE_WRITE and PTP_DISC_WRITE (R312–R316, R331): a dropped frame counts with its cause; a link comes up or goes down; a mode that the port has takes its links down, and one it lacks changes nothing; DISC is on one port at most. -/
def LinkRows : Prop :=
  ∀ (s : State) (x p : Nat), x < 72 → p < 36 →
    (∀ f pause unc, s.linkUp x = true → f.sub = x →
      let why := s.macCause x { f.eth with fcs := f.eth.fcs && unc == 0 }
      ∃ t, exec (.droppedFrame f pause unc) s = .next t ∧ t.g F.LINK_RX_DROP_LAST (x / 2) (x % 2) = (if why ≠ 0 then why else if pause then 6 else 4) ∧ t.tiles = s.tiles ∧ t.net = s.net ∧ t.frames = s.frames ∧
        t.g F.LINK_RX_DROP_COUNT (x / 2) (x % 2) = min (s.g F.LINK_RX_DROP_COUNT (x / 2) (x % 2) + 1) (2 ^ F.LINK_RX_DROP_COUNT.width - 1) ∧
        t.g F.LINK_FEC_UNC_COUNT (x / 2) (x % 2) = min (s.g F.LINK_FEC_UNC_COUNT (x / 2) (x % 2) + unc) (2 ^ F.LINK_FEC_UNC_COUNT.width - 1)) ∧
    (s.linkUp x = false → s.power.phase = .running → s.g F.PORT_CFG_MODE (x / 2) ≠ 0 → x % 2 = 0 ∨ s.g F.PORT_CFG_MODE (x / 2) = 2 →
      ∃ t, exec (.linkUp x) s = .next t ∧ t.linkUp x = true ∧ (∀ y, y < 72 → y ≠ x → t.linkUp y = s.linkUp y) ∧ t.tiles = s.tiles) ∧
    (∀ l r, l < 2 → r < 2 → s.linkUp x = true →
      ∃ t, exec (.linkDown x l r) s = .next t ∧ t.linkUp x = false ∧ t.g F.LINK_STATUS_LFAULT (x / 2) (x % 2) = l ∧ t.g F.LINK_STATUS_RFAULT (x / 2) (x % 2) = r ∧ t.tiles = s.tiles ∧
        t.g F.LINK_FLAPS_COUNT (x / 2) (x % 2) = min (s.g F.LINK_FLAPS_COUNT (x / 2) (x % 2) + 1) (2 ^ F.LINK_FLAPS_COUNT.width - 1) ∧ ∀ y, y < 72 → y ≠ x → t.linkUp y = s.linkUp y) ∧
    (∀ m, m < 3 → ¬(m = 2 ∧ 32 ≤ p) → ∃ t, exec (.portModeWrite p m) s = .next t ∧ t.g F.PORT_CFG_MODE p = m ∧ t.linkUp (2 * p) = false ∧ t.linkUp (2 * p + 1) = false ∧ t.tiles = s.tiles) ∧
    (∀ m, m = 3 ∨ (m = 2 ∧ 32 ≤ p) → ∃ t, exec (.portModeWrite p m) s = .next t ∧ t.g F.PORT_CFG_MODE p = s.g F.PORT_CFG_MODE p ∧ (∀ y, y < 72 → t.linkUp y = s.linkUp y) ∧ t.tiles = s.tiles) ∧
    (∃ t, exec (.ptpDiscWrite p true) s = .next t ∧ t.g F.PORT_PTP_DISC p = 1 ∧ (∀ q, q < 36 → q ≠ p → t.g F.PORT_PTP_DISC q = 0) ∧ t.tiles = s.tiles) ∧
    (∃ t, exec (.ptpDiscWrite p false) s = .next t ∧ t.g F.PORT_PTP_DISC p = 0 ∧ (∀ q, q < 36 → q ≠ p → t.g F.PORT_PTP_DISC q = s.g F.PORT_PTP_DISC q) ∧ t.tiles = s.tiles)

/-- PFC_FRAME, PFC_PAUSE_EXPIRY, NEIGHBOUR_DISCOVERY, PTP_EVENT_MESSAGE and the PPS rows (R313, R315–R317, R378): an honoured priority pauses for its time and resumes when it ends; a query for the port's own address is answered and another dropped; a Sync is kept by the time receiver alone; an edge too soon is a glitch, three good edges lock, a second or more without one unlocks. -/
def FrameRows : Prop :=
  ∀ (s : State) (x : Nat), x < 72 →
    (∀ enable times, s.linkUp x = true → ∃ t, exec (.pfcFrame x enable times) s = .next t ∧ t.tiles = s.tiles ∧ ∀ k, k < 8 →
      Sparse.get 0 t.ports.paused (8 * x + k) =
        if enable / 2 ^ k % 2 = 1 ∧ s.g F.PORT_CFG_PFC (x / 2) / 2 ^ k % 2 = 1 then
          (if times[k]?.getD 0 % 2 ^ 16 * s.quantum x / 100 = 0 then 0 else s.now + times[k]?.getD 0 % 2 ^ 16 * s.quantum x / 100)
        else Sparse.get 0 s.ports.paused (8 * x + k)) ∧
    (∀ k, k < 8 → Sparse.get 0 s.ports.paused (8 * x + k) ≠ 0 → Sparse.get 0 s.ports.paused (8 * x + k) ≤ s.now →
      ∃ t, exec (.pfcPauseExpiry x k) s = .next t ∧ Sparse.get 0 t.ports.paused (8 * x + k) = 0 ∧ (∀ j, j ≠ 8 * x + k → Sparse.get 0 t.ports.paused j = Sparse.get 0 s.ports.paused j) ∧ t.tiles = s.tiles) ∧
    (∀ f v6 asker, s.linkUp x = true → f.sub = x → s.macCause x f.eth = 0 →
      (∃ t, exec (.neighbourDiscovery f v6 true asker) s = .next t ∧ t.out = .frame x (if v6 then 1 else 0) [Config.macAddr (x / 2) (x % 2), asker] :: s.out ∧ t.tiles = s.tiles) ∧
      (∃ t, exec (.neighbourDiscovery f v6 false asker) s = .next t ∧ t.out = s.out ∧ t.g F.LINK_RX_DROP_LAST (x / 2) (x % 2) = 4 ∧ t.tiles = s.tiles)) ∧
    (∀ f domain seq e, s.linkUp x = true → f.sub = x → s.macCause x f.eth = 0 → s.g F.PORT_PTP_TSEN (x / 2) = 1 →
      (s.g F.PORT_PTP_DISC (x / 2) = 1 → s.g F.CLK_PPS_EN 0 = 0 → domain = s.g F.PORT_PTP_DOMAIN (x / 2) →
        ∃ t, exec (.ptpEventMessage f 0 domain seq e) s = .next t ∧ t.ports.ptpSync = some (seq, e, s.now) ∧ t.ports.ptpReq = some (seq, s.now) ∧ t.now = s.now ∧ t.tiles = s.tiles) ∧
      (s.g F.PORT_PTP_DISC (x / 2) = 0 ∨ s.g F.CLK_PPS_EN 0 = 1 →
        ∃ t, exec (.ptpEventMessage f 0 domain seq e) s = .next t ∧ t.ports = s.ports ∧ t.power = s.power ∧ t.out = s.out)) ∧
    (s.power.phase = .running → s.g F.CLK_PPS_EN 0 = 1 →
      (∃ t, exec .ppsGlitch s = .next t ∧ t.g F.PWR_GLITCH_PPS 0 = min (s.g F.PWR_GLITCH_PPS 0 + 1) (2 ^ F.PWR_GLITCH_PPS.width - 1) ∧ t.power = s.power ∧ t.now = s.now) ∧
      (∀ e, s.power.ppsEdge = some e → s.now < e + 500000000 → ∃ t, exec .ppsEdge s = .next t ∧ t.power = s.power ∧ t.now = s.now ∧
        t.g F.PWR_GLITCH_PPS 0 = min (s.g F.PWR_GLITCH_PPS 0 + 1) (2 ^ F.PWR_GLITCH_PPS.width - 1)) ∧
      ((∀ e, s.power.ppsEdge = some e → e + 500000000 ≤ s.now) → -1000 < ppsOffset s.now → ∃ t, exec .ppsEdge s = .next t ∧ t.now = s.now ∧ t.power.ppsEdge = some s.now ∧
        t.power.slew = -ppsOffset s.now ∧ t.g F.CLK_PPS_OFFSET 0 = sat32 (ppsOffset s.now) ∧ (-100 < ppsOffset s.now → ppsOffset s.now < 100 → 2 ≤ s.power.ppsGood → t.g F.CLK_PPS_LOCKED 0 = 1)) ∧
      ((∀ e, s.power.ppsEdge = some e → e + 500000000 ≤ s.now) → ppsOffset s.now ≤ -1000 → ∃ t, exec .ppsEdge s = .next t ∧ (t.now : Int) = s.now - ppsOffset s.now ∧ t.g F.CLK_PPS_STEPPED 0 = 1)) ∧
    (s.g F.CLK_PPS_LOCKED 0 = 1 → (∀ e, s.power.ppsEdge = some e → e + 2500000000 ≤ s.now) →
      ∃ t, exec .ppsLost s = .next t ∧ t.g F.CLK_PPS_LOCKED 0 = 0 ∧ t.g F.CLK_PPS_LOST 0 = 1 ∧ t.power.ppsGood = 0 ∧ t.tiles = s.tiles)

/-- Every command packet's row but WARM_RESET's, and TAKE_PACKET and the doorbells (R337–R343): a command that may not start changes nothing; one that may, but not there or not now, completes with the status that says so; completing counts it, takes it out of progress and leaves tiles, memory and frames as they are; a doorbell within its ring moves its count, one beyond it is reported and does not. -/
def CommandsTaken : Prop :=
  (∀ (s : State) (i : Instr) (f : CmdForm), cmdForm i = some f → f.hdr.queue < 64 →
    (s.mayStart f.hdr f.op f.pars = false → exec i s = .next s) ∧
    (s.mayStart f.hdr f.op f.pars = true → s.cmdBad f.hdr f.perm f.need ≠ 0 → exec i s = .next ((s.cmdBegun f).cmdDone (s.cmdOf f []) (s.cmdBad f.hdr f.perm f.need)))) ∧
  (∀ (s : State) (c : RunCmd) (status : Nat), s.foyer.closing.contains c.hdr.queue = false →
    let t := s.cmdDone c status
    t.foyer.running = s.foyer.running.filter (fun r => r.hdr != c.hdr) ∧ t.foyer.taken = s.foyer.taken ∧ t.tiles = s.tiles ∧ t.frames = s.frames ∧ t.halls = s.halls ∧ t.parts = s.parts ∧
    t.g F.CQ_DONE_COUNT c.hdr.queue = min (s.g F.CQ_DONE_COUNT c.hdr.queue + 1) (2 ^ F.CQ_DONE_COUNT.width - 1) ∧
    (status = 0 → c.hdr.flags / 2 % 2 = 1 → t.out = s.out ∧ t.foyer.heldDone = s.foyer.heldDone) ∧
    (status ≠ 0 ∨ c.hdr.flags / 2 % 2 = 0 → s.cringRoom c.hdr.queue = false → t.out = s.out ∧ t.foyer.heldDone = s.foyer.heldDone ++ [(c, status)])) ∧
  (∀ (s : State) (q v : Nat), q < 64 →
    (s.g F.CQ_CFG_VALID q = 1 → sub30 (v % 2 ^ 30) (s.g F.CQ_HEAD_HEAD q) ≤ 2 ^ s.g F.CQ_CFG_LOGSLOTS q →
      ∃ t, exec (.tailDoorbell q v) s = .next t ∧ t.g F.CQ_TAIL_TAIL q = v % 2 ^ 30 ∧ t.tiles = s.tiles ∧ t.foyer = s.foyer) ∧
    (s.g F.CQ_CFG_VALID q = 1 → 2 ^ s.g F.CQ_CFG_LOGSLOTS q < sub30 (v % 2 ^ 30) (s.g F.CQ_HEAD_HEAD q) →
      ∃ t, exec (.tailDoorbell q v) s = .next t ∧ t.g F.CQ_TAIL_TAIL q = s.g F.CQ_TAIL_TAIL q ∧ t.g F.CQ_STATUS_OVERRUN q = 1 ∧ t.tiles = s.tiles) ∧
    (s.g F.CQ_CFG_VALID q = 1 → sub30 (v % 2 ^ 30) (s.g F.CQ_CHEAD_CHEAD q) ≤ sub30 (Sparse.get 0 s.foyer.written q) (s.g F.CQ_CHEAD_CHEAD q) →
      ∃ t, exec (.cheadDoorbell q v) s = .next t ∧ t.g F.CQ_CHEAD_CHEAD q = v % 2 ^ 30 ∧ t.tiles = s.tiles ∧ t.frames = s.frames) ∧
    (∀ r, r < 9 → sub30 (v % 2 ^ 30) (s.g F.EV_HEAD_HEAD r) ≤ sub30 (s.g F.EV_TAIL_TAIL r) (s.g F.EV_HEAD_HEAD r) →
      ∃ t, exec (.eheadDoorbell q r v) s = .next t ∧ t.g F.EV_HEAD_HEAD r = v % 2 ^ 30 ∧ t.tiles = s.tiles ∧ t.foyer = s.foyer)) ∧
  (∀ (s : State) (q : Nat) (b : List Nat), s.ready = true → s.foyer.stopped = false → ((List.range 64).map (fun i => (s.foyer.turn + 1 + i) % 64)).find? (fun q => s.mayTake q) = some q →
    let c := s.g F.CQ_HEAD_HEAD q
    (s.ringSlots q c 1).2 = some b → parAt b 2 1 = 1 → ((s.ringSlots q c 1).1.ringSlots q c 1).2 = some b → parEnd (parAt b 0 2) (b.drop 32) = some 0 →
    (s.part? (s.cmdPart ⟨q, parAt b 4 4, parAt b 3 1, parAt b 8 1, c⟩)).any (·.ending) = false → parAt b 0 2 ≠ 0x0402 →
    ∃ t x, exec .takePacket s = .next t ∧ t.foyer.taken = s.foyer.taken ++ [x] ∧ x.hdr = ⟨q, parAt b 4 4, parAt b 3 1, parAt b 8 1, c⟩ ∧ x.op = parAt b 0 2 ∧ x.bytes = b.drop 32 ∧
      t.g F.CQ_HEAD_HEAD q = (c + 1) % 2 ^ 30 ∧ t.foyer.turn = q ∧ t.tiles = s.tiles)

/-- NOP_COMMAND and the commands on queues, queue pairs, event rings, masks, regions and host buffers that are not refused (R319, R320, R323, R336, R342, R346): each completes, and what it names exists, holds the parameters given, or is gone. -/
def QueueCommands : Prop :=
  ∀ (s : State) (h : CmdHdr),
    let p := min 8 (s.cmdPart h)
    let keeps := fun (u : State) => u.tiles = s.tiles ∧ u.frames = s.frames ∧ u.halls = s.halls ∧ u.parts = s.parts
    let rkey := fun k => (Sparse.get 0 s.foyer.generations k + 1) % 2 ^ 18 * 2 ^ 14 + k
    (s.starts (.nopCommand h) = true → ∃ u, s.Succeeds (.nopCommand h) u [] ∧ keeps u ∧ u.regs = s.regs) ∧
    (∀ q l cr b k, s.starts (.queueCreate h q l cr) = true → 0 < q → q ≤ 63 → 6 ≤ l → l ≤ 13 → s.g F.CQ_CFG_VALID q = 0 → (s.queuesOf p).length < 8 → s.buf? 0 p cr = some b → b.len % 32 = 0 →
      64 ≤ b.len / 32 → b.len / 32 ≤ 65536 → isPow2 (b.len / 32) = true → Sparse.lowestFree s.foyer.regions 16384 = some k →
      ∃ u, s.Succeeds (.queueCreate h q l cr) u [(rkey k, 4)] ∧ keeps u ∧ u.g F.CQ_CFG_VALID q = 1 ∧ u.g F.CQ_CFG_PART q = p ∧ u.g F.CQ_CFG_LOGSLOTS q = l ∧ u.g F.CQ_TAIL_TAIL q = 0 ∧
        u.g F.CQ_HEAD_HEAD q = 0 ∧ u.g F.CQ_CHEAD_CHEAD q = 0 ∧ Sparse.find? u.foyer.regions k = some ⟨p, 3, 2, q, 0, 128 * 2 ^ l⟩) ∧
    (∀ q, s.starts (.queueDestroy h q) = true → q ≤ 63 → s.g F.CQ_CFG_VALID q = 1 → q ≠ h.queue →
      ((∀ c ∈ s.foyer.running, c.hdr.queue ≠ q) → ∃ u, s.Succeeds (.queueDestroy h q) u [] ∧ keeps u ∧ u.g F.CQ_CFG_VALID q = 0 ∧ ∀ t ∈ u.foyer.taken, t.hdr.queue ≠ q) ∧
      ((∃ c ∈ s.foyer.running, c.hdr.queue = q) → ∃ u, s.Succeeds (.queueDestroy h q) u [] ∧ keeps u ∧ u.foyer.closing.contains q = true ∧ u.regs = s.regs)) ∧
    (∀ kind q port gidx retry rnr rqpn spsn rpsn rgid n, s.starts (.qpCreate h kind q port gidx retry rnr 2048 rqpn spsn rpsn rgid) = true → kind = 1 ∨ kind = 2 → 32 ≤ port → port ≤ 35 → retry ≤ 7 →
      rnr ≤ 7 → rqpn < 2 ^ 24 → spsn < 2 ^ 24 → rpsn < 2 ^ 24 → (kind = 1 → q ≤ 63 ∧ (s.queuesOf p).contains q = true) → Sparse.lowestFree s.foyer.qps 1024 = some n →
      ∃ u x, s.Succeeds (.qpCreate h kind q port gidx retry rnr 2048 rqpn spsn rpsn rgid) u [(n, 4)] ∧ keeps u ∧ u.regs = s.regs ∧ u.qp? n = some x ∧ x.kind = kind ∧ x.part = p ∧ x.port = port - 32 ∧
        x.ok = true ∧ x.mtu = 1 ∧ x.epsn = rpsn ∧ x.spsn = spsn ∧ x.ops = []) ∧
    (∀ n x, s.starts (.qpDestroy h n) = true → s.qp? n = some x → x.kind ≠ 0 → ∃ u, s.Succeeds (.qpDestroy h n) u [] ∧ u.qp? n = none ∧ u.frames = s.frames) ∧
    (∀ hb l b, s.starts (.evringSet h hb l) = true → 6 ≤ l → l ≤ 16 → s.buf? h.queue p hb = some b → 32 * 2 ^ l ≤ b.len →
      ∃ u, s.Succeeds (.evringSet h hb l) u [] ∧ keeps u ∧ u.g F.EV_CFG_VALID p = 1 ∧ u.g F.EV_CFG_LOGREC p = l ∧ u.g F.EV_TAIL_TAIL p = 0 ∧ u.g F.EV_HEAD_HEAD p = 0) ∧
    (∀ m, s.starts (.eventMask h m) = true → ∃ u, s.Succeeds (.eventMask h m) u [] ∧ keeps u ∧ ∀ k, k < 4 → (u.regs.rd R.EV_MASK p k).toNat = m / 2 ^ (64 * k) % 2 ^ 64) ∧
    (∀ k acc tile base len j, s.starts (.regionReg h k acc tile base len) = true → acc ≤ 3 → Sparse.lowestFree s.foyer.regions 16384 = some j →
      (k = 0 → p ≠ 8 → base + len ≤ 2 ^ 42 → len = 0 ∨ s.pagesOwned p base len false = true →
        ∃ u, s.Succeeds (.regionReg h 0 acc tile base len) u [(rkey j, 4)] ∧ keeps u ∧ Sparse.find? u.foyer.regions j = some ⟨p, 0, acc, 0, base, len⟩) ∧
      (k = 1 → p ≠ 8 → tile < s.tileCount p → base % 16 = 0 → len % 192 = 0 → base + len / 12 ≤ padWords →
        ∃ u, s.Succeeds (.regionReg h 1 acc tile base len) u [(rkey j, 4)] ∧ keeps u ∧ Sparse.find? u.foyer.regions j = some ⟨p, 1, acc, tile, base, len⟩) ∧
      (k = 2 → h.queue = 0 → base + len ≤ 0x0A000000 → base % 8 = 0 → len % 8 = 0 →
        ∃ u, s.Succeeds (.regionReg h 2 acc tile base len) u [(rkey j, 4)] ∧ keeps u ∧ Sparse.find? u.foyer.regions j = some ⟨8, 2, acc, 0, base, len⟩)) ∧
    (∀ key r, s.starts (.regionDereg h key) = true → s.region? key = some r → r.kind ≠ 3 → h.queue = 0 ∨ r.part = p →
      ∃ u, s.Succeeds (.regionDereg h key) u [] ∧ keeps u ∧ u.regs = s.regs ∧ u.region? key = none) ∧
    (∀ n x key a len k, s.starts (.hostbufReg h n key a len) = true → s.qp? n = some x → h.queue = 0 ∨ (x.kind = 2 ∧ x.part = p) → Sparse.lowestFree s.foyer.hostbufs 4096 = some k →
      ∃ u, s.Succeeds (.hostbufReg h n key a len) u [(k, 2)] ∧ keeps u ∧ Sparse.find? u.foyer.hostbufs k = some ⟨p, n, key, a, len⟩) ∧
    (∀ hb b, s.starts (.hostbufDereg h hb) = true → Sparse.find? s.foyer.hostbufs hb = some b → h.queue = 0 ∨ b.part = p → s.bufInUse hb = false →
      ∃ u, s.Succeeds (.hostbufDereg h hb) u [] ∧ keeps u ∧ u.regs = s.regs ∧ Sparse.find? u.foyer.hostbufs hb = none)

/-- The MCTP control commands, while the MSS serves its interfaces (R354, Table 14.4; the bytes of a response: log 140): an endpoint ID is taken, and each query is answered from the state, with nothing else changed. An ID that may not be one, a version of a type that is not there and a vendor set that is not there are answered as errors. -/
def ControlRows : Prop :=
  ∀ (s : State), s.mssOn = true →
    (∀ op eid, op % 4 < 2 → 8 ≤ eid → eid < 255 → ∃ t, exec (.setEndpointId op eid) s = .next t ∧ t.mss.eid = eid ∧ t.out = .mctp 0 1 0 [0, eid, 0] :: s.out ∧
      { t with mss := s.mss, out := s.out } = s) ∧
    (∀ op eid, eid < 8 → exec (.setEndpointId op eid) s = .next (s.emit (.mctp 0 1 2 []))) ∧
    (∃ b, exec .getEndpointId s = .next (s.emit (.mctp 0 2 0 b)) ∧ b.take 2 = [s.mss.eid, 0]) ∧
    exec .getEndpointUuid s = .next (s.emit (.mctp 0 3 0 (beBytes 16 Config.uuid))) ∧
    (∀ ty, ty ∈ [0, 1, 5, 0x7F, 0xFF] → exec (.getMctpVersionSupport ty) s = .next (s.emit (.mctp 0 4 0 (1 :: beBytes 4 (Config.mctpVersion ty))))) ∧
    (∀ ty, ty < 256 → ty ∉ [0, 1, 5, 0x7F, 0xFF] → exec (.getMctpVersionSupport ty) s = .next (s.emit (.mctp 0 4 0x80 []))) ∧
    exec .getMessageTypeSupport s = .next (s.emit (.mctp 0 5 0 [4, 0, 1, 5, 0x7F])) ∧
    (∃ b, exec (.getVendorDefinedMessageSupport 0) s = .next (s.emit (.mctp 0 6 0 b)) ∧ b.length = 6 ∧ b.headD 0 = 0xFF ∧ (b.drop 2).take 2 = beBytes 2 (s.g F.DEV_IDENT_VENDOR 0)) ∧
    (∀ sel, 0 < sel → sel < 256 → exec (.getVendorDefinedMessageSupport sel) s = .next (s.emit (.mctp 0 6 2 [])))

/-- The PLDM base and monitoring commands, in the runtime with no activation waiting (R353, R354, Table 14.4; the bytes of a response: log 143): the terminus ID and the event receiver are taken; types, versions, commands, sensor records and readings are answered, with nothing else changed. -/
def MonitoringRows : Prop :=
  ∀ (s : State), s.power.phase = .running → s.mss.activate = false →
    exec .getTid s = .next (s.emit (.mctp 1 2 0 [s.mss.tid])) ∧
    (∀ tid, 0 < tid → tid < 255 → ∃ t, exec (.setTid tid) s = .next t ∧ t.mss.tid = tid ∧ t.out = .mctp 1 1 0 [] :: s.out ∧ { t with mss := s.mss, out := s.out } = s) ∧
    (∀ ty, ty ∈ [0, 2, 5] → ∃ b, exec (.getPldmVersion ty) s = .next (s.emit (.mctp 1 3 0 b)) ∧ b.drop 5 = leBytes 8 (Config.pldmVersion ty)) ∧
    exec .getPldmTypes s = .next (s.emit (.mctp 1 4 0 (leBytes 8 0x25))) ∧
    (∀ ty ver, ty ∈ [0, 2, 5] → ∃ b, exec (.getPldmCommands ty ver) s = .next (s.emit (.mctp 1 5 0 b)) ∧ b.length = 32 ∧ ∀ k, k < 256 → (leVal b / 2 ^ k % 2 = 1 ↔ k ∈ pldmCommands ty)) ∧
    (∃ b, exec .getPdrRepositoryInfo s = .next (s.emit (.mctp 1 0x250 0 b)) ∧ parAt b 27 4 = 194) ∧
    (∀ k n change, 0 < k → k ≤ 194 → 256 ≤ n → n < 65536 → ∃ b, exec (.getPdr k 0 1 n change) s = .next (s.emit (.mctp 1 0x251 0 b)) ∧
      parAt b 0 4 = (if k = 194 then 0 else k + 1) ∧ parAt b 4 4 = 0 ∧ parAt b 11 4 = k ∧ parAt b 16 1 = 2 ∧ parAt b 23 2 = k ∧ parAt b 33 1 = pldmUnit (sensorKind (k - 1))) ∧
    (∀ k n change, 194 < k → k < 2 ^ 32 → exec (.getPdr k 0 1 n change) s = .next (s.emit (.mctp 1 0x251 0x82 []))) ∧
    (∀ k rearm, 0 < k → k ≤ 194 → ∃ b, exec (.getSensorReading k rearm) s = .next (s.emit (.mctp 1 0x211 0 b)) ∧
      parAt b 1 1 = (if s.g F.MB_SENSOR_VALID 0 (k - 1) = 1 then 0 else 3) ∧ parAt b 6 4 = s.g F.MB_SENSOR_VALUE 0 (k - 1)) ∧
    (∀ k rearm, k = 0 ∨ (194 < k ∧ k < 65536) → exec (.getSensorReading k rearm) s = .next (s.emit (.mctp 1 0x211 0x80 []))) ∧
    (∀ eid, eid < 256 → (∃ t, exec (.setEventReceiver 1 0 eid) s = .next t ∧ t.mss.receiver = some eid ∧ t.out = .mctp 1 0x204 0 [] :: s.out ∧ { t with mss := s.mss, out := s.out } = s) ∧
      (∃ t, exec (.setEventReceiver 0 0 eid) s = .next t ∧ t.mss.receiver = none ∧ t.out = .mctp 1 0x204 0 [] :: s.out ∧ { t with mss := s.mss, out := s.out } = s))

/-- SENSOR_POLL, PCAP_TICK and the throttle input (R353, R363, R379, R380; how the loop reads and what it counts: log 144, log 145): a reading is recorded with its warning; input power above the cap lowers the ceiling by 2 and below 97 % of it raises it by 1, within 24 and 72, and each owned hall follows; a low THROTTLE_N holds every hall at 600 MHz until it is released. -/
def SensorRows : Prop :=
  ∀ (s : State),
    (∀ i v, i < 194 → s.mssOn = true → ∃ t, exec (.sensorPoll i v) s = .next t ∧ t.g F.MB_SENSOR_VALUE 0 i = (v % 2 ^ 32).toNat ∧ t.g F.MB_SENSOR_KIND 0 i = sensorKind i ∧ t.g F.MB_SENSOR_VALID 0 i = 1 ∧
      Sparse.find? t.mss.readAt i = some s.now ∧ t.tiles = s.tiles ∧ t.frames = s.frames ∧
      (∀ w, sensorWarn i = some w → i ≠ 193 → (w ≤ v → t.g F.MB_SENSOR_WARN 0 i = 1) ∧ (v < w - 2000 → t.g F.MB_SENSOR_WARN 0 i = 0) ∧
        (w - 2000 ≤ v → v < w → t.g F.MB_SENSOR_WARN 0 i = s.g F.MB_SENSOR_WARN 0 i)) ∧
      (i < 72 → t.g F.HALL_TEMP_NOW i = (v * 16 / 1000 % 2 ^ 16).toNat)) ∧
    (s.power.phase = .running → s.g F.MB_SENSOR_VALID 0 192 = 1 →
      let p := sext (s.g F.MB_SENSOR_VALUE 0 192) 32
      let c := s.g F.MB_PCAP_CEIL 0
      ∃ t, exec .pcapTick s = .next t ∧ t.tiles = s.tiles ∧ t.frames = s.frames ∧ t.g F.MB_POWER_P1MS 0 = min 65535 (p / 100).toNat ∧
        (s.power.throttle.isSome = true → t.g F.MB_PCAP_CEIL 0 = 24) ∧
        (s.power.throttle = none → (1000 * (s.g F.MB_PCAP_CAP 0 : Int) < p → t.g F.MB_PCAP_CEIL 0 = max 24 (c - 2)) ∧ (p < 970 * (s.g F.MB_PCAP_CAP 0 : Int) → t.g F.MB_PCAP_CEIL 0 = min 72 (c + 1)) ∧
          (970 * (s.g F.MB_PCAP_CAP 0 : Int) ≤ p → p ≤ 1000 * (s.g F.MB_PCAP_CAP 0 : Int) → t.g F.MB_PCAP_CEIL 0 = c)) ∧
        (t.g F.MB_PCAP_ACTIVE 0 = if t.g F.MB_PCAP_CEIL 0 < 72 then 1 else 0) ∧
        ∀ h, h < 72 → (s.ownerOf h).isSome = true → t.g F.HALL_CLK_CURRENT h = min (s.g F.HALL_CLK_TARGET h) (min (t.g F.MB_PCAP_CEIL 0) (t.g F.HALL_TEMP_TCEIL h))) ∧
    (s.power.thrLow = true → exec .throttleAssert s = .next s) ∧
    (s.power.thrLow = false →
      (s.ready = true → ∃ t, exec .throttleAssert s = .next t ∧ t.power.thrLow = true ∧ t.power.throttle = some s.now ∧ t.g F.PWR_STATUS_THROTTLE_N 0 = 0 ∧ t.g F.MB_PCAP_THROTTLE 0 = 1 ∧ t.g F.MB_PCAP_CEIL 0 = 24 ∧
        (∀ h, h < 72 → t.g F.HALL_CLK_CURRENT h = 24 ∧ t.g F.HALL_CLK_FLOOR h = 1) ∧ t.tiles = s.tiles ∧ t.frames = s.frames) ∧
      (s.ready = false → ∃ t, exec .throttleAssert s = .next t ∧ t.power = { s.power with thrLow := true } ∧ t.g F.PWR_STATUS_THROTTLE_N 0 = 0 ∧ ∀ h, h < 72 → t.g F.HALL_CLK_CURRENT h = s.g F.HALL_CLK_CURRENT h)) ∧
    (s.power.thrLow = false → exec .throttleRelease s = .next s) ∧
    (s.power.thrLow = true → s.power.throttle.isSome = true → ∃ t, exec .throttleRelease s = .next t ∧ t.power = { s.power with thrLow := false, throttle := none, thrRelease := some s.now } ∧
      t.g F.PWR_STATUS_THROTTLE_N 0 = 1 ∧ t.g F.MB_PCAP_THROTTLE 0 = 0 ∧ t.g F.MB_PCAP_CEIL 0 = s.g F.MB_PCAP_CEIL 0 ∧ ∀ h, h < 72 → t.g F.HALL_CLK_FLOOR h = 0) ∧
    (s.mssOn = true → ∃ t, exec .throttleGlitch s = .next t ∧ { t with regs := s.regs } = s ∧ t.g F.PWR_GLITCH_THROTTLE 0 = min (s.g F.PWR_GLITCH_THROTTLE 0 + 1) (2 ^ F.PWR_GLITCH_THROTTLE.width - 1)) ∧
    (∀ a r, s.power.throttle = some a → s.power.thrReport = some r →
      (s.now < r + 60000000000 → exec .throttleReportTimer s = .next s) ∧
      (r + 60000000000 ≤ s.now → exec .throttleReportTimer s =
        .next (({ s with power := { s.power with thrReport := some s.now } } : State).event none 0x8006 [((s.now - s.power.thrStart) / 1000000000, 4)])))

/-- THERM_TRIP, HARDWARE_TRIP and HALL_FIELD_FAILURE (R28, R384; the order within a trip: log 150): a sensor that has stood at its limit for its time takes the module down, with its record in the log where the energy for it is there; a hardware trip takes it down with no record; it then stays off until MOD_PWREN is deasserted. A hall found unresponsive is marked, and no other. -/
def TripRows : Prop :=
  ∀ (s : State),
    (∀ i t0 reached v1 v2, i < 118 → s.mssOn = true → s.mss.seq = none → Sparse.find? s.mss.tripSince i = some t0 →
      (s.now < t0 + tripTime i → exec (.thermTrip i reached v1 v2) s = .next s) ∧
      (t0 + tripTime i ≤ s.now → ∃ t, exec (.thermTrip i reached v1 v2) s = .next t ∧ t.power.phase = .falling ∧ t.power.tripped = true ∧ t.power.pwren = s.power.pwren ∧ t.pending = s.pending ∧
        (6000 ≤ (holdupMj reached v1 v2).getD 0 → ∃ x, t.mss.log = s.mss.log ++ [x] ∧ x.code = 9 ∧ x.time = s.now ∧ x.data = [(i, 2), (s.g F.MB_SENSOR_VALUE 0 i, 4)]) ∧
        ((holdupMj reached v1 v2).getD 0 < 6000 → t.mss.log = s.mss.log))) ∧
    (∀ i, i < 118 → Sparse.find? s.mss.tripSince i = none → ∀ r v1 v2, exec (.thermTrip i r v1 v2) s = .next s) ∧
    (∀ i, i < 86 →
      (s.powered = true → ∃ t, exec (.hardwareTrip i) s = .next t ∧ t.power.phase = .falling ∧ t.power.tripped = true ∧ t.mss.log = s.mss.log ∧ t.mss.seq = s.mss.seq) ∧
      (s.powered = false → exec (.hardwareTrip i) s = .next s)) ∧
    (∀ h, h < 72 → s.power.phase = .running →
      (s.isFaulty h = true → exec (.hallFieldFailure h) s = .next s) ∧
      (s.isFaulty h = false → ∃ t, exec (.hallFieldFailure h) s = .next t ∧ (∀ k, k < 72 → t.isFaulty k = (k == h || s.isFaulty k)) ∧ t.g F.MB_ALERT_HALL_FAULT 0 = 1 ∧ t.tiles = s.tiles ∧ t.frames = s.frames ∧
        ∃ x ∈ t.mss.logBuf, x.code = 4 ∧ x.data = [(h, 1), (3, 1), (1, 1)])) ∧
    (∀ i, 118 ≤ i → ∀ r v1 v2, exec (.thermTrip i r v1 v2) s = .fault .noSuchUnit) ∧ (∀ i, 86 ≤ i → exec (.hardwareTrip i) s = .fault .noSuchUnit) ∧
    (∀ h, 72 ≤ h → exec (.hallFieldFailure h) s = .fault .noSuchUnit) ∧ (∀ i v, 194 ≤ i → exec (.sensorPoll i v) s = .fault .noSuchUnit)

/-- The power pins, the resets and the reference clock (R367, R370–R374, R376, R377, R379; what a power-down does to a running sequence: log 146): MOD_PWREN brings the rails up, at once or once power-down has ended, and takes them down; losing input power takes the module down and leaves flash as it was; a qualified low of MOD_RESET_N or a lost reference clock is a cold reset, which loses all but flash, fuses and pins. -/
def PowerRows : Prop :=
  ∀ (s : State),
    let off := s.power.phase = .off ∨ s.power.phase = .falling
    let down := fun (t : State) => t.power.phase = .falling ∧ t.tiles = [] ∧ t.frames = [] ∧ t.mss.log = s.mss.log ∧ t.mss.store = s.mss.store ∧ t.mss.seq = s.mss.seq ∧ t.pending = s.pending
    let cold := fun (t : State) (cause : Nat) => t.power.phase = .reset ∧ t.power.cause = cause ∧ t.tiles = [] ∧ t.frames = [] ∧ t.parts = [] ∧ t.pending = s.pending ∧
      (s.mss.seq = none → t.mss.log = s.mss.log ∧ t.mss.store = s.mss.store ∧ t.mss.rec_ = s.mss.rec_ ∧ t.mss.svn = s.mss.svn)
    (∃ t, exec .modPwrenAssert s = .next t ∧ t.power.pwren = true ∧ { t with power := s.power } = s ∧
      (s.power.pwren = false → s.power.input = true → s.power.tripped = false →
        (s.power.phase = .off → t.power.phase = .rising) ∧ (s.power.phase = .falling → t.power.phase = .falling ∧ t.power.again = true) ∧ (¬ off → t.power.phase = s.power.phase)) ∧
      (s.power.pwren = true ∨ s.power.input = false ∨ s.power.tripped = true → t.power = { s.power with pwren := true })) ∧
    (∃ t, exec .modPwrenDeassert s = .next t ∧ t.power.pwren = false ∧ t.power.tripped = false ∧ t.power.again = false ∧ (¬ off → down t) ∧
      (off → t = { s with power := { s.power with pwren := false, again := false, tripped := false } })) ∧
    (∃ t, exec .inputPowerLoss s = .next t ∧ t.power.input = false ∧ t.power.again = false ∧ (¬ off → down t) ∧ (off → t = { s with power := { s.power with input := false, again := false } })) ∧
    (s.power.input = true → exec .inputPowerApplied s = .next s) ∧
    (s.power.input = false → ∃ t, exec .inputPowerApplied s = .next t ∧ t.power.input = true ∧ { t with power := s.power } = s ∧
      (s.power.pwren = true → s.power.tripped = false → s.mss.seq = none → t.power.phase = .rising) ∧
      (s.power.pwren = false → s.mss.seq = none → t.power.phase = .off)) ∧
    (s.power.phase = .falling → s.power.again = true →
      (s.mss.seq = none → ∃ t, exec .powerUpAfterPowerDown s = .next t ∧ t.power = { s.power with phase := .rising, again := false, cause := 0 } ∧ { t with power := s.power } = s) ∧
      (s.mss.seq.isSome = true → exec .powerUpAfterPowerDown s = .next s)) ∧
    (∃ t, exec .modResetNLow s = .next t ∧ t.power.resetN = false ∧ (¬ off → s.power.phase ≠ .rising → cold t 1 ∧ t.g F.PWR_STATUS_RESET_N 0 = 0) ∧
      (off ∨ s.power.phase = .rising → t = { s with power := { s.power with resetN := false } })) ∧
    (∃ t, exec .refclkLoss s = .next t ∧ t.power.refclk = false ∧ (¬ off → s.power.phase ≠ .rising → cold t 5) ∧ (off ∨ s.power.phase = .rising → t = { s with power := { s.power with refclk := false } })) ∧
    (exec .refclkRestored s = .next { s with power := { s.power with refclk := true } }) ∧
    (s.mssOn = true → ∃ t, exec .resetGlitch s = .next t ∧ { t with regs := s.regs } = s ∧ t.g F.PWR_GLITCH_RESET 0 = min (s.g F.PWR_GLITCH_RESET 0 + 1) (2 ^ F.PWR_GLITCH_RESET.width - 1))

/-- The sideband's addresses and the test port (R354, R379, R386, Table 14.4; log 151, log 152): the target takes one dynamic address, from ENTDAA or from its static address; a test instruction is in force while the module is powered, and one that drives the pins only while MOD_RESET_N is low, being BYPASS at other times. -/
def PinRows : Prop :=
  ∀ (s : State),
    (s.mssOn = true → s.mss.dynAddr = none → ∀ a, a < 128 →
      exec (.entdaa a) s = .next { s with mss := { s.mss with dynAddr := some a } } ∧
      exec (.setdasa a) s = .next (if a = 0x30 + s.g F.PWR_STATUS_ADDR 0 then { s with mss := { s.mss with dynAddr := some a } } else s)) ∧
    (s.mss.dynAddr.isSome = true → ∀ a, exec (.entdaa a) s = .next s ∧ exec (.setdasa a) s = .next s) ∧
    exec .smbusStuck s = .next { s with power := { s.power with smbReset := s.power.smbReset + 1 } } ∧
    (s.powered = false → exec .bypass s = .next s ∧ exec .idcode s = .next s ∧ (∀ l, exec (.samplePreload l) s = .next s) ∧
      ∀ i, i ∈ [Instr.extest, .extestPulse, .extestTrain, .clamp, .highz] → exec i s = .next s) ∧
    (s.powered = true →
      let tap := fun (k : Nat) => { s with power := { s.power with tap := k } }
      exec .bypass s = .next (tap 0) ∧
      (∃ t c, exec .idcode s = .next t ∧ t.power = { s.power with tap := 1 } ∧ t.out = .tdo 32 c :: s.out ∧ c % 2 ^ 28 = 0x046085E9 ∧ c % 2 = 1) ∧
      (∀ l, ∃ t, exec (.samplePreload l) s = .next t ∧ t.power = { s.power with tap := 2, boundary := l } ∧ t.regs = s.regs ∧ t.tiles = s.tiles) ∧
      ∀ i k, (i, k) ∈ [(Instr.extest, 3), (.extestPulse, 4), (.extestTrain, 5), (.clamp, 6), (.highz, 7)] →
        (s.power.resetN = true → exec i s = .next (tap 0)) ∧
        (s.power.resetN = false → exec i s = .next { tap k with out := .drive k s.power.boundary :: s.out }))

end Sys2Proof.Rules

/-- A step carries out the command at the front of the queue, on the state with the queue's rest; on an empty queue time passes (the model's choice, log 1). -/
def Obligations.StepRunsFrontCommand : Prop :=
  (∀ (c : Instr) (s : State) (rest : List Instr), s.pending = c :: rest → step s = exec c { s with pending := rest }) ∧
  (∀ s : State, s.pending = [] → step s = .next s.idle)

/-- The state after reset is safe: frame memory is in its canonical form, and no command waits. -/
def Obligations.ResetIsSafe : Prop :=
 State.reset.Safe

/-- From a safe state a step always goes on, and leaves a safe state: frame memory stays in its canonical form (an address reads as it did before unless it was written), and the commands that wait are the ones that waited behind the first. -/
def Obligations.SafeStatesStepOn : Prop :=
  ∀ s : State, s.Safe → (∃ t, step s = .next t) ∧ ∀ t, step s = .next t → t.Safe ∧ t.pending = s.pending.drop 1

/-- A command that names only units the module has always answers a next state, and one that names another faults with noSuchUnit, whatever the state (the model's choice, log 3); no command is refused, and none changes the queue. -/
def Obligations.FormedCommandsComplete : Prop :=
  ∀ (i : Instr) (s : State), (i.wf = true → ∃ t, exec i s = .next t) ∧ (i.wf = false → exec i s = .fault .noSuchUnit) ∧ ∀ t, exec i s = .next t → t.pending = s.pending

/-- After reset, and after a cold reset from any state (R10, R374): every register holds the reset value of its table but those of queue 0, of the log's next number and of the pins; scratchpads read zero, no hall is owned and no partition exists. -/
def Obligations.ResetValues : Prop :=
  (∀ u r k i, r ∈ regsOf u → r ≠ R.CQ_CFG → State.reset.regs.rd r k i = r.reset) ∧
  (∀ k, k ≠ 0 → k < 64 → State.reset.regs.rd R.CQ_CFG k = R.CQ_CFG.reset) ∧
  State.reset.g F.CQ_CFG_VALID 0 = 1 ∧ State.reset.g F.CQ_CFG_ADMIN 0 = 1 ∧ State.reset.g F.CQ_CFG_LOGSLOTS 0 = 8 ∧
  (∀ n a, State.reset.word n a = .clean 0) ∧ (∀ h, State.reset.ownerOf h = none) ∧ State.reset.parts = [] ∧ State.reset.now = 0 ∧ (∀ e, State.reset.page e = 0) ∧
  ∀ s : State, s.powered = true → s.power.phase ≠ .rising → ∃ t, exec .modResetNLow s = .next t ∧
    (∀ u r k i, r ∈ regsOf u → r ∉ [R.CQ_CFG, R.MB_LOG, R.PWR_STATUS] → t.regs.rd r k i = r.reset) ∧ (∀ n a, t.word n a = .clean 0) ∧ (∀ h, t.ownerOf h = none) ∧ t.parts = [] ∧ ∀ e, t.page e = 0

/-- Scalar arithmetic, predicates and branches: results and frames (ArithmeticRows, PredicateRows, BranchRows). -/
def Obligations.ScalarRows : Prop := Sys2Proof.Rules.ArithmeticRows ∧ Sys2Proof.Rules.PredicateRows ∧ Sys2Proof.Rules.BranchRows

/-- R74: scalar arithmetic is 48-bit two's complement, wraps, and sets no flag of Table 2.8; the corners of division; a write to p0 or s0 has no effect. -/
def Obligations.ScalarArithmetic : Prop :=
  ∀ (s : State) (n c w : Nat), s.guarded n c w = true →
    let a := s.sreg n c (Ins.sa w)
    let b := s.sreg n c (Ins.sb w)
    let flags := fun (t : State) => ∀ r, r ∈ [R.TILE_TSTAT, R.TILE_IEEE_FLAGS, R.TILE_VSTAT] → t.regs.rd r n = s.regs.rd r n
    (s.stands n c .alu w = true → ∃ t, exec (.alu n c) s = .next t ∧ flags t ∧
      (Ins.fn w = 0 → Ins.sd w ≠ 0 → (t.sreg n c (Ins.sd w)).toNat = (a.toNat + b.toNat) % 2 ^ 48) ∧
      (Ins.fn w = 1 → Ins.sd w ≠ 0 → (t.sreg n c (Ins.sd w)).toNat = (a.toNat + (2 ^ 48 - b.toNat)) % 2 ^ 48) ∧
      (Ins.sd w = 0 → ∀ i, t.sreg n c i = s.sreg n c i)) ∧
    (s.stands n c .alui w = true → ∃ t, exec (.alui n c) s = .next t ∧ flags t ∧
      (Ins.fn w = 0 → Ins.sd w ≠ 0 → ((t.sreg n c (Ins.sd w)).toNat : Int) = ((a.toNat : Int) + sext (Ins.imm w) 22) % 2 ^ 48) ∧
      (Ins.fn w = 1 → Ins.sd w ≠ 0 → ((t.sreg n c (Ins.sd w)).toNat : Int) = ((a.toNat : Int) - sext (Ins.imm w) 22) % 2 ^ 48) ∧
      (Ins.sd w = 0 → ∀ i, t.sreg n c i = s.sreg n c i)) ∧
    (s.stands n c .muldiv w = true → ∃ t, exec (.muldiv n c) s = .next t ∧ flags t ∧
      (Ins.sd w ≠ 0 →
        (Ins.fn w = 0 → (t.sreg n c (Ins.sd w)).toNat = a.toNat * b.toNat % 2 ^ 48) ∧
        (Ins.fn w = 7 → (t.sreg n c (Ins.sd w)).toNat = (a.toNat * b.toNat + (s.sreg n c (Ins.sc w)).toNat) % 2 ^ 48) ∧
        (b = 0 → Ins.fn w = 3 ∨ Ins.fn w = 4 → t.sreg n c (Ins.sd w) = BitVec.allOnes 48) ∧
        (b = 0 → Ins.fn w = 5 ∨ Ins.fn w = 6 → t.sreg n c (Ins.sd w) = a) ∧
        (a.toInt = -2 ^ 47 → b.toInt = -1 → (Ins.fn w = 3 → (t.sreg n c (Ins.sd w)).toInt = -2 ^ 47) ∧ (Ins.fn w = 5 → t.sreg n c (Ins.sd w) = 0)) ∧
        (b ≠ 0 → ¬ (a.toInt = -2 ^ 47 ∧ b.toInt = -1) → (Ins.fn w = 3 → (t.sreg n c (Ins.sd w)).toInt = a.toInt.tdiv b.toInt) ∧ (Ins.fn w = 5 → (t.sreg n c (Ins.sd w)).toInt = a.toInt.tmod b.toInt) ∧
          (Ins.fn w = 4 → (t.sreg n c (Ins.sd w)).toNat = a.toNat / b.toNat) ∧ (Ins.fn w = 6 → (t.sreg n c (Ins.sd w)).toNat = a.toNat % b.toNat))) ∧
      (Ins.sd w = 0 → ∀ i, t.sreg n c i = s.sreg n c i)) ∧
    (s.stands n c .cmp w = true → Ins.pd w = 0 → ∃ t, exec (.cmp n c) s = .next t ∧ flags t ∧ ∀ i, (t.tile n).pred c i = (s.tile n).pred c i) ∧
    (s.stands n c .cmpi w = true → Ins.sd w % 8 = 0 → ∃ t, exec (.cmpi n c) s = .next t ∧ flags t ∧ ∀ i, (t.tile n).pred c i = (s.tile n).pred c i) ∧
    (s.stands n c .plog w = true → Ins.pd w = 0 → ∃ t, exec (.plog n c) s = .next t ∧ flags t ∧ ∀ i, (t.tile n).pred c i = (s.tile n).pred c i) ∧
    s.sreg n c 0 = 0 ∧ (s.tile n).pred c 0 = true

/-- An instruction guarded off has no effect; an illegal one faults (GuardNotHolding, IllegalRow). -/
def Obligations.UnissuedRows : Prop := Sys2Proof.Rules.GuardNotHolding ∧ Sys2Proof.Rules.IllegalRow

/-- Scalar loads and stores, and where they fault (LoadRows, StoreRows, AccessFaults). -/
def Obligations.MemoryAccessRows : Prop := Sys2Proof.Rules.LoadRows ∧ Sys2Proof.Rules.StoreRows ∧ Sys2Proof.Rules.AccessFaults

/-- MFS and MTS (R77, R78, Table 3.6): below 0x100, MFS copies the special register and MTS writes VL alone; from 0x100, half-words of the arithmetic status registers move by their field types, a read clears what a read clears, and nothing else changes. -/
def Obligations.SpecialRegisterRows : Prop :=
  ∀ (s : State) (n c w : Nat), s.guarded n c w = true →
    let k := fld w 0 12
    let j := (k - 0x100) / 2
    let hi := k % 2 == 1
    let r := (statusReg j).1
    let i := (statusReg j).2
    let lo := if k % 2 = 1 then 48 else 0
    (s.stands n c .mfs w = true → k ≤ 8 → ∃ t, exec (.mfs n c) s = .next t ∧
      s.Scalar t n c (s.regsWith n c (Ins.sd w) (srValue s n c k)) ((s.tile n).pred c) (s.ctx n c).vl (s.nextPc n c)) ∧
    (s.stands n c .mfs w = true → 0x100 ≤ k → k ≤ 0x123 → ∃ t, exec (.mfs n c) s = .next t ∧
      s.Scalar (t.wreg r n i (s.regs.rd r n i)) n c (s.regsWith n c (Ins.sd w) (BitVec.ofNat 48 ((s.regValue r n i).toNat / 2 ^ lo))) ((s.tile n).pred c)
        (s.ctx n c).vl (s.nextPc n c) ∧
      t.regs.rd r n i = ({ r with fields := r.fields.filter (fun f => decide (48 ≤ f.lo) == hi) } : Reg).afterRead (s.regs.rd r n i)) ∧
    (s.stands n c .mts w = true → k = 6 → ∃ t, exec (.mts n c) s = .next t ∧
      s.Scalar t n c (s.sreg n c) ((s.tile n).pred c) (min (s.sreg n c (Ins.sa w)).toNat 4096) (s.nextPc n c)) ∧
    (s.stands n c .mts w = true → k ≤ 9 → k ≠ 6 → ∃ t, exec (.mts n c) s = .next t ∧
      s.Scalar t n c (s.sreg n c) ((s.tile n).pred c) (s.ctx n c).vl (s.nextPc n c)) ∧
    (s.stands n c .mts w = true → 0x100 ≤ k → k ≤ 0x123 → j ≠ 0 → j ≠ 6 → ∃ t, exec (.mts n c) s = .next t ∧
      s.Scalar (t.wreg r n i (s.regs.rd r n i)) n c (s.sreg n c) ((s.tile n).pred c) (s.ctx n c).vl (s.nextPc n c) ∧
      t.regs.rd r n i = r.writtenIn (s.regs.rd r n i)
        (BitVec.ofNat 64 (if k % 2 = 1 then (s.sreg n c (Ins.sa w)).toNat % 2 ^ 16 * 2 ^ 48 else (s.sreg n c (Ins.sa w)).toNat)) lo (if k % 2 = 1 then 64 else 48)) ∧
    ((s.stands n c .mfs w = true → 9 < k → k < 0x100 → ∃ t, exec (.mfs n c) s = .next t ∧ s.Faulted t n c 1 5 (s.ctx n c).pc 0) ∧
     (s.stands n c .mts w = true → 0x123 < k → ∃ t, exec (.mts n c) s = .next t ∧ s.Faulted t n c 1 5 (s.ctx n c).pc 0))

/-- NOP, LAND, WAIT.LAND, FENCE, HALT and segments: at once, or waiting (SyncRowsAtOnce, SyncRowsWait). -/
def Obligations.WaitingRows : Prop := Sys2Proof.Rules.SyncRowsAtOnce ∧ Sys2Proof.Rules.SyncRowsWait

/-- A handler is entered and returns (HandlerEnters, HandlerReturn). -/
def Obligations.HandlerRows : Prop := Sys2Proof.Rules.HandlerEnters ∧ Sys2Proof.Rules.HandlerReturn

/-- What a tile waits for arrives (WaitsEnd, TileArrives, LineFilled). -/
def Obligations.WaitsEndRows : Prop := Sys2Proof.Rules.WaitsEnd ∧ Sys2Proof.Rules.TileArrives ∧ Sys2Proof.Rules.LineFilled

/-- Engine instructions dispatch, or stall until they can (DispatchRows, DispatchStall). -/
def Obligations.DispatchRows : Prop := Sys2Proof.Rules.DispatchRows ∧ Sys2Proof.Rules.DispatchStall

/-- ALC open and close with nothing still writing (R81, R147–R149): the alcove opens with its descriptor, or closes; p[PD] is set, no other alcove changes, and memory and scalar registers stay. -/
def Obligations.AlcoveRows : Prop :=
  ∀ (s : State) (n c w : Nat), s.guarded n c w = true →
    let k := fld (Ins.aux w) 6 4
    let a := descAddr s n c w
    (s.tile n).alcBusy k = false →
    (∀ d, s.stands n c .alcOpen w = true → sbHazard (s.tile n).sb a 1 false = false → s.descFault n 5 a 1 = none → s.word n a = .clean d → s.alcRefused n d = false →
      ∃ t, exec (.alcOpen n c) s = .next t ∧ t.alcIsOpen n k = true ∧ t.alcDesc n k = d ∧ (∀ j, j < 16 → j ≠ k → t.alcIsOpen n j = s.alcIsOpen n j ∧ t.alcDesc n j = s.alcDesc n j) ∧
        (∀ i, (t.tile n).pred c i = s.predsWith n c (Ins.dpd w) true i) ∧ (∀ i, t.sreg n c i = s.sreg n c i) ∧ (t.ctx n c).pc = s.nextPc n c ∧ (t.ctx n c).wait = .run ∧
        (t.tile n).mem = (s.tile n).mem) ∧
    (s.stands n c .alcClose w = true →
      ∃ t, exec (.alcClose n c) s = .next t ∧ t.alcIsOpen n k = false ∧ (∀ j, j < 16 → j ≠ k → t.alcIsOpen n j = s.alcIsOpen n j) ∧ (∀ j, t.alcDesc n j = s.alcDesc n j) ∧
        (∀ i, (t.tile n).pred c i = s.predsWith n c (Ins.dpd w) true i) ∧ (∀ i, t.sreg n c i = s.sreg n c i) ∧ (t.ctx n c).pc = s.nextPc n c ∧ (t.ctx n c).wait = .run ∧
        (t.tile n).mem = (s.tile n).mem)

/-- Matrix and vector engine instructions start, step and end (EngineStarts, MatrixSteps, VectorDone). -/
def Obligations.EngineRows : Prop := Sys2Proof.Rules.EngineStarts ∧ Sys2Proof.Rules.MatrixSteps ∧ Sys2Proof.Rules.VectorDone

/-- ST_WORD_GROUP_ARRIVAL and ST_WRITE_ACK (R87, R90, R133, R344): the word groups that have arrived are converted and written and the load goes on to the next, and the oldest write issued is acknowledged and leaves, into the queue of the host-output region it lies in. -/
def Obligations.StreamRows : Prop :=
  ∀ (s : State) (n : Nat), n < 4608 →
    (∀ i id, (s.tile n).instr? id = some i → i.eng = 2 → i.stage = .running → St.dir i.desc = 0 → i.next + 1 < stChunks i.desc →
      ((s.tile n).stLines i.desc i.next).all (fun a => (s.tile n).lineResp.any (fun r => r.id == id && r.addr == a)) = true →
      let o := (s.tile n).stLoadChunk (s.roundCtx n i (St.rm i.desc)) id i.desc i.next
      (∀ w ∈ o.words, w.byte = none) → (o.words.map (·.addr)).Nodup →
      ∃ t, exec (.stWordGroupArrival n id) s = .next t ∧
        (t.tile n).instrs = (s.tile n).instrs.map (fun j => if j.id = id then { j with next := i.next + 1, since := s.now } else j) ∧
        (∀ w ∈ o.words, Sparse.get 0 (t.tile n).mem w.addr = storeVal w.data w.poison) ∧
        (∀ a, a ∉ o.words.map (·.addr) → Sparse.get 0 (t.tile n).mem a = Sparse.get 0 (s.tile n).mem a)) ∧
    (∀ l p, (s.tile n).lineOut.find? (fun l => l.issued && l.peer.isNone && !l.held) = some l → s.partOf n = some p →
      ∃ t, exec (.stWriteAck n) s = .next t ∧ (t.tile n).lineOut = (s.tile n).lineOut.eraseP (fun l => l.issued && l.peer.isNone && !l.held) ∧
        (t.tile n).mem = (s.tile n).mem ∧ (∀ m, m ≠ n → t.tile m = s.tile m) ∧
        (∀ r u k, r.key u k ≠ R.ENG_ST_WINDOW.key n 0 → t.regs.rd r u k = s.regs.rd r u k) ∧
        (∀ o, Sparse.find? s.hostOut p = some o →
          Sparse.find? t.hostOut p = some (if o.obase ≤ l.addr ∧ l.addr < o.obase + o.olen then { o with queue := o.queue ++ [l.addr] } else o)))

/-- Compiled exchange: sent, carried, accepted or turned away (MeshRows, DeliveryRows). -/
def Obligations.ExchangeRows : Prop := Sys2Proof.Rules.MeshRows ∧ Sys2Proof.Rules.DeliveryRows

/-- Messages: sent, queued, delivered and acknowledged (MessageRows, MessageFlow). -/
def Obligations.MessageRows : Prop := Sys2Proof.Rules.MessageRows ∧ Sys2Proof.Rules.MessageFlow

/-- CLOSE_OUT_RETIRE, CLOSE_IN_RETIRE, CREDIT_RETURN, OPENING_GRANT and MESSAGE_ACK (R197–R200, R202, R204): a close whose channel is quiet closes it; credits and grants reach the sender's channel; an accepted message leaves the unacknowledged list, and a refusal is counted and recorded. -/
def Obligations.ChannelRows : Prop :=
  ∀ (s : State) (n idx : Nat) (b : Ban),
    (∀ i, n < 4608 → s.msgRests n = true → (s.tile n).closeWaiting 3 = some i → (s.outC n (fld i.desc 0 6)).unacked = [] → (s.outC n (fld i.desc 0 6)).outw = 0 → (s.tile n).order false 1 = [i] →
      ∃ t, exec (.closeOutRetire n) s = .next t ∧ t.g F.CHO_CFG_OPEN n (fld i.desc 0 6) = 0 ∧ t.g F.CHO_STATE_WP n (fld i.desc 0 6) = 0 ∧
        t.g F.CHO_STATE_CRED n (fld i.desc 0 6) = 0 ∧ (t.tile n).instrs = (s.tile n).instrs.filter (fun x => x.id != i.id) ∧ (t.tile n).mem = (s.tile n).mem) ∧
    (∀ i, n < 4608 → s.msgRests n = true → (s.tile n).closeWaiting 4 = some i → (s.inC n (fld i.desc 0 6)).msgs = [] → s.chanHeld n (fld i.desc 0 6) = false → (s.tile n).spills.any (fun r => r.chan == fld i.desc 0 6) = false →
      (s.tile n).order false 1 = [i] →
      ∃ t, exec (.closeInRetire n) s = .next t ∧ t.g F.CHI_CFG_OPEN n (fld i.desc 0 6) = 0 ∧ (t.inC n (fld i.desc 0 6)).rspace = 0 ∧
        (t.inC n (fld i.desc 0 6)).closing = false ∧ (t.tile n).instrs = (s.tile n).instrs.filter (fun x => x.id != i.id) ∧ (t.tile n).mem = (s.tile n).mem) ∧
    (∀ ch words, s.banAt idx = some b → b.msg = .credit ch words → s.g F.CHO_STATE_CRED b.dst ch + words < 2 ^ 17 →
      ∃ t, exec (.creditReturn idx) s = .next t ∧ t.ban = s.ban.eraseIdx idx ∧ t.g F.CHO_STATE_CRED b.dst ch = s.g F.CHO_STATE_CRED b.dst ch + words ∧
        (t.outC b.dst ch).outw = (s.outC b.dst ch).outw - words ∧ (∀ m, (t.tile m).mem = (s.tile m).mem)) ∧
    (∀ ch words, s.banAt idx = some b → b.msg = .opening ch words → words < 2 ^ 17 →
      ∃ t, exec (.openingGrant idx) s = .next t ∧ t.ban = s.ban.eraseIdx idx ∧ t.g F.CHO_STATE_CRED b.dst ch = words ∧ t.tiles = s.tiles) ∧
    (∀ ch seq dt a words grant id, s.banAt idx = some b → b.msg = .msgAck ch seq 0 dt a → seq < 256 → (s.outC b.dst ch).unacked.find? (fun u => u.1 == seq) = some (seq, words, grant, id) →
      ∃ t, exec (.messageAck idx) s = .next t ∧ t.ban = s.ban.eraseIdx idx ∧ (t.outC b.dst ch).unacked = (s.outC b.dst ch).unacked.eraseP (fun u => u.1 == seq) ∧
        (t.tile b.dst).instrs = (s.tile b.dst).instrs.filter (fun x => x.id != id) ∧ t.g F.CHO_STATE_CRED b.dst ch = s.g F.CHO_STATE_CRED b.dst ch ∧
        (∀ m, (t.tile m).mem = (s.tile m).mem)) ∧
    (∀ ch seq reason dt a, s.banAt idx = some b → b.msg = .msgAck ch seq reason dt a → reason ≠ 0 →
      ∃ t, exec (.messageAck idx) s = .next t ∧ t.ban = s.ban.eraseIdx idx ∧ (∀ m, (t.tile m).mem = (s.tile m).mem) ∧
        t.g F.HALL_MSG_NACK_COUNT (b.dst / 64) (b.dst % 64) = min (s.g F.HALL_MSG_NACK_COUNT (b.dst / 64) (b.dst % 64) + 1) (2 ^ F.HALL_MSG_NACK_COUNT.width - 1) ∧
        t.g F.HALL_MSG_NACK_REASON (b.dst / 64) (b.dst % 64) = reason % 2 ^ F.HALL_MSG_NACK_REASON.width ∧
        t.g F.HALL_MSG_NACK_OUTCH (b.dst / 64) (b.dst % 64) = ch % 2 ^ F.HALL_MSG_NACK_OUTCH.width ∧ (reason = 7 → t.g F.CHO_STATE_BROKEN b.dst ch = 1))

/-- Scrubbers of scratchpads and galleries (ScrubRows, GalleryScrubRows). -/
def Obligations.ScrubbingRows : Prop := Sys2Proof.Rules.ScrubRows ∧ Sys2Proof.Rules.GalleryScrubRows

/-- SPILL, SPILL_COPY_DONE and SPILL_READBACK (R211, R212, Table 7.9): the oldest waiting message takes a record; its words go to byte space and its ring words are released; and a spilled item at the head of its list comes back into RETBUF. -/
def Obligations.SpillRows : Prop :=
  ∀ (s : State) (n k : Nat) (m : RingMsg), n < 4608 →
    (∀ a, k < 64 → s.g F.CHI_CFG_OPEN n k = 1 → s.g F.CHI_CFG_MODE n k = 1 → 128 * (s.inC n k).spmark ≤ ((((s.inC n k).msgs.filter (·.waiting)).map (·.hdr.len)).sum) →
      ((s.inC n k).msgs.filter (·.waiting)).find? (fun m => !(s.tile n).spills.any (fun r => r.chan == k && r.pid == m.pid)) = some m → s.spPlace n k m.hdr.len = some a →
      ∃ t, exec (.spill n k) s = .next t ∧ (t.tile n).spills = (s.tile n).spills ++ [⟨k, m.pid, s.spArea n k == 64, a, m.hdr.len, false⟩] ∧
        (t.tile n).mem = (s.tile n).mem ∧ (t.tile n).inCh = (s.tile n).inCh ∧ t.regs = s.regs) ∧
    (∀ r p, (s.tile n).spills.find? (fun r => !r.copied) = some r → s.partOf n = some p → r.chan = k → (s.inC n k).msgs.find? (fun m => m.pid == r.pid) = some m → m.offered = false →
      s.spArea n k = 64 → m.returned = false → m.done = false → ((s.inC n k).msgs.map (·.pid)).Nodup →
      ∃ t, exec (.spillCopyDone n) s = .next t ∧ (∃ x ∈ (t.tile n).spills, x = { r with copied := true }) ∧
        (∃ x ∈ (t.inC n k).msgs, x.pid = m.pid ∧ x.spilled = true ∧ x.released = true) ∧ (∀ a d, s.word n a = .clean d → t.word n a = .clean d)) ∧
    (∀ c rest p w ls, ((s.hall (n / 64)).listsOf (n % 64)).c1 = c :: rest → s.partOf n = some p → ((s.hall (n / 64)).listsOf (n % 64)).dead = false →
      readStored (Sparse.get 0 (s.hall (n / 64)).cells (2 * c)) = .clean w → Cell.spilled w = 1 → Cell.ch w = k → (s.inC n k).inRet = none →
      (s.inC n k).msgs.find? (fun m => m.cell == c && m.queued && !m.offered) = some m → (s.spRead n k p (192 * Cell.spoff w) (3 * spGroups m.hdr.len)).2 = some ls →
      ∃ t, exec (.spillReadback n) s = .next t ∧ (t.inC n k).inRet = some m.pid ∧
        ∀ i x, (spWords ls m.hdr.len)[i]? = some x → Sparse.get 0 (t.tile n).mem ((s.inC n k).retbuf + i) = storeVal x.1 x.2)

/-- HALL_CLEAR_DONE and CREATION_AFTER_RELEASE (R27, R28, R139, R153–R155, R340, R364): a cleared hall's scratchpads read as clean zeros and its clock is at 600 MHz; a creation whose halls have come free is carried out. -/
def Obligations.HallRows : Prop :=
  ∀ (s : State) (h p : Nat),
    (∀ (x : Release), h < 72 → s.foyer.releases.find? (fun x => x.halls.contains h) = some x → (s.hall h).slots = [] → (∃ g ∈ x.halls, g ≠ h) → x.halls.length ≠ 1 →
      ∃ t, exec (.hallClearDone h 25165824 786432 65536) s = .next t ∧ (∀ n a, n / 64 = h → t.word n a = .clean 0) ∧ (∀ n, n / 64 ≠ h → t.tile n = s.tile n) ∧
        (t.hall h).slots = [] ∧ (t.hall h).cells = [] ∧ t.g F.PART_OWNER_CLEARING h = 0 ∧ t.g F.HALL_CLK_CURRENT h = 24 ∧ t.g F.HALL_CLEARED_WORDS h = 25165824) ∧
    (∀ (x : Creation), p < 8 → s.foyer.creations.find? (fun x => x.cmd.hdr.tpart == p) = some x → s.createCheck p x.adopt x.halls = some 0 → (∀ g ∈ x.halls, g < 72) → x.halls.Nodup →
      ∃ t, exec (.creationAfterRelease p) s = .next t ∧ (∀ g ∈ x.halls, t.ownerOf g = some p) ∧ (∃ y ∈ t.parts, y.num = p ∧ y.halls = x.halls ∧ y.launched = false) ∧
        (∀ g ∈ x.halls, ∀ n a, n / 64 = g → t.word n a = .clean 0 ∧ t.segOn n (a % padWords) = true) ∧ (∀ n, n / 64 ∉ x.halls → t.tile n = s.tile n))

/-- Landings complete or time out; the SYNC pins (LandingRows, SyncPins). -/
def Obligations.LandingRows : Prop := Sys2Proof.Rules.LandingRows ∧ Sys2Proof.Rules.SyncPins

/-- Lines of the global range: requested, read, filled, written back (LineRequests, FillRows). -/
def Obligations.GlobalLineRows : Prop := Sys2Proof.Rules.LineRequests ∧ Sys2Proof.Rules.FillRows

/-- PAGE_MAP_CUT, COPY_DONE, REPAIR_TIMEOUT and REPAIR_PAGE_COPY_DONE (R222, R240–R243): once no access under the old entry is left, the oldest change reaches the page map; a copied page takes its copy's frame from the pool and is no longer held; a repair unanswered for 100 µs loses its line; a repaired page moves to a fresh frame and its old frame is retired. -/
def Obligations.PageRows : Prop :=
  ∀ (s : State) (e : Nat), e < 524288 →
    (∀ new rest, s.cuts = ⟨[(e, new)], none⟩ :: rest →
      (s.cutWaits [e] = true → exec .pageMapCut s = .next s) ∧
      (s.cutWaits [e] = false → ∃ t, exec .pageMapCut s = .next t ∧ t.cuts = rest ∧ (∀ d, d ≠ e → t.page d = s.page d) ∧
        (Pm.valid (s.page e) = 0 ∨ Pm.valid new = 0 → t.page e = new ∧ t.frames = s.frames) ∧
        (Pm.valid (s.page e) = 1 → Pm.valid new = 1 → Pm.rs (t.page e) = Pm.rs new))) ∧
    (s.copies.any (fun c => c.page == e) = true → Pm.hold (s.page e) = 1 → ∀ f rest, s.pool = f :: rest → f < 2 ^ 19 → (s.copyPage e f false).2 = true →
      ∃ t, exec (.copyDone e) s = .next t ∧ Pm.copyf (t.page e) = f ∧ Pm.copyv (t.page e) = 1 ∧ Pm.hold (t.page e) = 0 ∧ t.pool = rest ∧ t.copies = s.copies.filter (fun c => c.page != e)) ∧
    (∀ l r, l < 131072 → s.repairs.find? (fun r => r.page == e && r.line == l && !r.copying) = some r → r.since + 100000 ≤ s.now → s.peerReads = [] →
      s.repairs.any (fun r => r.page == e && r.line == l && !r.copying && r.stale) = false →
      ∃ t, exec (.repairTimeout e l) s = .next t ∧ t.repairs = s.repairs.filter (fun r => !(r.page == e && r.line == l && !r.copying)) ∧
        t.g F.GMEM_REPAIR_FAILED 0 = min (s.g F.GMEM_REPAIR_FAILED 0 + 1) (2 ^ F.GMEM_REPAIR_FAILED.width - 1) ∧
        frameClassify (t.frameLine (Pm.frame (s.page e)) l) = .poison) ∧
    (∀ r, s.repairs.find? (fun r => r.page == e && r.copying) = some r →
      (s.freeFrame = none → ∃ t, exec (.repairPageCopyDone e) s = .next t ∧ Pm.retire (t.page e) = 1 ∧ Pm.frame (t.page e) = Pm.frame (s.page e) ∧
        t.repairs = s.repairs.filter (fun x => !(x.page == e && x.copying))) ∧
      (∀ f, s.freeFrame = some f → (s.copyPage e f true).2 = true → ∃ t, exec (.repairPageCopyDone e) s = .next t ∧ Pm.frame (t.page e) = f ∧ Pm.retire (t.page e) = 0 ∧
        ∃ g ∈ t.retired, g = Pm.frame ((s.copyPage e f true).1.page e)))

/-- PATROL_SCRUB, MR4_READOUT, REFRESH and PREFETCH_BLOCK_PLACED (R223, R227, R237, R238): a controller's patrol goes group by group and counts its passes; the hottest die's code shows; only a refresh-management command counts; the last block of an occurrence, dropped, already in place or skipped, completes it. -/
def Obligations.ControllerRows : Prop :=
  ∀ (s : State) (m : Nat), m < 32 →
    (∃ t, exec (.patrolScrub m) s = .next t ∧ (Sparse.get 0 s.patrol m + 1 < 32 * 7456528 → Sparse.get 0 t.patrol m = Sparse.get 0 s.patrol m + 1) ∧
      (32 * 7456528 ≤ Sparse.get 0 s.patrol m + 1 → Sparse.get 0 t.patrol m = 0 ∧
        t.g F.MEMC_SCRUB_PASSES m = min (s.g F.MEMC_SCRUB_PASSES m + 1) (2 ^ F.MEMC_SCRUB_PASSES.width - 1)) ∧
      ∀ k, k ≠ m → Sparse.get 0 t.patrol k = Sparse.get 0 s.patrol k) ∧
    (∀ codes temp, ∃ t, exec (.mr4Readout m codes temp) s = .next t ∧ (∀ d, d < 16 → Sparse.get 0 t.mr4 (m * 16 + d) = codes / 2 ^ (3 * d) % 8 ∧ codes / 2 ^ (3 * d) % 8 ≤ t.g F.MEMC_STATUS_RATE m) ∧
      (∃ d, d < 16 ∧ t.g F.MEMC_STATUS_RATE m = codes / 2 ^ (3 * d) % 8) ∧ (∀ k, k / 16 ≠ m → Sparse.get 0 t.mr4 k = Sparse.get 0 s.mr4 k) ∧ t.frames = s.frames) ∧
    (∀ die, die < 16 → ∃ t u, exec (.refresh m die true) s = .next t ∧ exec (.refresh m die false) s = .next u ∧ u = s ∧ t.frames = s.frames ∧
      t.g F.MEMC_RFM_COUNT m = min (s.g F.MEMC_RFM_COUNT m + 1) (2 ^ F.MEMC_RFM_COUNT.width - 1)) ∧
    (∀ p j i o x, p < 8 → (s.pf p).active[j]? = some o → (s.pf p).entries[o.entry]? = some x → o.todo = [i] → s.waits = [] →
      (s.pageReason p ((x.block + i) / 128) false = 0 ∧ x.op = 2 ∧ s.holders (x.block + i) = []) ∨
        (s.pageReason p ((x.block + i) / 128) false = 0 ∧ x.op ≠ 2 ∧ ∃ h k y, s.pfTargets p x i = [h] ∧ s.holders (x.block + i) = [(h, k, y)] ∧ s.slot? h k = some y ∧ y.state = .clean ∧
          ∀ l, l < 1024 → y.has l = true) ∨ s.pageReason p ((x.block + i) / 128) false ≠ 0 →
      ∃ t, exec (.prefetchBlockPlaced p j i) s = .next t ∧ t.g F.GMEM_PF_DONE_COUNT 0 p = min (s.g F.GMEM_PF_DONE_COUNT 0 p + 1) (2 ^ F.GMEM_PF_DONE_COUNT.width - 1) ∧ t.frames = s.frames)

/-- CONTRIBUTION_WRITE and HELD_LINE_ACCEPT (R249, R250): a line of a bucket that is open is written and its bytes count for that bucket and no other; one of a bucket that is not is held; a held line is taken once its bucket is open. -/
def Obligations.ContributionRows : Prop :=
  ∀ (s : State) (p b : Nat), p < 8 →
    (∀ n l i, n < 4608 → (s.tile n).nextOut = some l → s.partOf n = some p → (s.tile n).instr? l.id = some i → s.stMayWrite n = true → St.tgt i.desc = 0 → s.inCarea p l.addr = true → s.sliceOf p l.addr = some b →
      (s.contribOk p b = true → s.pageReason p (pageOf l.addr) true = 0 → s.pageHeld (pageOf l.addr) = false → (s.hallWrite (n / 64) l.addr l.data l.mask l.poison).2 = true →
        ∃ t, exec (.contributionWrite n) s = .next t ∧ Sparse.get 0 (t.collOf p).bytes b = Sparse.get 0 (s.collOf p).bytes b + maskCount l.mask ∧
          (∀ c, c ≠ b → Sparse.get 0 (t.collOf p).bytes c = Sparse.get 0 (s.collOf p).bytes c) ∧ (t.collOf p).held = (s.collOf p).held ∧
          (t.tile n).lineOut.filter (fun x => !x.issued) = ((s.tile n).lineOut.filter (fun x => !x.issued)).drop 1 ∧ (t.tile n).mem = (s.tile n).mem) ∧
      (s.contribOk p b = false →
        ∃ t, exec (.contributionWrite n) s = .next t ∧ (t.collOf p).held = (s.collOf p).held ++ [⟨l.addr, l.data, l.mask, l.poison, .tile n l.id⟩] ∧
          (t.collOf p).bytes = (s.collOf p).bytes ∧ t.g F.COLL_HELD_W_COUNT p = min (s.g F.COLL_HELD_W_COUNT p + 1) (2 ^ F.COLL_HELD_W_COUNT.width - 1) ∧
          (t.tile n).mem = (s.tile n).mem ∧ t.halls = s.halls ∧ t.frames = s.frames)) ∧
    (∀ j x, (s.collOf p).held[j]? = some x → s.sliceOf p x.addr = some b →
      (s.contribOk p b = false → ∃ t, exec (.heldLineAccept p j) s = .next t ∧ t = s) ∧
      (x.who = .host → s.contribOk p b = true → s.pageReason p (pageOf x.addr) true = 0 → s.pageHeld (pageOf x.addr) = false → (s.writeLine x.addr x.data x.mask x.poison).2 = true →
        ∃ t, exec (.heldLineAccept p j) s = .next t ∧ (t.collOf p).held = (s.collOf p).held.erase x ∧
          Sparse.get 0 (t.collOf p).bytes b = Sparse.get 0 (s.collOf p).bytes b + maskCount x.mask ∧ ∀ c, c ≠ b → Sparse.get 0 (t.collOf p).bytes c = Sparse.get 0 (s.collOf p).bytes c))

/-- BUCKET_START, PERMUTE_START and BUCKET_PUBLISH (R250, R253, R257, R271–R273): a posted bucket whose turn has come starts; a PERMUTE starts with its table, or fails; publishing the watermark bucket counts it and moves the watermark on, or to 0 with the next step. -/
def Obligations.BucketRows : Prop :=
  ∀ (s : State) (p b : Nat) (r : CollRun), p < 8 → s.collRun? p b = some r →
    (r.started = false → Bk.op (s.bucket p b) ≠ 5 → (∀ x ∈ (s.collOf p).runs, x.bucket < b → Bk.op (s.bucket p x.bucket) = 5 → x.final = true) →
      6 ≤ Bk.op (s.bucket p b) ∨ (Bk.op (s.bucket p b) = 3 ∧ Bk.keep (s.bucket p b) ≠ s.cR p) ∨
        (s.verWaits p b = false ∧ (s.collSource p b).2.isSome = true ∧
          (2 ≤ Bk.op (s.bucket p b) ∨ (Bk.thinm1 (s.bucket p b) = 0 ∧ Bk.comp (s.bucket p b) = 0) ∨
            ((Bk.cmode (s.bucket p b) ≠ 2 ∨ Bk.vchk (s.bucket p b) = 0) ∧
              ((s.collSource p b).1.collRead p (Bk.xaddr (s.bucket p b)) (4 * Bk.e (s.bucket p b))).2.isSome = true))) →
      ∃ t, exec (.bucketStart p b) s = .next t ∧ (t.collRun? p b).map (·.started) = some true ∧ (∀ n, (t.tile n).mem = (s.tile n).mem) ∧ ∀ n, (t.tile n).sregs = (s.tile n).sregs) ∧
    (leastBy (·.bucket) ((s.collOf p).runs.filter (fun r => Bk.op (s.bucket p r.bucket) == 5 && !r.started)) = some r →
      (∀ c, s.watermark p ≤ c → c < b → (s.collRun? p c).map (·.final) = some true) → (∀ x ∈ (s.collOf p).runs, x.started = true → x.final = true) →
      (∀ l, (s.collRead p (Bk.xaddr (s.bucket p b)) (16 * Bk.e (s.bucket p b))).2 = some (some l) →
        let m := moveTable (Bk.e (s.bucket p b)) l
        l.any (·.2) = true ∨ ((s.collRead p (Bk.xaddr (s.bucket p b)) (16 * Bk.e (s.bucket p b))).1.moveReads p b m
          (((m.filter (fun x => x.1 == s.cR p)).map (·.2.1)).eraseDups)).2.isSome = true →
        ∃ t x, exec (.permuteStart p) s = .next t ∧ t.collRun? p b = some x ∧ x.started = true ∧ (∀ n, (t.tile n).mem = (s.tile n).mem) ∧
          (l.any (·.2) = true → x.fail ≠ 0) ∧ (l.any (·.2) = false → s.moveBad p (Bk.shard (s.bucket p b)) m = 0 → x.moves = m)) ∧
      ((s.collRead p (Bk.xaddr (s.bucket p b)) (16 * Bk.e (s.bucket p b))).2 = some none →
        ∃ t x, exec (.permuteStart p) s = .next t ∧ t.collRun? p b = some x ∧ x.started = true ∧ x.fail ≠ 0)) ∧
    (b = s.watermark p → r.final = true → r.notices = 0 →
      ∃ t, exec (.bucketPublish p) s = .next t ∧ t.g F.COLL_DONE_COUNT p = min (s.g F.COLL_DONE_COUNT p + 1) (2 ^ F.COLL_DONE_COUNT.width - 1) ∧
        (b + 1 = s.g F.COLL_PLAN_NBUCK p → t.watermark p = 0 ∧ t.g F.COLL_STEP_STEP p = add32 (s.g F.COLL_STEP_STEP p) 1) ∧
        (b + 1 ≠ s.g F.COLL_PLAN_NBUCK p → t.watermark p = (b + 1) % 2 ^ 17 ∧ t.g F.COLL_STEP_STEP p = s.g F.COLL_STEP_STEP p) ∧
        (r.fail ≠ 0 → t.g F.COLL_FAILS_COUNT p = min (s.g F.COLL_FAILS_COUNT p + 1) (2 ^ F.COLL_FAILS_COUNT.width - 1) ∧ ∀ x ∈ t.parts, x.num = p → x.fault = true))

/-- NOTICE_DELIVERY, COLLECTIVE_SLOW and REPLAY_NOTICE (R150, R255, R258, R298): an admitted notice writes its words and no others and no longer waits; a bucket posted for too long is counted and shown; the record and legs of the next step start its replay. -/
def Obligations.NoticeRows : Prop :=
  ∀ (s : State) (p b : Nat), p < 8 →
    (∀ idx q dst addr nonfin words, s.net[idx]? = some q → q.body = .coll dst p b addr nonfin words → q.arrived = true → s.firstOfFlow q = true →
      (∀ k, s.alcoveCheck dst addr words.length true 2 q.cls ⟨some q.tag, none, q.tag⟩ = .ok k →
        ∃ t, exec (.noticeDelivery idx) s = .next t ∧ t.net = s.net.filter (fun x => x.id != q.id) ∧ (∀ i w, words[i]? = some w → Sparse.get 0 (t.tile dst).mem (addr + i) = storeVal w.1 w.2) ∧
          (∀ a, a < addr ∨ addr + words.length ≤ a → Sparse.get 0 (t.tile dst).mem a = Sparse.get 0 (s.tile dst).mem a) ∧ (∀ m, m ≠ dst → t.tile m = s.tile m) ∧
          ∀ r, q.cls ≠ 3 → s.collRun? p b = some r → t.collRun? p b = some { r with notices := r.notices - 1 }) ∧
      (∀ why k, s.alcoveCheck dst addr words.length true 2 q.cls ⟨some q.tag, none, q.tag⟩ = .error (why, k) →
        ∃ t, exec (.noticeDelivery idx) s = .next t ∧ t.net = s.net.filter (fun x => x.id != q.id) ∧ (∀ m, (t.tile m).mem = (s.tile m).mem) ∧
          (q.cls = 3 → ∀ x ∈ t.parts, x.num = p → x.fault = true))) ∧
    (∀ r, s.collRun? p b = some r → r.slow = false → r.postedAt + 1000000 * s.g F.COLL_WDOG_TIMEOUT p ≤ s.now →
      ∃ t, exec (.collectiveSlow p b) s = .next t ∧ t.collRun? p b = some { r with slow := true } ∧ t.g F.COLL_SLOW_BUCKET p = b % 2 ^ 16 ∧ t.g F.COLL_SLOW_VALID p = 1 ∧
        t.g F.COLL_SLOW_WAITRANK p = s.waitRank p b % 2 ^ 12 ∧ t.g F.COLL_SLOW_COUNT p = min (s.g F.COLL_SLOW_COUNT p + 1) (2 ^ F.COLL_SLOW_COUNT.width - 1) ∧
        t.tiles = s.tiles ∧ t.frames = s.frames ∧ t.halls = s.halls) ∧
    (∀ k x r, k < 2 → s.inLink? p k = some x → s.g F.SP_IN_CFG_VALID p k = 1 → s.g F.SP_IN_STATE_REPLAYING p k = 0 → s.g F.SP_IN_STATE_CATCHUP p k = 0 → x.broken = false → x.built = true → x.digTodo = [] →
      let st := add32 (s.g F.SP_IN_STATE_STEP p k) 1
      x.recs.find? (fun r => r.1 == st) = some r → s.legsReady p x st r.2 = true →
      ∃ t q, exec (.replayNotice p k) s = .next t ∧ t.g F.SP_IN_STATE_REPLAYING p k = 1 ∧ t.inLink? p k = some { x with step := st, first := false } ∧ t.net = s.net ++ [q] ∧ q.cls = 3 ∧ q.arrived = true ∧
        q.body = .coll (s.devTile p (s.g F.SP_IN_NOTICE_NTILE p k)) p 0 (s.g F.SP_IN_NOTICE_NADDR p k) false
          [(st + st % max 1 (s.g F.SP_IN_CFG_LSTEPS p k) * 2 ^ 32 + (if x.first then 2 ^ 36 else 0) + k * 2 ^ 37, false)] ∧ t.tiles = s.tiles)

/-- State protection: shadows, snapshots and the risk index (ProtectionRows, RiskRow). -/
def Obligations.ProtectionRows : Prop := Sys2Proof.Rules.ProtectionRows ∧ Sys2Proof.Rules.RiskRow

/-- A frame that the MAC or a check of R333 turns away at an up sub-port changes nothing but counts: the MAC's causes (R313, Table 12.9), a header that is not for this device, a bad integrity check, a context that is not there. -/
def Obligations.PacketsDropped : Prop :=
  ∀ (s : State) (f : SwtFrame), f.sub < 64 → s.linkUp f.sub = true →
    let quiet := fun (t : State) => t.tiles = s.tiles ∧ t.frames = s.frames ∧ t.halls = s.halls ∧ t.net = s.net ∧ t.ban = s.ban ∧ t.peers = s.peers ∧ t.out = s.out
    let h := (swtHeader f.typ f.cls f.enc f.keyid f.retx f.plen f.dctx f.sctx f.seq f.aux f.addr f.pmask).set 0 (16 * f.ver + f.typ)
    let bad := f.own = false ∨ f.udp ≠ s.g F.SWT_PORT_UDP 0 ∨ f.ver ≠ 1 ∨ 11 < f.typ
    let sum := crc32c (h ++ leBytes f.plen f.payload ++ (if f.enc then beBytes 16 f.tag else []))
    (s.macCause f.sub f.eth ≠ 0 → isRow f 10 (some 0) = true → ∃ t, exec (.keepalive f) s = .next t ∧ quiet t ∧ t.g F.LINK_RX_DROP_LAST (f.sub / 2) (f.sub % 2) = s.macCause f.sub f.eth ∧
      t.g F.LINK_RX_DROP_COUNT (f.sub / 2) (f.sub % 2) = min (s.g F.LINK_RX_DROP_COUNT (f.sub / 2) (f.sub % 2) + 1) (2 ^ F.LINK_RX_DROP_COUNT.width - 1) ∧
      (f.eth.fcs = false → t.g F.LINK_RX_FRAMES_COUNT (f.sub / 2) (f.sub % 2) = s.g F.LINK_RX_FRAMES_COUNT (f.sub / 2) (f.sub % 2))) ∧
    (s.macCause f.sub f.eth = 0 → isRow f 10 (some 0) = true → bad → ∃ t, exec (.keepalive f) s = .next t ∧ quiet t ∧
      t.g F.SWT_DROP2_HDR (f.sub / 2) = min (s.g F.SWT_DROP2_HDR (f.sub / 2) + 1) (2 ^ F.SWT_DROP2_HDR.width - 1)) ∧
    (s.macCause f.sub f.eth = 0 → isRow f 10 (some 0) = true → ¬bad → sum ≠ f.crc → ∃ t, exec (.keepalive f) s = .next t ∧ quiet t ∧
      t.g F.SWT_DROP_CRC (f.sub / 2) = min (s.g F.SWT_DROP_CRC (f.sub / 2) + 1) (2 ^ F.SWT_DROP_CRC.width - 1)) ∧
    (s.macCause f.sub f.eth = 0 → isRow f 10 (some 0) = true → ¬bad → sum = f.crc → s.peer? f.dctx = none → ∃ t, exec (.keepalive f) s = .next t ∧ quiet t ∧
      t.g F.SWT_DROP_CTX (f.sub / 2) = min (s.g F.SWT_DROP_CTX (f.sub / 2) + 1) (2 ^ F.SWT_DROP_CTX.width - 1))

/-- SWT_WRITE, SWT_READ, READ_RESP and DACK of accepted packets (R218, R220, R254, R327): a line is written and acknowledged; a refused write writes nothing and is acknowledged with status 9; a read is answered, with status 9 where it is refused, or waits for its bucket; lines reach the stream load that asked for them; an acknowledged line write leaves. -/
def Obligations.PeerMemoryRows : Prop :=
  ∀ (s s1 : State) (f : SwtFrame) (c : PeerCtx) (q pay : Nat),
    let p := c.lpart
    let a := f.addr / 64 * 64
    let reason := fun x w => if 2 ^ 42 ≤ x then 1 else s.pageReason p (pageOf x) w
    (s.accepts f 0 none s1 c q pay →
      (∀ v, payloadLines f.plen pay f.pmask = [v] → reason a true = 0 → s.inCarea p a = false → s.lineWaits a = false → (∀ y ∈ (s.collOf p).held, y.who ≠ .peer f.dctx f.cls q) →
        ∃ t, exec (.swtWrite f) s = .next t ∧ s.received t f q ∧ t.frames = (s1.writeLine a v.data (BitVec.allOnes 64) v.poison).1.frames ∧
          t.halls = (s1.writeLine a v.data (BitVec.allOnes 64) v.poison).1.halls ∧ t.tiles = s.tiles ∧ t.sends f.dctx 4 f.cls 0 (q % 2 ^ 32 + f.cls * 2 ^ 32)) ∧
      (∀ i, i < f.plen / 64 → reason (a + 64 * i) true ≠ 0 →
        ∃ t why, exec (.swtWrite f) s = .next t ∧ s.received t f q ∧ t.frames = s.frames ∧ t.halls = s.halls ∧ t.tiles = s.tiles ∧ (∀ x ∈ t.parts, x.num = p → x.fault = true) ∧ why ≠ 0 ∧
          t.sends f.dctx 4 f.cls (9 + 16 * why) (q % 2 ^ 32 + f.cls * 2 ^ 32))) ∧
    (∀ i, s.accepts f 1 none s1 c q pay → i < f.aux % 128 → reason (a + 64 * i) false ≠ 0 →
      ∃ t, exec (.swtRead f) s = .next t ∧ s.received t f q ∧ t.frames = s.frames ∧ t.halls = s.halls ∧ t.tiles = s.tiles ∧ t.sends f.dctx 2 f.cls 9 (q % 2 ^ 32)) ∧
    (s.accepts f 1 none s1 c q pay → (∀ i, i < f.aux % 128 → reason (a + 64 * i) false = 0) →
      (∀ i, i < f.aux % 128 → s.resultHeld p (a + 64 * i) = true →
        ∃ t, exec (.swtRead f) s = .next t ∧ s.received t f q ∧ t.peerReads = s.peerReads ++ [⟨f.dctx, f.cls, q, a, f.aux % 128⟩] ∧ t.frames = s.frames ∧ t.halls = s.halls ∧ t.tiles = s.tiles) ∧
      (∀ ls, (∀ i, i < f.aux % 128 → s.resultHeld p (a + 64 * i) = false) → (s1.readLines a (f.aux % 128)).2 = some ls →
        ∃ t, exec (.swtRead f) s = .next t ∧ s.received t f q ∧ t.peerReads = s.peerReads ∧ t.tiles = s.tiles ∧
          ∃ d, t.peer? f.dctx = some d ∧ ∃ x ∈ d.unacked, x.typ = 2 ∧ x.cls = f.cls ∧ x.aux = 0 ∧ x.addr = q % 2 ^ 32 ∧ x.payload = linesVal ls)) ∧
    (∀ cls seq n id b k, s.accepts f 2 none s1 c q pay → c.pend = [.read cls seq n id b k] → cls = f.cls → seq % 2 ^ 32 = f.addr % 2 ^ 32 → ((s.tile n).instr? id).isSome = true →
      ∃ t, exec (.readResp f) s = .next t ∧ s.received t f q ∧ (t.tile n).mem = (s.tile n).mem ∧ (∀ m, m ≠ n → t.tile m = s.tile m) ∧
        (f.aux % 16 = 0 → (t.tile n).lineResp = (s.tile n).lineResp ++ ((payloadLines f.plen pay f.pmask).zipIdx.map (fun v => ⟨id, b + 64 * v.2, v.1⟩))) ∧
        (f.aux % 16 ≠ 0 → (t.tile n).lineResp = (s.tile n).lineResp ++ ((List.range k).map (fun i => ⟨id, b + 64 * i, ⟨0, true⟩⟩)))) ∧
    (∀ cls seq n id, s.accepts f 4 none s1 c q pay → c.pend = [.write cls seq n id] → cls = f.addr / 2 ^ 32 % 4 → seq % 2 ^ 32 = f.addr % 2 ^ 32 →
      ∃ t, exec (.dack f) s = .next t ∧ s.received t f q ∧ (t.tile n).lineOut = (s.tile n).lineOut.filter (fun l => l.peer != some (f.dctx, seq)) ∧ (t.tile n).mem = (s.tile n).mem ∧
        ∀ m, m ≠ n → t.tile m = s.tile m)

/-- SWT_MSG, CREDIT, LAND_PACKET, KEEPALIVE and PART_END of accepted packets (R186, R187, R192, R199, R202, R334): a message goes onto the mesh and its doorbell onto the banister, or is refused with reason 6; an entry adds to or sets its channel's credits; a landing packet counts for its landing, or faults where it is too far ahead; PART_END takes the context down. -/
def Obligations.PeerEventRows : Prop :=
  ∀ (s s1 : State) (f : SwtFrame) (c : PeerCtx) (q pay : Nat),
    let p := c.lpart
    let h := msgHdrOf (f.aux + f.addr * 2 ^ 32) f.dctx
    let l := f.addr % 2 ^ 32
    let bits := f.addr / 2 ^ 32 % 2 ^ 16
    (s.accepts f 3 none s1 c q pay →
      (∀ n, s.msgTile p h = some n → ∃ t g, exec (.swtMsg f) s = .next t ∧ s.received t f q ∧ t.net = s.net ++ [g] ∧ g.tag = p ∧ g.here = perimeterHall (f.sub / 2) ∧ g.dstHall = n / 64 ∧
        g.cls = h.cls ∧ g.body = .msg n h (20000 + q) ((List.range h.len).map (fun i => (pay / 2 ^ (96 * i) % 2 ^ 96, false))) ∧ t.tiles = s.tiles ∧
        t.ban = if h.wrap then s.ban else s.ban ++ [⟨banPort + f.sub / 2, n, .bell h.inch h.seq (20000 + q)⟩]) ∧
      (s.msgTile p h = none → ∃ t, exec (.swtMsg f) s = .next t ∧ s.received t f q ∧ t.net = s.net ∧ t.ban = s.ban ∧ t.tiles = s.tiles ∧ t.sends f.dctx 4 h.cls 6 (q % 2 ^ 32 + h.cls * 2 ^ 32))) ∧
    (s.accepts f 5 none s1 c q pay → f.aux = 1 → fld pay 0 13 < s.tileCount p →
      let n := s.devTile p (fld pay 0 13)
      let j := fld pay 13 6
      (fld pay 36 1 = 1 → ∃ t, exec (.credit f) s = .next t ∧ s.received t f q ∧ t.g F.CHO_STATE_CRED n j = fld pay 19 17 ∧ ∀ m, (t.tile m).mem = (s.tile m).mem) ∧
      (fld pay 36 1 = 0 → s.g F.CHO_STATE_CRED n j + fld pay 19 17 < 2 ^ 17 → ∃ t, exec (.credit f) s = .next t ∧ s.received t f q ∧
        t.g F.CHO_STATE_CRED n j = s.g F.CHO_STATE_CRED n j + fld pay 19 17 ∧ ∀ m, (t.tile m).mem = (s.tile m).mem)) ∧
    (∀ x, s.accepts f 6 none s1 c q pay → s.part? p = some x → f.dctx ∈ x.groupCtx →
      let k := x.groupCtx.findIdx (· == f.dctx)
      let r := s.g F.LAND_GROUP_RANK p
      (4 < diff32 l (s.g F.LAND_NUM_DONE p) → ∃ t, exec (.landPacket f) s = .next t ∧ s.received t f q ∧ (∀ x ∈ t.parts, x.num = p → x.fault = true) ∧ t.tiles = s.tiles) ∧
      (diff32 l (s.g F.LAND_NUM_DONE p) ≤ 4 → 0 < diff32 l (s.g F.LAND_NUM_DONE p) → s.landMode p = 1 → f.aux % 4 = 0 →
        ∃ t e, exec (.landPacket f) s = .next t ∧ s.received t f q ∧ t.landing? p l = some e ∧ (if k = 0 then (r - 1) / 32 else 32 * r + k) ∈ e.kids ∧ t.tiles = s.tiles) ∧
      (diff32 l (s.g F.LAND_NUM_DONE p) ≤ 4 → 0 < diff32 l (s.g F.LAND_NUM_DONE p) → s.landMode p = 1 → f.aux % 4 = 1 →
        ∃ t e, exec (.landPacket f) s = .next t ∧ s.received t f q ∧ t.landing? p l = some e ∧ e.release = some bits ∧ t.tiles = s.tiles) ∧
      (diff32 l (s.g F.LAND_NUM_DONE p) ≤ 4 → 0 ≤ diff32 l (s.g F.LAND_NUM_DONE p) → s.landMode p = 2 → f.aux % 4 = 2 →
        ∃ t y, exec (.landPacket f) s = .next t ∧ s.received t f q ∧ t.part? p = some y ∧ y.rankBits = x.rankBits ++ [(l, f.dctx, bits)] ∧ t.tiles = s.tiles)) ∧
    (s.accepts f 10 (some 0) s1 c q pay → ∃ t, exec (.keepalive f) s = .next t ∧ s.received t f q ∧ t.tiles = s.tiles ∧ t.frames = s.frames ∧ t.halls = s.halls ∧ t.net = s.net ∧ t.ban = s.ban) ∧
    (s.accepts f 10 (some 1) s1 c q pay → ∃ t d, exec (.partEnd f) s = .next t ∧ s.received t f q ∧ t.peer? f.dctx = some d ∧ d.up = false ∧ d.unacked = [] ∧ d.pend = [] ∧ t.tiles = s.tiles)

/-- COLL, REPAIR, REPAIR_RESP and the CTRL packets of state protection, accepted (R242, R257, R297–R301): data of an earlier step is dropped and other data counts; a repair read is answered or refused; an answer restores its line, a refusal loses it; an acknowledged step shows; a record is kept, or breaks the link, or comes too late; a catch-up packet counts, and the last ends the catch-up; a digest is compared. -/
def Obligations.PeerProtectionRows : Prop :=
  ∀ (s s1 : State) (f : SwtFrame) (c : PeerCtx) (q pay : Nat),
    let p := c.lpart
    let e := pageOf f.addr
    let i := pageLine f.addr
    let bound := s1.linkBind p f.dctx
    (s.accepts f 7 none s1 c q pay → f.aux / 2 ^ 16 % 16 ≠ 5 →
      let x := collOfPacket (s.bucket p (f.aux % 2 ^ 16)) (f.aux / 2 ^ 16 % 16) (f.aux % 2 ^ 16) f.plen pay f.pmask
      let late := diff32 x.step (s.g F.COLL_STEP_STEP p) < 0 ∨ (x.step = s.g F.COLL_STEP_STEP p ∧ x.bucket < s.watermark p)
      (late → s.collTransit p x = false → ∃ t, exec (.coll f) s = .next t ∧ s.received t f q ∧ t.coll = s.coll ∧ t.frames = s.frames ∧ t.tiles = s.tiles) ∧
      (¬late → ∃ t, exec (.coll f) s = .next t ∧ s.received t f q ∧ t.g F.COLL_RX_LINES p = min (s.g F.COLL_RX_LINES p + (x.size + 63) / 64) (2 ^ F.COLL_RX_LINES.width - 1) ∧
        ∀ n, (t.tile n).mem = (s.tile n).mem)) ∧
    (s.accepts f 8 none s1 c q pay →
      (bound.linkOf p f.dctx = none → ∃ t, exec (.repair f) s = .next t ∧ s.received t f q ∧ t.sends f.dctx 9 0 1 f.addr ∧ t.frames = s.frames ∧ t.tiles = s.tiles) ∧
      (∀ k v, bound.linkOf p f.dctx = some k → (bound.shadowLine p k f.aux f.addr).2 = some v → ∃ t, exec (.repair f) s = .next t ∧ s.received t f q ∧ t.sends f.dctx 9 0 0 f.addr ∧ t.tiles = s.tiles) ∧
      (∀ k, bound.linkOf p f.dctx = some k → (bound.shadowLine p k f.aux f.addr).2 = none → ∃ t, exec (.repair f) s = .next t ∧ s.received t f q ∧ t.sends f.dctx 9 0 1 f.addr ∧ t.tiles = s.tiles)) ∧
    (s.accepts f 9 none s1 c q pay → s.peerReads = [] → s.repairs.any (fun r => r.page == e && r.line == i && !r.copying && r.stale) = false →
      (s.repairing e i = false → ∃ t, exec (.repairResp f) s = .next t ∧ s.received t f q ∧ t.frames = s.frames ∧ t.repairs = s.repairs) ∧
      (s.repairing e i = true → f.aux % 2 = 0 → ∃ t, exec (.repairResp f) s = .next t ∧ s.received t f q ∧ t.frameLine (Pm.frame (s.page e)) i = frameStore (pay % 2 ^ 512) false ∧
        t.g F.GMEM_REPAIR_REPAIRED 0 = min (s.g F.GMEM_REPAIR_REPAIRED 0 + 1) (2 ^ F.GMEM_REPAIR_REPAIRED.width - 1) ∧ ∃ r ∈ t.repairs, r.page = e ∧ r.copying = true) ∧
      (s.repairing e i = true → f.aux % 2 = 1 → ∃ t, exec (.repairResp f) s = .next t ∧ s.received t f q ∧ frameClassify (t.frameLine (Pm.frame (s.page e)) i) = .poison ∧
        t.g F.GMEM_REPAIR_FAILED 0 = min (s.g F.GMEM_REPAIR_FAILED 0 + 1) (2 ^ F.GMEM_REPAIR_FAILED.width - 1))) ∧
    (s.accepts f 10 (some 2) s1 c q pay → s.linkIsUp p = true → s.g F.SP_LINK_CTX p = f.dctx → f.aux / 2 ^ 8 % 2 = 0 →
      ∃ t, exec (.spAck f) s = .next t ∧ s.received t f q ∧ t.g F.SP_LINK_ACKED p = f.addr % 2 ^ 32 ∧ t.tiles = s.tiles ∧ t.frames = s.frames) ∧
    (∀ k, s.accepts f 10 (some 3) s1 c q pay → bound.linkOf p f.dctx = some k →
      let b := leBytes 256 pay
      let st := leVal (b.take 4)
      (bound.legLate p k st = true → ∃ t, exec (.spRecord f) s = .next t ∧ s.received t f q ∧ (t.inLink? p k).map (·.recs) = (bound.inLink? p k).map (·.recs) ∧ t.frames = s.frames) ∧
      (bound.legLate p k st = false → bound.legBlocked p k st = true ∨ s.g F.COLL_PLAN_VALID p = 0 → (bound.inLink? p k).isSome = true →
        ∃ t x, exec (.spRecord f) s = .next t ∧ s.received t f q ∧ t.inLink? p k = some x ∧ x.broken = true ∧ t.frames = s.frames) ∧
      (bound.legLate p k st = false → bound.legBlocked p k st = false → s.g F.COLL_PLAN_VALID p = 1 →
        (bound.collWrite p (bound.legBase p k st + bound.g F.COLL_RHALF_RHALF p) (toLines (b.map (fun x => (x, false))))).2 ≠ 1 →
        ∃ t x, exec (.spRecord f) s = .next t ∧ s.received t f q ∧ t.inLink? p k = some x ∧ (st, leVal ((b.drop 8).take 2)) ∈ x.recs)) ∧
    (∀ k x step, s.accepts f 10 (some 4) s1 c q pay → bound.linkOf p f.dctx = some k → bound.inLink? p k = some x → f.addr % 2 ^ 42 / 2 ^ 23 < x.shn →
      (bound.collWrite p (x.shpage * 2 ^ 23 + f.addr % 2 ^ 42) (payloadLines f.plen pay f.pmask)).2 ≠ 1 →
      let begins := s.g F.SP_IN_STATE_CATCHUP p k = 0 ∨ x.step % 2 ^ 13 ≠ f.aux / 2 ^ 19 % 2 ^ 13
      (begins → s.g F.SP_IN_STATE_REPLAYING p k = 0 ∧ x.seen.find? (fun r => r % 2 ^ 13 == f.aux / 2 ^ 19 % 2 ^ 13) = some step) → (¬begins → step = x.step) →
      ∀ got, (begins → got = if f.aux / 2 ^ 18 % 2 = 1 then 64 * (f.plen / 64) else 0) → (¬begins → got = x.tail + if f.aux / 2 ^ 18 % 2 = 1 then 64 * (f.plen / 64) else 0) →
      (got < 2 ^ 23 → ∃ t y, exec (.spPage f) s = .next t ∧ s.received t f q ∧ t.g F.SP_IN_STATE_CATCHUP p k = 1 ∧ t.inLink? p k = some y ∧ y.step = step ∧ y.tail = got ∧ t.tiles = s.tiles) ∧
      (2 ^ 23 ≤ got → begins ∨ x.broken = false → ∃ t y, exec (.spPage f) s = .next t ∧ s.received t f q ∧ t.g F.SP_IN_STATE_CATCHUP p k = 0 ∧ t.g F.SP_IN_STATE_STEP p k = step % 2 ^ 32 ∧
        t.inLink? p k = some y ∧ y.built = true ∧ y.first = true ∧ y.broken = false ∧ t.tiles = s.tiles)) ∧
    (∀ d, s.accepts f 10 (some 5) s1 c q pay → s.linkIsUp p = true → s.g F.SP_LINK_CTX p = f.dctx →
      (s.protOf p).digests.find? (fun x => x.1 == f.aux / 2 ^ 8 % 2 ^ 10 && x.2.1 == pay % 2 ^ 32) = some d →
      ∃ t, exec (.spDigest f) s = .next t ∧ s.received t f q ∧ t.g F.SP_DIGEST_CHECKS p = min (s.g F.SP_DIGEST_CHECKS p + 1) (2 ^ F.SP_DIGEST_CHECKS.width - 1) ∧
        t.g F.SP_DIGEST_MISMATCH p = (if d.2.2 = f.addr then s.g F.SP_DIGEST_MISMATCH p else min (s.g F.SP_DIGEST_MISMATCH p + 1) (2 ^ F.SP_DIGEST_MISMATCH.width - 1)) ∧
        (d.2.2 = f.addr → (t.protOf p).digests = (s.protOf p).digests.filter (fun x => !(x.1 == d.1 && x.2.1 == d.2.1))) ∧
        (d.2.2 ≠ f.addr → (t.protOf p).digests = (s.protOf p).digests.filter (fun x => x.1 != d.1) ∧ ∀ y, t.tensor? p d.1 = some y → y.method = 1 ∧ y.catching = true))

/-- ACK and the timers of a context (R202, R329, R334): an acknowledgement retires what it covers; a due acknowledgement, a retransmission, held credits and a keepalive are sent; a context silent for 1 s goes down; nothing happens before its time. -/
def Obligations.PeerTimers : Prop :=
  ∀ (s : State) (ctx : Nat) (c : PeerCtx), ctx < 8192 → s.peer? ctx = some c →
    (∀ s1 f q pay, s.accepts f 11 none s1 c q pay → f.dctx = ctx → f.plen = 0 → f.cls ≠ 3 →
      let base := (c.unacked.find? (fun p => p.cls == f.cls)).map (·.seq) |>.getD (Sparse.get 0 c.txSeq f.cls)
      ∃ t d, exec (.ack f) s = .next t ∧ t.peer? ctx = some d ∧ t.tiles = s.tiles ∧
        d.unacked.map (fun x => (x.cls, x.seq)) = (c.unacked.filter (fun x => !(x.cls == f.cls && x.sent && decide (x.seq < extendSeq base (f.addr % 2 ^ 32))))).map (fun x => (x.cls, x.seq))) ∧
    (∀ cls l, c.up = true → c.ackDue.any (fun a => a.1 == cls && decide (a.2 + 2000 ≤ s.now)) = true → c.canSend c.keyid = true → s.pickLink ctx cls c = some l → s.pausedAt l 0 = false →
      ∃ t d, exec (.ackTimer ctx cls) s = .next t ∧ t.peer? ctx = some d ∧ d.ackDue = c.ackDue.filter (fun a => a.1 != cls) ∧ d.ackCtr = c.ackCtr + 1 ∧ d.unacked = c.unacked ∧
        t.g F.PT_TX_PKTS (l / 2) = min (s.g F.PT_TX_PKTS (l / 2) + 1) (2 ^ F.PT_TX_PKTS.width - 1) ∧ t.tiles = s.tiles) ∧
    (∀ p l, c.up = true → s.overdue c = [p] → (∀ k, c.canSend k = true) → s.pickLink ctx p.cls c = some l → s.pausedAt l p.cls = false →
      ∃ t d, exec (.retransmitTimeout ctx) s = .next t ∧ t.peer? ctx = some d ∧ d.retx = c.retx + 1 ∧ d.unacked.map (fun x => (x.cls, x.seq)) = c.unacked.map (fun x => (x.cls, x.seq)) ∧
        t.g F.PT_RETX_PKTS (l / 2) = min (s.g F.PT_RETX_PKTS (l / 2) + 1) (2 ^ F.PT_RETX_PKTS.width - 1) ∧ t.tiles = s.tiles) ∧
    (s.overdue c = [] → ∃ t, exec (.retransmitTimeout ctx) s = .next t ∧ t = s) ∧
    (c.up = true → c.credits ≠ [] →
      ∃ t d, exec (.creditPacketTimer ctx) s = .next t ∧ t.peer? ctx = some d ∧ d.credits = c.credits.drop (c.pmax / 8) ∧ t.tiles = s.tiles ∧ t.sends ctx 5 0 (min (c.pmax / 8) c.credits.length) 0) ∧
    (c.up = true → (∃ p ∈ c.unacked, p.since + 1000000000 ≤ s.now) ∨ (∃ e, c.emptyAt = some e ∧ e + 1000000000 ≤ s.now) →
      ∃ t d, exec (.contextDownTimer ctx) s = .next t ∧ t.peer? ctx = some d ∧ d.up = false ∧ d.unacked = [] ∧ d.pend = [] ∧ t.tiles = s.tiles) ∧
    ((∀ p ∈ c.unacked, s.now < p.since + 1000000000) → (∀ e, c.emptyAt = some e → s.now < e + 1000000000) → ∃ t, exec (.contextDownTimer ctx) s = .next t ∧ t = s) ∧
    (c.up = true → c.lastTx + 10000000 ≤ s.now → (∀ p ∈ c.unacked, p.typ = 10 → p.aux = 0 → p.sent = true) → ∃ t, exec (.keepaliveTimer ctx) s = .next t ∧ t.sends ctx 10 0 0 0 ∧ t.tiles = s.tiles) ∧
    (s.now < c.lastTx + 10000000 → ∃ t, exec (.keepaliveTimer ctx) s = .next t ∧ t = s)

/-- Host writes, sends and reads (HostWrites, HostRequests). -/
def Obligations.HostRows : Prop := Sys2Proof.Rules.HostWrites ∧ Sys2Proof.Rules.HostRequests

/-- ROCE_ACK, ROCE_NAK, READ_RESPONSE and the timers of a queue pair in good order (R314, R318, R323, R324, R360): an acknowledged operation leaves, one not yet covered stays; data read for an update starts its next phase; a refusal stops the queue pair; a timeout is retried within the retry count and stops it beyond; a CNP lowers the rate and quiet time raises it. -/
def Obligations.QueuePairRows : Prop :=
  ∀ (s : State) (n psn : Nat) (q : Qp) (e : EthHead), n < 1024 → s.qp? n = some q →
    let stops := fun (t : State) => (∀ m, (t.tile m).mem = (s.tile m).mem) ∧ ∃ p, t.qp? n = some p ∧ p.ok = false ∧ p.ops = [] ∧ p.cur = none
    (s.hostUp q.port = true → q.ok = true → s.macCause (64 + 2 * q.port) e = 0 →
      (∀ o, q.ops = [o] → isRead o = false → (∀ c, o.why ≠ .cmd c) →
        ((psn + 1) % 2 ^ 24 + 2 ^ 24 - (o.psn + o.n) % 2 ^ 24) % 2 ^ 24 < 2 ^ 23 →
        ∃ t p, exec (.roceAck n psn e) s = .next t ∧ t.qp? n = some p ∧ p.ops = [] ∧ p.tries = 0 ∧ p.ok = true ∧ t.tiles = s.tiles) ∧
      (∀ o rest, q.ops = o :: rest → 2 ^ 23 ≤ ((psn + 1) % 2 ^ 24 + 2 ^ 24 - (o.psn + o.n) % 2 ^ 24) % 2 ^ 24 →
        ∃ t p, exec (.roceAck n psn e) s = .next t ∧ t.qp? n = some p ∧ p.ops = q.ops ∧ p.tries = q.tries ∧ p.ok = true ∧ (e.ce = false → p = q) ∧ t.tiles = s.tiles) ∧
      (∀ d, q.ops = [] → ∃ t p, exec (.roceNak n psn 0 (some d) e) s = .next t ∧ t.qp? n = some p ∧ p.rnrAt = some (s.now + d) ∧ p.ok = true ∧ t.tiles = s.tiles) ∧
      (∀ code, q.ops = [] → code ≠ 0 → ∃ t, exec (.roceNak n psn code none e) s = .next t ∧ stops t) ∧
      (q.ops = [] → q.tries < q.retry → ∃ t p, exec (.roceNak n psn 0 none e) s = .next t ∧ t.qp? n = some p ∧ p.tries = q.tries + 1 ∧ p.retried = q.retried + 1 ∧ p.ok = true) ∧
      (∀ o hb off u data, q.ops = [o] → o.out = .hostRead hb off data.length → o.psn = psn % 2 ^ 24 → o.why = .update → s.mss.update = some u → u.total ≤ data.length →
        ∃ t p, exec (.readResponse n psn data e) s = .next t ∧ t.qp? n = some p ∧ p.ops = [] ∧ t.mss.update = some { u with bytes := data, phase := 1 } ∧ t.tiles = s.tiles) ∧
      (∃ t p, exec (.cnp n e) s = .next t ∧ t.qp? n = some p ∧ p.cnpRx = some s.now ∧ t.tiles = s.tiles ∧
        ((∀ c, q.lastcut = some c → c + 50000 ≤ s.now) → p.rate = max (q.rate * 7 / 8) (hostRate / 400) ∧ p.lastcut = some s.now) ∧
        (∀ c, q.lastcut = some c → s.now < c + 50000 → p.rate = q.rate ∧ p.lastcut = q.lastcut))) ∧
    (q.ok = true → q.ops ≠ [] → q.rnrAt = none →
      (q.tries < q.retry → ∃ t p, exec (.localAckTimeout n) s = .next t ∧ t.qp? n = some p ∧ p.tries = q.tries + 1 ∧ p.retried = q.retried + 1 ∧ p.ops.map (·.psn) = q.ops.map (·.psn) ∧ t.tiles = s.tiles) ∧
      (q.retry ≤ q.tries → ∃ t, exec (.localAckTimeout n) s = .next t ∧ stops t)) ∧
    (∀ e, q.ok = true → q.rnrAt = some e →
      (s.now < e → ∃ t, exec (.rnrRetryTimer n) s = .next t ∧ t = s) ∧
      (e ≤ s.now → q.rnrTries < q.rnr → ∃ t p, exec (.rnrRetryTimer n) s = .next t ∧ t.qp? n = some p ∧ p.rnrTries = q.rnrTries + 1 ∧ p.rnrAt = none ∧ p.ops.map (·.psn) = q.ops.map (·.psn) ∧ t.tiles = s.tiles) ∧
      (e ≤ s.now → q.rnr ≤ q.rnrTries → ∃ t, exec (.rnrRetryTimer n) s = .next t ∧ stops t)) ∧
    (∃ t p, exec (.cnpRateTimer n) s = .next t ∧ t.qp? n = some p ∧ t.regs = s.regs ∧ t.tiles = s.tiles ∧
      ((∀ c, q.cnpRx = some c → c + 55000 ≤ s.now) → p.rate = min (q.rate + hostRate / 20) hostRate) ∧ (∀ c, q.cnpRx = some c → s.now < c + 55000 → p.rate = q.rate))

/-- Links, port modes, pauses and time events (LinkRows, FrameRows). -/
def Obligations.LinkRows : Prop := Sys2Proof.Rules.LinkRows ∧ Sys2Proof.Rules.FrameRows

/-- Command packets are taken; queue, ring and region commands (CommandsTaken, QueueCommands). -/
def Obligations.CommandRows : Prop := Sys2Proof.Rules.CommandsTaken ∧ Sys2Proof.Rules.QueueCommands

/-- The commands on partitions, images, pages, prefetch, the copy pool and host output that are not refused (R25–R28, R69, R148, R154, R155, R186, R221, R222, R236, R240, R342–R344): what each sets up, or begins. -/
def Obligations.PartitionCommands : Prop :=
  ∀ (s : State) (h : CmdHdr),
    let p := min 8 (s.cmdPart h)
    (∀ quota mask, s.starts (.partCreate h 0 quota mask) = true → maskHalls mask ≠ [] →
      ((s.begunBy (.partCreate h 0 quota mask)).createCheck p 0 (maskHalls mask) = some 0 →
        ∃ u, s.Succeeds (.partCreate h 0 quota mask) u [] ∧ (∀ g ∈ maskHalls mask, u.ownerOf g = some p ∧ ∀ n a, n / 64 = g → u.word n a = .clean 0) ∧
          (∀ n, n / 64 ∉ maskHalls mask → u.tile n = s.tile n) ∧ ∃ y ∈ u.parts, y.num = p ∧ y.halls = maskHalls mask ∧ y.quota = quota ∧ y.launched = false) ∧
      ((s.begunBy (.partCreate h 0 quota mask)).createCheck p 0 (maskHalls mask) = none →
        ∃ t x, exec (.partCreate h 0 quota mask) s = .next t ∧ t.foyer.creations = s.foyer.creations ++ [x] ∧ x.halls = maskHalls mask ∧ t.tiles = s.tiles ∧ t.parts = s.parts)) ∧
    (s.starts (.partRelease h) = true → ∃ t x, exec (.partRelease h) s = .next t ∧ t.foyer.releases = s.foyer.releases ++ [x] ∧ x.part = p ∧ x.kill = false ∧ x.halls = s.hallsOf p ∧
      (∀ y ∈ t.parts, y.num = p → y.ending = true) ∧ (∀ g ∈ s.hallsOf p, t.g F.PART_OWNER_CLEARING g = 1 ∧ t.ownerOf g = none) ∧ ∀ n, (t.tile n).mem = (s.tile n).mem) ∧
    (∀ cb, s.starts (.partKill h 0 cb) = true → ∃ t x, exec (.partKill h 0 cb) s = .next t ∧ t.foyer.releases = s.foyer.releases ++ [x] ∧ x.part = p ∧ x.kill = true ∧ x.captured = false ∧
      x.halls = s.hallsOf p ∧ ∀ g ∈ s.hallsOf p, t.g F.PART_OWNER_CLEARING g = 1 ∧ t.ownerOf g = none) ∧
    (s.starts (.partQuery h) = true → ∃ u, s.Succeeds (.partQuery h) u [((s.hallsOf p).length, 1), (((s.part? p).map Part.code).getD 0, 1), (s.g F.LAND_NUM_DONE p, 4), ((s.pagesHeld p).length, 4)] ∧
      u.regs = s.regs ∧ u.tiles = s.tiles ∧ u.parts = s.parts) ∧
    (∀ id o, s.starts (.shareOffer h id o) = true → id < 4096 → o < 8 → o ≠ p → s.live o = true →
      (s.shares.find? (fun x => x.id == id && x.parts.contains p) = none → ∃ u, s.Succeeds (.shareOffer h id o) u [(0, 1)] ∧ u.shares = s.shares ++ [⟨id, [p, o], [p]⟩]) ∧
      (∀ x, s.shares.find? (fun x => x.id == id && x.parts.contains p) = some x → x.parts.contains o = true → x.offers = [o] →
        ∃ u, s.Succeeds (.shareOffer h id o) u [(1, 1)] ∧ u.shares = s.shares.map (fun y => if y = x then { x with offers := [o, p] } else y))) ∧
    (∀ id, s.starts (.shareEnd h id) = true → (∃ x ∈ s.shares, x.id = id ∧ x.parts.contains p = true) →
      ∃ u, s.Succeeds (.shareEnd h id) u [] ∧ u.shares = s.shares.filter (fun x => !(x.id == id && x.parts.contains p)) ∧ u.regs = s.regs) ∧
    (∀ g cs, s.starts (.peergroupSet h g cs) = true → g < 4096 → cs.length ≤ 480 → (∀ k ∈ cs, s.peerFor p k = true) →
      ∃ u, s.Succeeds (.peergroupSet h g cs) u [] ∧ u.groups = s.groups.filter (fun x => !(x.part == p && x.id == g)) ++ [⟨p, g, cs⟩] ∧ u.regs = s.regs) ∧
    (∀ fl r n cs, s.starts (.landgroupSet h 1 fl r n cs) = true → s.launchedP p = false → r ≠ 0 → r < n → n ≤ 4096 → cs.length = 1 + (landKids r n).length → (∀ k ∈ cs, s.peerFor p k = true) →
      ∃ u, s.Succeeds (.landgroupSet h 1 fl r n cs) u [] ∧ u.landMode p = 1 ∧ u.g F.LAND_GROUP_RANK p = r ∧ u.g F.LAND_GROUP_SIZE p = n % 2 ^ F.LAND_GROUP_SIZE.width ∧
        (∀ y ∈ u.parts, y.num = p → y.groupCtx = cs) ∧ u.tiles = s.tiles) ∧
    (∀ src len g ls, s.starts (.imageLoad h src len (some g)) = true → s.launchedP p = false → len ≠ 0 → s.pagesOwned p src len false = true →
      let r := (s.begunBy (.imageLoad h src len (some g))).readLines (src / 64 * 64) ((src + len + 63) / 64 - src / 64)
      r.2 = some ls → ls.any (·.poison) = false → imageBad g = false → g.halls = (s.hallsOf p).length → (r.1.imageOpens p g).isSome = true → (s.tilesOf p).Nodup →
      ∃ u y, s.Succeeds (.imageLoad h src len (some g)) u [] ∧ u.part? p = some y ∧ y.image = some g ∧ y.loaded = true ∧
        ∀ i n, (s.tilesOf p)[i]? = some n → u.g F.SEQ_CODE_BASE n = (imageTile g i).codeBase ∧ u.g F.SEQ_CODE_LIMIT n = (imageTile g i).codeLimit ∧
          (((imageTile g i).words.map (·.1)).Nodup → ∀ w ∈ (imageTile g i).words, Sparse.get 0 (u.tile n).mem w.1 = storeVal w.2 false)) ∧
    (∀ x g o, s.starts (.launch h) = true → s.part? p = some x → x.launched = false → x.image = some g → imageTablesOk g x.halls = true → (s.begunBy (.launch h)).imageOpens p g = some o → (s.tilesOf p).Nodup →
      ∃ t y, exec (.launch h) s = .next t ∧ t.part? p = some y ∧ y.launched = true ∧ y.ended = false ∧
        ∀ i n, (s.tilesOf p)[i]? = some n → (t.ctx n 0).wait = .run ∧ (t.ctx n 0).pc = (imageTile g i).entry ∧ (t.tile n).flight = 0 ∧ (∀ k, t.sreg n 0 k = 0) ∧
          (t.ctx n 1).wait = if (imageTile g i).hen = 1 then .idle else .off) ∧
    (∀ page n rs fs, s.starts (.pageMap h page n rs) = true → rs ≤ 1 → 0 < n → page + n ≤ 2 ^ 19 → (∀ e, page ≤ e → e < page + n → Pm.valid (s.page e) = 0) →
      let quota := ((s.part? p).map (·.quota)).getD 0
      let held := (s.pagesHeld p).length + s.pagesComing p
      quota = 0 ∨ held + n ≤ quota → pickFrames s.usedFrames n firstFrame = some fs →
      ∃ t c r, exec (.pageMap h page n rs) s = .next t ∧ t.cuts = s.cuts ++ [⟨((pageList page n).zip fs).map (fun e => (e.1, Pm.mk p e.2 rs)), some c⟩] ∧ c.hdr = h ∧ c.result = [(r, 4)] ∧
        (quota ≠ 0 → r = quota - (held + n)) ∧ (∀ f ∈ fs, ∀ l, l < 131072 → t.frameLine f l = 0) ∧ t.pageMap = s.pageMap ∧ t.tiles = s.tiles) ∧
    (∀ page n x, s.starts (.pageFree h page n 0) = true → 0 < n → page + n ≤ 2 ^ 19 → s.part? p = some x → x.dormant = false →
      (∀ e, page ≤ e → e < page + n → s.ownsPage p e = true ∧ s.pageBusy p e = false) →
      ∃ t c, exec (.pageFree h page n 0) s = .next t ∧ t.cuts = s.cuts ++ [⟨(pageList page n).map (fun e => (e, 0)), some c⟩] ∧ c.hdr = h ∧ t.pageMap = s.pageMap ∧ t.frames = s.frames) ∧
    (∀ page n rs, s.starts (.pageAttr h page n rs) = true → rs ≤ 1 → 0 < n → page + n ≤ 2 ^ 19 → (∀ e, page ≤ e → e < page + n → s.ownsPage p e = true ∧ Pm.hold (s.page e) = 0) → s.repairs = [] → s.copies = [] →
      ∃ t c, exec (.pageAttr h page n rs) s = .next t ∧ t.cuts = s.cuts ++ [⟨(pageList page n).map (fun e => (e, Pm.setRs (s.page e) rs)), some c⟩] ∧ c.hdr = h ∧ t.pageMap = s.pageMap ∧ t.frames = s.frames) ∧
    (∀ nent period ahead sb ls, s.starts (.prefetchSet h nent period ahead sb) = true → nent ≤ 65536 → ahead ≤ 15 → sb % 64 = 0 → nent = 0 ∨ s.pagesOwned p sb (32 * nent) false = true →
      let r := (s.begunBy (.prefetchSet h nent period ahead sb)).readLines sb ((nent + 1) / 2)
      let es := ((ls.flatMap (fun v => [v.data.toNat % 2 ^ 256, v.data.toNat / 2 ^ 256])).take nent).map pfEntryOf
      r.2 = some ls → ls.any (·.poison) = false → pfBad es period (s.hallsOf p).length = false →
      ∃ u, s.Succeeds (.prefetchSet h nent period ahead sb) u [] ∧ (u.pf p).entries = es ∧ (u.pf p).active = [] ∧ u.g F.GMEM_PF_CFG_AHEAD 0 p = ahead ∧ u.tiles = s.tiles) ∧
    (∀ fr fs, s.starts (.copypoolSet h fr) = true →
      let used := (s.pageMap.filter (fun (x : Nat × BitVec 64) => Pm.copyv x.2 == 1)).length
      pickFrames s.usedFrames (fr - (s.pool.length + used)) firstFrame = some fs →
      ∃ u, s.Succeeds (.copypoolSet h fr) u [] ∧ u.poolSize = fr ∧ u.pool = (s.pool ++ fs).take (fr - min used fr) ∧ u.regs = s.regs) ∧
    (∀ hb ob ol b, s.starts (.outputSet h hb ob ol) = true → s.buf? h.queue p hb = some b → ob % 64 = 0 → ol % 64 = 0 → ol ≤ b.len → ol = 0 ∨ s.pagesOwned p ob ol true = true →
      ∃ u, s.Succeeds (.outputSet h hb ob ol) u [] ∧ Sparse.find? u.hostOut p = some ⟨hb, ob, ol, []⟩ ∧ u.regs = s.regs) ∧
    (∀ q o a rest v, q < 8 → Sparse.find? s.hostOut q = some o → o.queue = a :: rest → (s.holdRead q (2 ^ 50) a 64).2 = false → (s.readLine a).2 = some v →
      ∃ t, exec (.outputLineCopy q) s = .next t ∧ Sparse.find? t.hostOut q = some { o with queue := rest } ∧ t.tiles = s.tiles ∧ (v.poison = true → t.out = (s.readLine a).1.out))

/-- The commands on peer contexts, keys, the collective group and plan, shards, protected tensors, links and snapshots that are not refused (R245–R247, R267, R293, R295, R302, R303, R307, R309, R325, R332, R334): each completes, and what it names exists, holds the parameters given, or is gone. -/
def Obligations.PeerCommands : Prop :=
  ∀ (s : State) (h : CmdHdr),
    let p := min 8 (s.cmdPart h)
    let keeps := fun (u : State) => u.tiles = s.tiles ∧ u.frames = s.frames ∧ u.halls = s.halls ∧ u.parts = s.parts
    (∀ ctx rp rc pm e sp ra, s.starts (.peerAdd h ctx rp rc pm e sp ra) = true → ctx < 8192 → rc < 8192 → pm = 1024 ∨ pm = 2048 ∨ pm = 4096 → e ≤ 1 → s.peer? ctx = none →
      ∃ u c, s.Succeeds (.peerAdd h ctx rp rc pm e sp ra) u [] ∧ keeps u ∧ u.regs = s.regs ∧ u.peer? ctx = some c ∧ c.up = true ∧ c.lpart = p ∧ c.raddr = ra ∧ c.rport = rp ∧ c.rctx = rc ∧ c.pmax = pm ∧
        c.enc = (e == 1) ∧ c.txSeq = [] ∧ c.rxNext = [] ∧ c.unacked = [] ∧ c.keyid = 0) ∧
    (∀ ctx, s.starts (.peerRemove h ctx) = true → s.hasPeer p ctx = true → ∃ u, s.Succeeds (.peerRemove h ctx) u [] ∧ u.peer? ctx = none ∧ u.tiles = s.tiles ∧ u.frames = s.frames) ∧
    (∀ ctx k d salt key c, k ≤ 1 → d ≤ 1 → s.hasPeer p ctx = true → s.peer? ctx = some c →
      (s.starts (.peerKeyWrite h ctx k d salt key) = true → ∃ u x, s.Succeeds (.peerKeyWrite h ctx k d salt key) u [] ∧ keeps u ∧ u.peer? ctx = some x ∧ x.keyid = c.keyid ∧
        (if d = 0 then x.txKey k = some (key, salt) ∧ x.rxKey k = c.rxKey k else x.rxKey k = some (key, salt) ∧ x.txKey k = c.txKey k) ∧
        ∀ j, j ≠ k → x.txKey j = c.txKey j ∧ x.rxKey j = c.rxKey j) ∧
      (s.starts (.peerKeySend h ctx k d salt key) = true → (c.txKey k).isSome = true →
        ∃ u x, s.Succeeds (.peerKeySend h ctx k d salt key) u [] ∧ keeps u ∧ u.peer? ctx = some x ∧ x.keyid = k ∧ x.keys = c.keys) ∧
      (s.starts (.peerKeyRetire h ctx k d salt key) = true → ∃ u x, s.Succeeds (.peerKeyRetire h ctx k d salt key) u [] ∧ keeps u ∧ u.peer? ctx = some x ∧
        if d = 0 then x.txKey k = none ∧ x.rxKey k = c.rxKey k else x.rxKey k = none ∧ x.txKey k = c.txKey k)) ∧
    (∀ r n m pv nx cs, s.starts (.collGroup h r n m pv nx cs) = true → 0 < n → n ≤ 4096 → 0 < m → m ≤ 16 → n % m = 0 → r < n → (∀ c ∈ groupNeeds r n m pv nx cs, s.hasPeer p c = true) →
      ∃ u, s.Succeeds (.collGroup h r n m pv nx cs) u [] ∧ keeps u ∧ u.g F.COLL_GROUP_RANK p = r ∧ u.g F.COLL_GROUP_SIZE p = n ∧ u.g F.COLL_GROUP_NODE p = m ∧
        (∀ i, i < 16 → u.g F.COLL_NPEER_VALID p i = if i < m ∧ i ≠ r % m then 1 else 0) ∧ u.g F.COLL_RING_NVALID p = if m < n then 1 else 0) ∧
    (∀ nb bt cb cl rb rh ls, s.starts (.planSet h nb bt cb cl rb rh) = true → 0 < nb → nb ≤ 65536 → bt % 64 = 0 → cb % 64 = 0 → rb % 64 = 0 → rh % 64 = 0 → cb ≤ cl → (s.collOf p).runs = [] →
      s.pagesOwned p bt (64 * nb) true = true → (cb < cl → s.pagesOwned p cb (cl - cb) true = true) → (rh ≠ 0 → s.pagesOwned p rb (2 * rh) true = true) →
      let r := (s.begunBy (.planSet h nb bt cb cl rb rh)).readLines bt nb
      r.2 = some ls → ls.any (·.poison) = false → r.1.planBad p cb cl rh (ls.map (fun v => v.data.toNat)) = false →
      ∃ u, s.Succeeds (.planSet h nb bt cb cl rb rh) u [] ∧ u.g F.COLL_PLAN_VALID p = 1 ∧ u.g F.COLL_PLAN_NBUCK p = nb ∧ u.watermark p = 0 ∧ (u.collOf p).plan = ls.map (fun v => v.data.toNat) ∧
        (u.collOf p).bytes = [] ∧ u.tiles = s.tiles) ∧
    (∀ k g fm ep st el s0 s1, s.starts (.shardReg h k g fm ep st el s0 s1) = true → k < 4096 → g < 256 → planFmt fm = true → 0 < el → s0 % 64 = 0 → s1 % 64 = 0 →
      (∀ x ∈ (s.collOf p).shards, x.1 ≠ k → x.2.group = g → x.2.elems = el) → s.shardBusy p k = false → s.pagesOwned p s0 (el * fmtBytes fm) true = true → s.pagesOwned p s1 (el * fmtBytes fm) true = true →
      ∃ u, s.Succeeds (.shardReg h k g fm ep st el s0 s1) u [] ∧ keeps u ∧ u.regs = s.regs ∧
        Sparse.find? (u.collOf p).shards k = some ⟨s0, s1, el, fm, g, 0, (ep % 2 ^ 16, st % 2 ^ 32), (0, 0), true, false⟩) ∧
    (∀ k, s.starts (.shardDereg h k) = true → Sparse.has (s.collOf p).shards k = true → s.shardBusy p k = false →
      ∃ u, s.Succeeds (.shardDereg h k) u [] ∧ keeps u ∧ u.regs = s.regs ∧ Sparse.find? (u.collOf p).shards k = none) ∧
    (∀ es, s.starts (.tensorReg h es) = true → es.length < 65536 → (s.protOf p).tensors.length + es.length ≤ 1024 →
      (∀ t ∈ es.map tensorOf, 0 < t.npages ∧ t.npages ≤ 465969 ∧ t.rate ≤ 1000000 ∧ t.page + t.npages ≤ 2 ^ 19 ∧ t.force ≠ 3 ∧ ∀ e ∈ t.pages, s.pageFit p e = true) →
      rangesMeet (((s.protOf p).tensors ++ es.map tensorOf).map Tensor.span) = false →
      ∃ u, s.Succeeds (.tensorReg h es) u [((s.protOf p).tensors.length, 2)] ∧ keeps u ∧ u.regs = s.regs ∧ (u.protOf p).tensors = (s.protOf p).tensors ++ es.map tensorOf) ∧
    (∀ i f r t, s.starts (.tensorSet h i f r) = true → f ≤ 2 → r ≤ 1000000 → s.tensor? p i = some t →
      ∃ u, s.Succeeds (.tensorSet h i f r) u [] ∧ keeps u ∧ u.regs = s.regs ∧ u.tensor? p i = some { t with force := f, rate := r } ∧ ∀ j, j ≠ i → u.tensor? p j = s.tensor? p j) ∧
    (∀ ctx, s.starts (.linkOut h ctx) = true → s.hasPeer p ctx = true → ctx < 8192 → (∀ d ∈ (s.collOf p).plan, Bk.leg d ≠ 1) → rangesMeet (shadowSpans (s.protOf p).tensors) = false →
      (∀ y ∈ shadowSpans (s.protOf p).tensors, y.2 ≤ 2 ^ 19) →
      ∃ u, s.Succeeds (.linkOut h ctx) u [] ∧ u.g F.SP_LINK_VALID p = 1 ∧ u.g F.SP_LINK_CTX p = ctx ∧ u.g F.SP_LINK_UP p = (if s.peerUp ctx then 1 else 0) ∧ u.g F.COLL_BUDDY_CTX p = ctx ∧
        u.g F.COLL_BUDDY_VALID p = 1 ∧ u.tiles = s.tiles) ∧
    (∀ k ls nt sp sn na lb dn, s.starts (.linkIn h k ls nt sp sn na lb dn) = true → k ≤ 1 → 2 ≤ ls → ls ≤ 16 → nt < s.tileCount p → na < padWords → lb % 64 = 0 → dn % 64 = 0 → 0 < sn → sp + sn ≤ 2 ^ 19 →
      s.pagesOwned p lb (ls * (s.g F.COLL_RHALF_RHALF p + 256)) true = true → s.pagesOwned p dn 192 true = true → s.pagesOwned p (sp * 2 ^ 23) (sn * 2 ^ 23) true = true → s.inLink? p (1 - k) = none →
      ∃ u x, s.Succeeds (.linkIn h k ls nt sp sn na lb dn) u [] ∧ keeps u ∧ u.g F.SP_IN_CFG_VALID p k = 1 ∧ u.g F.SP_IN_CFG_LSTEPS p k = ls ∧ u.g F.SP_IN_STATE_STEP p k = 0 ∧
        u.g F.SP_IN_STATE_REPLAYING p k = 0 ∧ u.inLink? p k = some x ∧ x.shpage = sp ∧ x.shn = sn ∧ x.built = false ∧ x.bound = false) ∧
    (s.starts (.linkRemove h 2) = true → s.g F.SP_LINK_VALID p = 1 → ∃ u, s.Succeeds (.linkRemove h 2) u [] ∧ u.g F.SP_LINK_VALID p = 0 ∧ u.linkIsUp p = false ∧ u.g F.COLL_BUDDY_VALID p = 0 ∧ u.tiles = s.tiles) ∧
    (∀ k, s.starts (.linkRemove h k) = true → k ≤ 1 → s.g F.SP_IN_CFG_VALID p k = 1 → ∃ u, s.Succeeds (.linkRemove h k) u [] ∧ keeps u ∧ u.g F.SP_IN_CFG_VALID p k = 0 ∧ u.inLink? p k = none) ∧
    (∀ a b, s.starts (.snapbufSet h a b) = true → (s.buf? h.queue p a).isSome = true → (s.buf? h.queue p b).isSome = true →
      ∃ u, s.Succeeds (.snapbufSet h a b) u [] ∧ keeps u ∧ u.regs = s.regs ∧ (u.protOf p).bufs = some (a, b)) ∧
    (s.starts (.snapshotNow h) = true → ∃ u, s.Succeeds (.snapshotNow h) u [] ∧ keeps u ∧ u.g F.SP_DUE_TIME p = s.now % 2 ^ F.SP_DUE_TIME.width ∧ u.prot = s.prot) ∧
    (∀ fi n ctx, s.starts (.restoreShadow h fi n ctx) = true → fi + n ≤ (s.protOf p).tensors.length → (s.part? p).any (·.adopted) = false → s.hasPeer p ctx = true → s.protBusy p = false →
      ∃ t r, exec (.restoreShadow h fi n ctx) s = .next t ∧ (t.protOf p).restore = some r ∧ r.source = 0 ∧ r.tensors = (List.range n).map (fi + ·) ∧ r.cmd.hdr = h ∧ t.regs = s.regs ∧ t.frames = s.frames) ∧
    (∀ b bs x, s.starts (.restoreSnap h b) = true → b ≤ 1 → (s.protOf p).bufs = some bs → Sparse.find? s.foyer.hostbufs (if b = 0 then bs.1 else bs.2) = some x → s.protBusy p = false →
      (∃ ids ∈ s.snapChoices p, s.choiceSize p ids ≤ x.len) → s.bufOk (if b = 0 then bs.1 else bs.2) = true →
      ∃ t r, exec (.restoreSnap h b) s = .next t ∧ (t.protOf p).restore = some r ∧ r.source = 1 ∧ r.bytes = [] ∧ r.size ≤ x.len ∧ (∃ ids ∈ s.snapChoices p, r.size = s.choiceSize p ids) ∧ r.cmd.hdr = h ∧ t.frames = s.frames ∧ t.tiles = s.tiles)

/-- DEV_QUERY, TELEM_READ, EVLOG_READ, SENSOR_READ, MCTP_PASS and FW_UPDATE into a host buffer that holds the answer (R318, R323, R344, R353, R356, R360): the answer is written to it, and the command waits for its acknowledgement; an update asks for its image. -/
def Obligations.HostReads : Prop :=
  ∀ (s : State) (h : CmdHdr) (hb off : Nat) (x : HostBuf),
    let p := min 8 (s.cmdPart h)
    let writes := fun (i : Instr) (b : List Nat) (r : List (Nat × Nat)) =>
      off + b.length ≤ x.len → ∃ f, cmdForm i = some f ∧ exec i s = .next ((s.begunBy i).hostOp hb b.length (.hostWrite hb off b) (.cmd (s.cmdOf f r)))
    s.bufOk hb = true →
    (s.buf? h.queue 8 hb = some x →
      (s.starts (.devQuery h hb off) = true → writes (.devQuery h hb off) (s.regBytes [0x00, 0x08, 0x10, 0x18, 0x20, 0x28, 0x808000]) []) ∧
      (∀ from_ n, s.starts (.evlogRead h from_ n hb off) = true → 0 < n → n ≤ 65536 →
        writes (.evlogRead h from_ n hb off) ((List.range n).flatMap (fun i => match s.mss.log.find? (fun r => r.seq == (from_ + i) % 2 ^ 32) with | some r => r.bytes | none => List.replicate 64 0)) []) ∧
      (s.starts (.sensorRead h hb off) = true → writes (.sensorRead h hb off) (leBytes 2 numSensors ++ leBytes 6 0 ++ leBytes 8 s.now ++ (List.range numSensors).flatMap s.sensorBytes) []) ∧
      (∀ len, s.starts (.fwUpdate h hb len) = true → 0 < len → len ≤ 2 ^ 26 → len ≤ x.len → s.mss.update = none → s.mss.pldm = 0 →
        ∃ t u, exec (.fwUpdate h hb len) s = .next t ∧ t.mss.update = some u ∧ u.total = len ∧ u.slot = s.mss.freeSlot ∧ t.g F.MB_UPDATE_STATE 0 = 1 ∧ t.tiles = s.tiles ∧ t.frames = s.frames)) ∧
    (s.buf? h.queue p hb = some x →
      (∀ id c, s.starts (.telemRead h 0 id hb off) = true → s.peer? id = some c → c.lpart = p → writes (.telemRead h 0 id hb off) (telemBytes (s.telemPeer c)) []) ∧
      (∀ id q, s.starts (.telemRead h 1 id hb off) = true → s.qp? id = some q → q.part = p → writes (.telemRead h 1 id hb off) (telemBytes q.telem) []) ∧
      (∀ id, s.starts (.telemRead h 2 id hb off) = true → writes (.telemRead h 2 id hb off) (telemBytes (s.telemPart p)) [])) ∧
    (∀ msg u b, s.starts (.mctpPass h hb off msg) = true → (s.begunBy (.mctpPass h hb off msg)).inBand msg = some (u, b) →
      (b = [] → s.Succeeds (.mctpPass h hb off msg) u [(0, 2)]) ∧
      (u.buf? h.queue 8 hb = some x → b ≠ [] → off + b.length ≤ x.len → u.bufOk hb = true →
        ∃ f, cmdForm (.mctpPass h hb off msg) = some f ∧ exec (.mctpPass h hb off msg) s = .next (u.hostOp hb b.length (.hostWrite hb off b) (.cmd (s.cmdOf f [(b.length, 2)])))))

/-- MCTP control and PLDM monitoring commands (ControlRows, MonitoringRows). -/
def Obligations.ManagementRows : Prop := Sys2Proof.Rules.ControlRows ∧ Sys2Proof.Rules.MonitoringRows

/-- The PLDM firmware update commands, with no activation waiting (R354, R360, Table 14.10; the states of an update and the bytes of a response are the model's: log 139, log 143): an agent is taken when no update runs; its component table and component start an update of the slot that did not boot; its image is taken part by part; an activation waits until no partition exists; an update that is cancelled fails. -/
def Obligations.UpdateRows : Prop :=
  ∀ (s : State), s.mssOn = true → s.mss.activate = false →
    let told := fun (t : State) (m : Output) => t.out = m :: s.out ∧ { t with mss := s.mss, out := s.out } = s
    (∃ b, exec .queryDeviceIdentifiers s = .next (s.emit (.mctp 1 0x501 0 b)) ∧ b.drop 9 = beBytes 16 Config.uuid) ∧
    (∃ b, exec .getFirmwareParameters s = .next (s.emit (.mctp 1 0x502 0 b))) ∧
    (∃ b, exec .getStatus s = .next (s.emit (.mctp 1 0x51B 0 (s.mss.pldm :: b)))) ∧
    (∀ x n o, 32 ≤ x → x < 2 ^ 32 → (s.mss.update = none → s.mss.pldm = 0 →
        ∃ t, exec (.requestUpdate x n o) s = .next t ∧ t.mss = { s.mss with pldm := 1, maxXfer := x } ∧ told t (.mctp 1 0x510 0 [0, 0, 0])) ∧
      (s.mss.update.isSome = true ∨ s.mss.pldm ≠ 0 → exec (.requestUpdate x n o) s = .next (s.emit (.mctp 1 0x510 0x81 [])))) ∧
    (∀ fl cls comp, s.mss.pldm = 1 → fl < 256 → comp < 65536 → ∃ t, exec (.passComponentTable fl cls comp) s = .next t ∧
      t.mss = { s.mss with pldm := if fl / 4 % 2 = 1 then 2 else 1 } ∧ told t (.mctp 1 0x513 0 (if comp = 1 then [0, 0] else [1, 6]))) ∧
    (∀ cls idx stamp n, s.mss.pldm = 2 → 0 < n → n ≤ 2 ^ 26 → ∃ t u b, exec (.updateComponent cls 1 idx stamp n) s = .next t ∧ t.mss.pldm = 3 ∧ t.mss.update = some u ∧ u.slot = s.mss.freeSlot ∧
      u.total = n ∧ u.bytes = [] ∧ u.cmd = none ∧ t.g F.MB_UPDATE_STATE 0 = 1 ∧ t.g F.MB_UPDATE_KIB 0 = 0 ∧ t.tiles = s.tiles ∧ t.frames = s.frames ∧
      t.out = .mctp 1 0x514 0 b :: .mctp 1 0x515 0 (leBytes 4 0 ++ leBytes 4 (min (min 4096 s.mss.maxXfer) n)) :: s.out) ∧
    (∀ u data, s.mss.pldm = 3 → s.mss.update = some u → data.length = min (min 4096 s.mss.maxXfer) (u.total - u.bytes.length) →
      (u.bytes.length + data.length < u.total → ∃ t, exec (.requestFirmwareData 0 data) s = .next t ∧ t.mss = { s.mss with update := some { u with bytes := u.bytes ++ data } } ∧
        told t (.mctp 1 0x515 0 (leBytes 4 (u.bytes.length + data.length) ++ leBytes 4 (min (min 4096 s.mss.maxXfer) (u.total - (u.bytes.length + data.length)))))) ∧
      (u.total ≤ u.bytes.length + data.length → ∃ t, exec (.requestFirmwareData 0 data) s = .next t ∧ t.mss = { s.mss with update := some { u with bytes := u.bytes ++ data, phase := 1 }, pldm := 4 } ∧
        told t (.mctp 1 0x516 0 [0]))) ∧
    (∀ self, s.mss.pldm = 2 → s.mss.rec_.pending.isSome = true →
      (s.anyLive = true → ∃ t b, exec (.activateFirmware self) s = .next t ∧ t.mss = { s.mss with activate := true, pldm := 6 } ∧ told t (.mctp 1 0x51A 0 b)) ∧
      (s.anyLive = false → ∃ t b, exec (.activateFirmware self) s = .next t ∧ t.power.phase = .reset ∧ t.power.cause = 4 ∧ t.now = s.now ∧ .mctp 1 0x51A 0 b ∈ t.out)) ∧
    (s.mss.pldm ≠ 2 → s.mss.pldm ≠ 0 → ∀ self, exec (.activateFirmware self) s = .next (s.emit (.mctp 1 0x51A 0x84 []))) ∧
    (∀ u, s.mss.update = some u → u.cmd = none → 3 ≤ s.mss.pldm → s.mss.pldm ≤ 5 →
      (∃ t, exec .cancelUpdateComponent s = .next t ∧ t.mss.update = none ∧ t.mss.pldm = 2 ∧ t.g F.MB_UPDATE_STATE 0 = 4 ∧ t.g F.MB_ALERT_UPDATE_FAIL 0 = 1 ∧ t.tiles = s.tiles ∧ t.frames = s.frames) ∧
      (∃ t, exec .cancelUpdate s = .next t ∧ t.mss.update = none ∧ t.mss.pldm = 0 ∧ t.g F.MB_UPDATE_STATE 0 = 4 ∧ t.g F.MB_ALERT_UPDATE_FAIL 0 = 1 ∧ t.tiles = s.tiles ∧ t.frames = s.frames)) ∧
    (s.mss.pldm = 0 → exec .cancelUpdate s = .next (s.emit (.mctp 1 0x51D 0x80 [])) ∧ exec .cancelUpdateComponent s = .next (s.emit (.mctp 1 0x51C 0x80 [])))

/-- The SPDM requests, in the runtime (R362, Table 14.9; the bytes of a response and the order of requests: log 141): version, capabilities and algorithms are agreed in this order, and a request out of order is an error; digests, certificate, challenge and measurements follow, the last two signed over what the connection has exchanged. -/
def Obligations.MeasurementRows : Prop :=
  ∀ (s : State), s.power.phase = .running →
    let c := s.mss.spdm
    let sent := fun (t : State) (b : List Nat) => t.out = .mctp 5 (parAt b 1 1) 0 b :: s.out ∧ t.regs = s.regs ∧ t.tiles = s.tiles ∧ t.frames = s.frames ∧ t.mss.spdmBand = s.mss.spdmBand
    (∃ t, exec .getVersion s = .next t ∧ t.mss.spdm.stage = 1 ∧ sent t [0x10, 0x04, 0, 0, 0, 1, 0x00, 0x12]) ∧
    (∀ fl x m, 42 ≤ x → x ≤ m → m < 2 ^ 32 →
      (c.stage = 1 → ∃ t b, exec (.getCapabilities fl x m) s = .next t ∧ t.mss.spdm.stage = 2 ∧ b.take 2 = [0x12, 0x61] ∧ parAt b 8 4 = 0x16 ∧ sent t b) ∧
      (c.stage ≠ 1 → exec (.getCapabilities fl x m) s = .next (s.emit (.mctp 5 0x7F 0 [0x12, 0x7F, 4, 0])))) ∧
    (∀ sp a ha, c.stage = 2 → a / 32 % 2 = 1 → ha / 4 % 2 = 1 → a < 2 ^ 32 → ha < 2 ^ 32 → sp < 256 →
      ∃ t b, exec (.negotiateAlgorithms sp a ha) s = .next t ∧ t.mss.spdm.stage = 3 ∧ b.take 2 = [0x12, 0x63] ∧ parAt b 12 4 = 32 ∧ parAt b 16 4 = 4 ∧ sent t b) ∧
    (c.stage < 3 → exec .getDigests s = .next (s.emit (.mctp 5 0x7F 0 [0x12, 0x7F, 4, 0]))) ∧
    (3 ≤ c.stage →
      (∃ t, exec .getDigests s = .next t ∧ t.mss.spdm.stage = c.stage ∧ sent t ([0x12, 0x01, 0, 1] ++ leBytes 64 (Config.sha512 Config.certChain))) ∧
      (∀ slot off len, slot % 16 = 0 → off < Config.certChain.length → off < 65536 → len < 65536 →
        ∃ t b, exec (.getCertificate slot off len) s = .next t ∧ sent t b ∧ b.take 2 = [0x12, 0x02] ∧ b.drop 8 = (Config.certChain.drop off).take (min len 4088)) ∧
      (∀ slot m nonce, slot % 16 = 0 → m ∈ [0, 1, 0xFF] →
        ∃ t b, exec (.challenge slot m nonce) s = .next t ∧ sent t (b ++ signBytes (c.agreed ++ c.chal ++ ([0x12, 0x83, slot % 256, m] ++ leBytes 32 nonce) ++ b)) ∧
          b.take 2 = [0x12, 0x03] ∧ t.mss.spdm.chal = []) ∧
      (∀ op nonce slot, op = 0 ∨ op = 0xFF ∨ op ≤ 9 → slot % 16 = 0 →
        ∃ t b, exec (.getMeasurements true op nonce slot) s = .next t ∧ sent t (b ++ signBytes (c.agreed ++ c.meas ++ ([0x12, 0xE0, 1, op] ++ leBytes 32 nonce ++ [slot % 256]) ++ b)) ∧ t.mss.spdm.meas = [] ∧
          b.take 2 = [0x12, 0x60] ∧ (0 < op → op ≤ 9 → parAt b 4 1 = 1 ∧ parAt b 8 1 = op ∧ (b.drop 15).take 64 = leBytes 64 (s.mss.measures[op - 1]?.getD 0)) ∧ (op = 0xFF → parAt b 4 1 = 9)) ∧
      (∀ op nonce slot, op ≤ 9 → ∃ t b, exec (.getMeasurements false op nonce slot) s = .next t ∧ sent t b ∧ b.take 2 = [0x12, 0x60] ∧ (op = 0 → parAt b 2 1 = 9)))

/-- HOLDUP_MEASURE, FLASH_SEQUENCE_END and LOG_RETRY (R349–R352, R356, R360, Table 14.2): a measurement is shown, and the next sequence of its kind starts if the energy is there, or is refused and counted if it is not; a sequence that ends has written what it was for, a mirrored one twice; every 10 s what waits is wanted again. No sequence starts while one runs. -/
def Obligations.FlashRows : Prop :=
  ∀ (s : State), s.mssOn = true →
    (∀ reached v1 v2 op,
      let e := holdupMj reached v1 v2
      (s.mss.seq.isSome = true → exec (.holdupMeasure reached v1 v2 op) s = .next s) ∧
      (s.mss.seq = none → ∃ t, exec (.holdupMeasure reached v1 v2 op) s = .next t ∧ t.g F.MB_HOLDUP_VALID 0 = 1 ∧ t.g F.MB_HOLDUP_FAILED 0 = (if e.isNone then 1 else 0) ∧
        t.g F.MB_HOLDUP_EMJ 0 = min 1048575 (e.getD 0) ∧ t.g F.MB_SENSOR_VALUE 0 193 = e.getD 0 % 2 ^ 32 ∧ t.tiles = s.tiles ∧ t.frames = s.frames ∧
        (∀ f, s.mss.wanted.find? (fun x => x.kind == op) = some f →
          (e.isSome = true → needMj op ≤ e.getD 0 → t.mss.seq = some f ∧ t.mss.copy = (if s.mss.second = some f then 1 else 0) ∧ t.g F.MB_HOLDUP_REF_COUNT 0 = s.g F.MB_HOLDUP_REF_COUNT 0) ∧
          (e.getD 0 < needMj op ∨ e = none → t.mss.seq = none ∧ t.g F.MB_ALERT_HOLDUP 0 = 1 ∧
            t.g F.MB_HOLDUP_REF_COUNT 0 = min (s.g F.MB_HOLDUP_REF_COUNT 0 + 1) (2 ^ F.MB_HOLDUP_REF_COUNT.width - 1))) ∧
        (s.mss.wanted.find? (fun x => x.kind == op) = none → t.mss.seq = none))) ∧
    (s.mss.seq = none → exec .flashSequenceEnd s = .next s) ∧
    (∀ op, s.mss.seq = some op → ∃ t, exec .flashSequenceEnd s = .next t ∧ t.mss.seq = none ∧ t.tiles = s.tiles ∧ t.frames = s.frames ∧
      (op.mirrored = true → s.mss.copy = 0 → t.mss.second = some op) ∧
      (∀ recs, op = .logProgram recs → s.mss.copy = 0 → t.mss.log = s.mss.log ++ recs ∧ t.mss.logBuf = s.mss.logBuf) ∧
      (∀ recs, op = .logProgram recs → s.mss.copy = 1 → t.mss.log = s.mss.log ∧ ∀ r, r ∈ t.mss.logBuf ↔ r ∈ s.mss.logBuf ∧ ∀ x ∈ recs, x.seq ≠ r.seq) ∧
      (∀ p, op = .persist p → s.mss.copy = 0 → t.mss.store = p) ∧
      (∀ p, op = .persist p → s.mss.copy = 1 → t.mss.store = s.mss.store ∧ t.g F.MB_STATUS_PERSIST_PENDING 0 = 0) ∧
      (∀ r, op = .record r → s.mss.copy = 0 → t.mss.rec_ = r) ∧
      (op = .fuse → s.mss.copy = 0 → t.mss.svn = s.mss.svn + 1 ∧ ∃ x ∈ t.mss.logBuf, x.code = 8 ∧ x.data = [(s.mss.svn, 1), (s.mss.svn + 1, 1)]) ∧
      (∀ k u, op = .slotErase k → s.mss.copy = 0 → s.mss.update = some u → u.slot < 2 → (t.mss.slot u.slot).bytes = (s.mss.slot u.slot).bytes.take (65536 * k) ∧ t.mss.slot (1 - u.slot) = s.mss.slot (1 - u.slot) ∧
        t.mss.update = some { u with erased := true }) ∧
      (∀ k u, op = .slotProgram k → s.mss.copy = 0 → s.mss.update = some u → u.slot < 2 → k + 1 < u.sectors → t.mss.update = some { u with sector := k + 1, erased := false } ∧
        (t.mss.slot u.slot).bytes = (s.mss.slot u.slot).bytes.take (65536 * k) ++ (u.bytes.drop (65536 * k)).take 65536 ∧ t.mss.slot (1 - u.slot) = s.mss.slot (1 - u.slot) ∧
        t.g F.MB_UPDATE_KIB 0 = 64 * (k + 1) % 2 ^ F.MB_UPDATE_KIB.width)) ∧
    exec .logRetry s = .next { s with mss := { s.mss with logWait := false, wantWait := false } }

/-- END_OF_RESET, BOOT, BOOT_WATCHDOG and WARM_RESET (R308, R357–R360, R371–R376, R379, Table 14.8): a reset ends with its cause shown, and after a cold one the time base at 0 and the address sampled; the ROM boots the slot that is valid, a pending one at the cost of a try, and comes to recovery where none is; a pending slot that is not ready within 30 s costs a try and resets the module; a warm reset keeps frames and the time base. (What a boot does to a unit beside this: log 147, log 153.) -/
def Obligations.BootRows : Prop :=
  ∀ (s : State),
    let warm := s.power.cause = 3 ∨ s.power.cause = 4
    (∀ addr, s.power.phase = .rising ∨ s.power.phase = .reset → s.power.refclk = true → ∃ t, exec (.endOfReset addr) s = .next t ∧ t.power.phase = .booting ∧ t.power.resetN = true ∧
      t.g F.PWR_RESET_CAUSE 0 = s.power.cause % 2 ^ F.PWR_RESET_CAUSE.width ∧ t.g F.PWR_STATUS_RESET_N 0 = 1 ∧ t.foyer.stopped = false ∧ t.tiles = s.tiles ∧ t.frames = s.frames ∧
      (warm → t.now = s.now ∧ t.g F.PWR_STATUS_ADDR 0 = s.g F.PWR_STATUS_ADDR 0) ∧ (¬ warm → t.now = 0 ∧ t.g F.PWR_STATUS_ADDR 0 = addr % 8)) ∧
    (∀ addr, (s.power.phase ≠ .rising ∧ s.power.phase ≠ .reset) ∨ s.power.refclk = false → exec (.endOfReset addr) s = .next s) ∧
    (∀ reached v1 v2 fails, (∀ h ∈ fails, h < 72) → s.power.phase = .booting →
      let e := (holdupMj reached v1 v2).getD 0
      (∀ k, k < 2 → s.mss.slotOk k = true → ((s.mss.rec_.pending = none ∧ s.mss.rec_.active = k) ∨ (s.mss.rec_.pending = some k ∧ s.mss.rec_.tries ≠ 0 ∧ 6000 ≤ e)) →
        ∃ t, exec (.boot reached v1 v2 fails) s = .next t ∧ t.power.phase = .running ∧ t.mss.booted = k ∧ t.g F.MB_STATUS_STATE 0 = 1 ∧ t.g F.DEV_STATUS_READY 0 = 1 ∧ t.g F.DEV_STATUS_WARM 0 = (if warm then 1 else 0) ∧
          (∀ m, m < 32 → t.g F.MEMC_STATUS_TRAINED m = 1 ∧ t.g F.MEMC_STATUS_SELFREF m = 0) ∧ (¬ warm → ∀ h ∈ fails, t.isFaulty h = true) ∧
          t.mss.boots = (if warm then s.mss.boots else s.mss.boots + 1) ∧ t.mss.measures = { s.mss with boots := t.mss.boots }.blocks k ∧ t.tiles = s.tiles ∧ t.frames = s.frames ∧
          t.mss.rec_ = (if s.mss.rec_.pending = none then s.mss.rec_ else { s.mss.rec_ with tries := s.mss.rec_.tries - 1 }) ∧
          (s.mss.store.ports = [] → t.g F.MB_PCAP_CAP 0 = s.mss.store.cap % 2 ^ F.MB_PCAP_CAP.width ∧ t.g F.CLK_PPS_EN 0 = s.mss.store.ppsEn % 2) ∧
          (s.mss.rec_.pending = some k → t.mss.wantRec = some { s.mss.rec_ with active := k, pending := none, tries := 0 })) ∧
      (∀ k p, k < 2 → s.mss.slotOk k = true → s.mss.rec_.active = k → s.mss.rec_.pending = some p → (s.mss.rec_.tries = 0 ∨ e < 6000) →
        ∃ t, exec (.boot reached v1 v2 fails) s = .next t ∧ t.power.phase = .running ∧ t.mss.booted = k ∧ t.mss.rec_ = s.mss.rec_ ∧
          (s.mss.rec_.tries = 0 → t.g F.MB_ALERT_BOOTFAIL 0 = 1) ∧ (s.mss.rec_.tries ≠ 0 → t.g F.MB_ALERT_HOLDUP 0 = 1)) ∧
      (s.mss.slotOk 0 = false → s.mss.slotOk 1 = false → s.mss.rec_.active < 2 → (∀ p, s.mss.rec_.pending = some p → p < 2) →
        ∃ t, exec (.boot reached v1 v2 fails) s = .next t ∧ t.power.phase = .recovery ∧ t.g F.MB_STATUS_STATE 0 = 2 ∧ t.g F.DEV_STATUS_READY 0 = s.g F.DEV_STATUS_READY 0 ∧ t.tiles = s.tiles)) ∧
    (s.power.phase = .booting → s.mss.rec_.pending.isSome = true → s.mss.rec_.tries ≠ 0 →
      (s.now < s.power.since + 30000000000 → exec .bootWatchdog s = .next s) ∧
      (s.power.since + 30000000000 ≤ s.now → s.mss.seq = none → ∃ t, exec .bootWatchdog s = .next t ∧ t.power.phase = .reset ∧ t.power.cause = 2 ∧
        t.mss.rec_ = { s.mss.rec_ with tries := s.mss.rec_.tries - 1 } ∧ t.mss.log = s.mss.log)) ∧
    (∀ h : CmdHdr, h.queue < 64 → s.mayStart h 0x0008 [] = true →
      (s.cmdBad h 0 0 = 0 → ∃ t, exec (.warmReset h) s = .next t ∧ t.power.phase = .reset ∧ t.power.cause = 3 ∧ t.now = s.now ∧ t.retired = s.retired ∧ t.tiles = [] ∧ t.net.isEmpty = true ∧
        (s.halls = [] → t.frames = s.frames) ∧ (∀ x ∈ t.parts, x.dormant = true) ∧ (∀ m, m < 32 → t.g F.MEMC_STATUS_SELFREF m = 1)) ∧
      (s.cmdBad h 0 0 ≠ 0 → ∃ t, exec (.warmReset h) s = .next t ∧ t.power = s.power ∧ t.tiles = s.tiles ∧ t.frames = s.frames))

/-- Sensors, the power cap, the throttle input and trips (SensorRows, TripRows). -/
def Obligations.SensorRows : Prop := Sys2Proof.Rules.SensorRows ∧ Sys2Proof.Rules.TripRows

/-- Power, resets, the sideband addresses and the test port (PowerRows, PinRows). -/
def Obligations.PowerRows : Prop := Sys2Proof.Rules.PowerRows ∧ Sys2Proof.Rules.PinRows

/-- READ_CLEAR, REGISTER_WRITE, REG_READ and REG_WRITE (R10–R12, R29–R31, R355; for a partial effect of an address that names no register: log 156): a read shows a register and clears its RC fields; a write changes each field by its type and nothing else; a misaligned access moves no data and is reported to the administrative queue pair as a remote access error; a register that its hall hides reads zero and takes no write, as does an address that names none. The sideband reaches the mailbox alone. A register whose write has an effect of its own is in other statements. -/
def Obligations.RegisterRows : Prop :=
  ∀ (s : State) (a v : Nat),
    let only := fun (t : State) (r : Reg) (u i : Nat) (x : BitVec 64) =>
      { t with regs := s.regs } = s ∧ t.regs.rd r u i = x ∧ ∀ r' u' i', r'.key u' i' ≠ r.key u i → t.regs.rd r' u' i' = s.regs.rd r' u' i'
    let special := [R.HALL_CLK, R.DBG_CTRL, R.LAND_CTRL, R.PORT_CFG, R.PORT_PTP, R.CQ_TAIL, R.CQ_CHEAD, R.EV_HEAD, R.MB_PCAP, R.MB_ALERT, R.CLK_PPS, R.MB_FAULT_CLEAR, R.MB_AQP_CTRL,
      R.SP_TIERCFG, R.SWT_CFG, R.COLL_WDOG, R.SP_CFG, R.TILE_TSTAT, R.TILE_SR_SEED]
    (a % 8 ≠ 0 → exec (.registerWrite a v) s = exec (.readClear a) s ∧ ∃ t, exec (.readClear a) s = .next t ∧ t.tiles = s.tiles ∧ t.frames = s.frames ∧ t.halls = s.halls ∧
      ((∀ e ∈ s.foyer.qps, e.2.kind ≠ 0) → t = s) ∧
      ∀ e, List.find? (fun (q : Nat × Qp) => q.2.kind == 0 && q.2.ok) s.foyer.qps = some e → t.g F.ROCE_NAK_ACC (32 + e.2.port) = min (s.g F.ROCE_NAK_ACC (32 + e.2.port) + 1) (2 ^ F.ROCE_NAK_ACC.width - 1)) ∧
    (a % 8 = 0 → regAt a = none →
      ((a < 0x400000 ∨ 0x800000 ≤ a) → exec (.readClear a) s = .next (s.emit (.regRead a 0))) ∧ exec (.registerWrite a v) s = .next s) ∧
    (a % 8 = 0 → 0x400000 ≤ a → a < 0x800000 → exec (.readClear a) s = .next (s.emit (.regRead a (s.page ((a - 0x400000) / 8)).toNat))) ∧
    (∀ r u i, a % 8 = 0 → a < 0x400000 ∨ 0x800000 ≤ a → regAt a = some (r, u, i) →
      (s.unseen r u i = true → exec (.readClear a) s = .next (s.emit (.regRead a 0)) ∧ exec (.registerWrite a v) s = .next s) ∧
      (s.unseen r u i = false →
        (∃ t, exec (.readClear a) s = .next (t.emit (.regRead a (r.readValue (s.regView r u i)).toNat)) ∧ only t r u i (r.afterRead (s.regs.rd r u i))) ∧
        (r ∉ special → ∃ t, exec (.registerWrite a v) s = .next t ∧ only t r u i (r.written (s.regs.rd r u i) (BitVec.ofNat 64 v))))) ∧
    (s.power.phase = .running →
      (∀ r i, r ∈ regsOf .mb → i < r.count →
        (∃ t, exec (.regRead (r.addr 0 i)) s = .next (t.emit (.mctp 0x7F 0 0 (leBytes 8 (r.readValue (s.regView r 0 i)).toNat))) ∧ only t r 0 i (r.afterRead (s.regs.rd r 0 i))) ∧
        (r ∉ special → ∃ t, exec (.regWrite (r.addr 0 i) v) s = .next (t.emit (.mctp 0x7F 1 0 [])) ∧ only t r 0 i (r.written (s.regs.rd r 0 i) (BitVec.ofNat 64 v)))) ∧
      (∃ t, exec (.regWrite 0xF00020 v) s = .next t ∧ t.g F.MB_PCAP_CAP 0 = min 3800 (max 1200 (v % 4096)) ∧ t.g F.MB_PCAP_CEIL 0 = s.g F.MB_PCAP_CEIL 0 ∧ t.tiles = s.tiles) ∧
      (∃ t, exec (.regWrite 0xF00050 v) s = .next t ∧ t.g F.MB_ALERT_ALERT_EN 0 = v / 256 % 32 ∧ t.tiles = s.tiles ∧
        ∀ k, k < 5 → bitsAt (t.regs.rd R.MB_ALERT 0) k 1 = if v / 2 ^ k % 2 = 1 then 0 else bitsAt (s.regs.rd R.MB_ALERT 0) k 1) ∧
      (inMailbox a = false → exec (.regRead a) s = .next (s.emit (.mctp 0x7F 0 1 [])) ∧ exec (.regWrite a v) s = .next (s.emit (.mctp 0x7F 1 1 []))))

/-- HALL_CLK_WRITE, CLOCK_CHANGE_DONE, TSTAT_CLEAR, SR_SEED_WRITE, DBG_STOP, DBG_GO, DBG_STEP and LAND_CTRL_WRITE (R19, R25, R31, R44, R55, R78, R101, R193, R363; log 45, log 154): a target clock is held within its range and under the ceilings; a saturation status bit clears with its record; a seed resets both sequence numbers; a stopped tile issues nothing but the main context's one instruction of a step. A free hall's registers take no write. -/
def Obligations.HallRegisterRows : Prop :=
  ∀ (s : State) (h n : Nat),
    let keeps := fun (t : State) => { t with regs := s.regs, tiles := s.tiles } = s ∧ (t.tile n).mem = (s.tile n).mem ∧ (t.tile n).sregs = (s.tile n).sregs ∧ ∀ m, m ≠ n → t.tile m = s.tile m
    let waits := fun (c : Nat) => (s.ctx n c).wait = .run ∨ (s.ctx n c).wait = .data
    (h < 72 →
      (∀ v, (s.ownerOf h).isNone = true → exec (.hallClkWrite h v) s = .next s) ∧
      (∀ v, (s.ownerOf h).isSome = true → ∃ t, exec (.hallClkWrite h v) s = .next t ∧ { t with regs := s.regs } = s ∧ t.g F.HALL_CLK_TARGET h = min 72 (max 24 (v % 128)) ∧ t.g F.HALL_CLK_CURRENT h = s.g F.HALL_CLK_CURRENT h ∧
        t.g F.HALL_CLK_CAPPED h = (if min (s.g F.MB_PCAP_CEIL 0) (s.g F.HALL_TEMP_TCEIL h) < t.g F.HALL_CLK_TARGET h then 1 else 0)) ∧
      (∃ t, exec (.clockChangeDone h) s = .next t ∧ { t with regs := s.regs } = s ∧ t.g F.HALL_CLK_TARGET h = s.g F.HALL_CLK_TARGET h ∧
        t.g F.HALL_CLK_CURRENT h = (if (s.ownerOf h).isNone then 24 else min (s.g F.HALL_CLK_TARGET h) (min (s.g F.MB_PCAP_CEIL 0) (s.g F.HALL_TEMP_TCEIL h))))) ∧
    (n < 4608 → (s.ownerOf (n / 64)).isNone = true → ∀ x, exec (.tstatClear n x) s = .next s ∧ exec (.srSeedWrite n x) s = .next s ∧ exec (.dbgStop n) s = .next s ∧ exec (.dbgGo n) s = .next s ∧ exec (.dbgStep n) s = .next s) ∧
    (n < 4608 → (s.ownerOf (n / 64)).isSome = true →
      (∀ x, ∃ t, exec (.tstatClear n x) s = .next t ∧ { t with regs := s.regs } = s ∧ ∀ k, k < 5 →
        bitsAt (t.regs.rd R.TILE_TSTAT n) k 1 = (if x / 2 ^ k % 2 = 1 then 0 else bitsAt (s.regs.rd R.TILE_TSTAT n) k 1) ∧
        t.g F.TILE_TFIRST_A_VALID n k = (if x / 2 ^ k % 2 = 1 then 0 else s.g F.TILE_TFIRST_A_VALID n k)) ∧
      (∀ x, ∃ t, exec (.srSeedWrite n x) s = .next t ∧ keeps t ∧ t.regs.rd R.TILE_SR_SEED n = BitVec.ofNat 64 x ∧ ∀ c, (t.ctx n c).srq = 0 ∧ (t.ctx n c).pc = (s.ctx n c).pc ∧ (t.ctx n c).wait = (s.ctx n c).wait) ∧
      (∃ t, exec (.dbgStop n) s = .next t ∧ keeps t ∧ (t.tile n).dbgStop = true ∧ t.g F.DBG_CTRL_STOP n = 1 ∧ ((s.tile n).bpPass < 4 → t.canIssue n 0 = false ∧ t.canIssue n 1 = false)) ∧
      (∃ t, exec (.dbgGo n) s = .next t ∧ keeps t ∧ (t.tile n).dbgStop = false ∧ t.g F.DBG_CTRL_STOP n = 0 ∧ ∀ c, c < 2 → (t.canIssue n c = true ↔ s.alive n = true ∧ waits c)) ∧
      ((s.tile n).dbgStop = true → ∃ t, exec (.dbgStep n) s = .next t ∧ keeps t ∧ t.regs = s.regs ∧ (t.tile n).dbgStop = true ∧ (t.canIssue n 0 = true ↔ s.alive n = true ∧ waits 0) ∧ t.canIssue n 1 = false) ∧
      ((s.tile n).dbgStop = false → exec (.dbgStep n) s = .next s)) ∧
    (∀ p v, p < 8 → ∃ t, exec (.landCtrlWrite p v) s = .next t ∧ { t with regs := s.regs, parts := s.parts } = s ∧ t.g F.LAND_CTRL_TIMEOUT p = (if v % 2 ^ 32 = 0 then 1 else v % 2 ^ 32) ∧
      t.g F.LAND_CTRL_AEVENT p = v / 2 ^ 32 % 2 ∧ t.g F.LAND_CTRL_MODE p = s.g F.LAND_CTRL_MODE p) ∧
    (72 ≤ h → ∀ v, exec (.hallClkWrite h v) s = .fault .noSuchUnit ∧ exec (.clockChangeDone h) s = .fault .noSuchUnit) ∧
    (4608 ≤ n → ∀ x, exec (.tstatClear n x) s = .fault .noSuchUnit ∧ exec (.srSeedWrite n x) s = .fault .noSuchUnit ∧ exec (.dbgStop n) s = .fault .noSuchUnit ∧ exec (.dbgGo n) s = .fault .noSuchUnit ∧
      exec (.dbgStep n) s = .fault .noSuchUnit) ∧
    (∀ p v, 8 ≤ p → exec (.landCtrlWrite p v) s = .fault .noSuchUnit)

/-- AQP_CREATE and FAULT_CLEAR (R319, R323, R355, R365; its starting packet number is open: log 107): an administrative queue pair as MB.AQP describes it takes the lowest free number, and one that was there goes to the error state; a marked hall whose test passes is no longer faulty, one whose test fails stays marked, and nothing is tested while a partition exists. -/
def Obligations.MailboxRows : Prop :=
  ∀ (s : State),
    (∀ n, Sparse.lowestFree s.foyer.qps 1024 = some n → (∀ e ∈ s.foyer.qps, e.2.kind = 0 → s.qp? e.1 = some e.2 ∧ e.2.ops = []) →
      ∃ t q, exec .aqpCreate s = .next t ∧ t.qp? n = some q ∧ q.kind = 0 ∧ q.ok = true ∧ q.ops = [] ∧ q.port = s.g F.MB_AQP_CFG_PORT 0 ∧ q.gidx = s.g F.MB_AQP_CFG_GIDX 0 ∧ q.rqpn = s.g F.MB_AQP_CFG_RQPN 0 ∧
        q.epsn = s.g F.MB_AQP_CFG_RPSN 0 ∧ q.spsn = t.g F.MB_AQP_CTRL_SPSN 0 ∧ t.g F.MB_AQP_CTRL_UP 0 = 1 ∧ t.g F.MB_AQP_CTRL_QPN 0 = n ∧
        ∀ m p, m ≠ n → s.qp? m = some p → p.kind = 0 → ∃ r, t.qp? m = some r ∧ r.ok = false) ∧
    (Sparse.lowestFree s.foyer.qps 1024 = none → (∀ e ∈ s.foyer.qps, e.2.kind ≠ 0) → exec .aqpCreate s = .next s) ∧
    (∀ failed,
      (s.anyLive = true → ∃ t, exec (.faultClear failed) s = .next t ∧ { t with regs := s.regs } = s ∧ t.g F.MB_FAULT_CLEAR_BUSY 0 = 0 ∧ ∀ h, h < 72 → t.isFaulty h = s.isFaulty h) ∧
      (s.anyLive = false → ∃ t, exec (.faultClear failed) s = .next t ∧ t.g F.MB_FAULT_CLEAR_BUSY 0 = 0 ∧ (∀ h, h < 72 → t.isFaulty h = (s.isFaulty h && failed.contains h)) ∧
        (∀ h, h < 72 → s.isFaulty h = true → h ∈ failed → t.g F.MB_FAULT_CLEAR_FAILED 0 = 1) ∧ t.frames = s.frames ∧ (∀ n, n < 4608 → s.isFaulty (n / 64) = false → t.tile n = s.tile n)))

/-- R31: while a hall is being cleared on release, and while it is free, every tile block and the gallery range of that hall read as zero and ignore writes; only HALL.CLK and the sensor range stay readable; no debug read returns data of a released partition. -/
def Obligations.FreeHallHidden : Prop :=
  ∀ (s : State) (h a v : Nat), h < 72 → s.g F.PART_OWNER_OWNED h = 0 → a % 8 = 0 →
    let base := 0x1000000 + 0x200000 * h
    (base ≤ a → a < base + 0x120000 → a ≠ base + 0x100000 → exec (.readClear a) s = .next (s.emit (.regRead a 0)) ∧ exec (.registerWrite a v) s = .next s) ∧
    (∃ t : State, exec (.readClear (base + 0x100000)) s = .next (t.emit (.regRead (base + 0x100000) (s.regView R.HALL_CLK h 0).toNat)) ∧ t.tiles = s.tiles ∧ t.frames = s.frames) ∧
    (∃ t : State, exec (.readClear (base + 0x120000)) s = .next (t.emit (.regRead (base + 0x120000) (s.regView R.HALL_TEMP h 0).toNat)) ∧ t.tiles = s.tiles ∧ t.frames = s.frames) ∧
    (∃ t : State, exec (.readClear (base + 0x120008)) s = .next (t.emit (.regRead (base + 0x120008) (s.regView R.HALL_CLEARED h 0).toNat)) ∧ t.tiles = s.tiles ∧ t.frames = s.frames)

/-- R28: a hall that fails in the field is marked in DEV.HALL_FAULT, and no partition comes to include a marked hall. -/
def Obligations.FaultyHalls : Prop :=
  ∀ (s : State),
    let held := fun (t : State) => (∀ j, j < 72 → t.ownerOf j = s.ownerOf j) ∧ t.parts.map (fun x => (x.num, x.halls)) = s.parts.map (fun x => (x.num, x.halls))
    (∀ h, h < 72 → s.power.phase = .running → ∃ t, exec (.hallFieldFailure h) s = .next t ∧ held t ∧
      (h < 64 → t.g F.DEV_HALL_FAULT_FAULT_LO 0 / 2 ^ h % 2 = 1) ∧ (64 ≤ h → t.g F.DEV_HALL_FAULT_HI_FAULT_HI 0 / 2 ^ (h - 64) % 2 = 1)) ∧
    (∀ hdr adopt quota mask h, s.starts (.partCreate hdr adopt quota mask) = true → h ∈ maskHalls mask → s.isFaulty h = true →
      ∃ t, exec (.partCreate hdr adopt quota mask) s = .next t ∧ held t ∧ t.foyer.creations = s.foyer.creations) ∧
    (∀ p x h, p < 8 → s.foyer.creations.find? (fun x => x.cmd.hdr.tpart == p) = some x → h ∈ x.halls → s.isFaulty h = true →
      ∃ t, exec (.creationAfterRelease p) s = .next t ∧ held t)

/-- A counter raised by a unit saturates at its all-ones value and stays there (R12), and its clear on reading, where it has one, brings it to 0. -/
def Obligations.CountersSaturate : Prop :=
  ∀ (s : State) (f : Fld) (u i n : Nat), f.lo + f.width ≤ 64 →
    (s.inc f u i n).g f u i = min (s.g f u i + n) (2 ^ f.width - 1) ∧ (s.g f u i = 2 ^ f.width - 1 → (s.inc f u i n).g f u i = 2 ^ f.width - 1) ∧
    (∀ g : Fld, g.reg = f.reg → g.lo + g.width ≤ 64 → g.lo + g.width ≤ f.lo ∨ f.lo + f.width ≤ g.lo → (s.inc f u i n).g g u i = s.g g u i) ∧
    (∀ r v, r ∈ [R.PWR_GLITCH, R.MB_HOLDUP_REF, R.HALL_XPART_DROP, R.TILE_QCRUSH] → bitsAt (r.afterRead v) 0 16 = 0)

/-- R140 and R141: the check bits of a word are those of Table 5.1's columns; a read is answered by its syndrome. Any one flipped bit of a stored word is corrected, and no two flipped bits pass for good data. -/
def Obligations.WordErrors : Prop :=
  (∀ d m, d < 2 ^ 96 → m < 8 → ((eccCheck d).testBit m = true ↔ ((List.range 96).filter (fun i => d.testBit i && (eccCols[i]?.getD 0).testBit m)).length % 2 = 1)) ∧
  (∀ (s : State) (n a src fl : Nat),
    let v := (Sparse.get 0 (s.tile n).mem a).toNat
    let d := v % 2 ^ 96
    let syn := (v / 2 ^ 96) ^^^ eccCheck d
    let r := s.readWord n a src fl
    let fixed := fun (x : Nat) => r.2 = (x, false) ∧ r.1.g F.TILE_ECC_CE_COUNT n = min (s.g F.TILE_ECC_CE_COUNT n + 1) (2 ^ 48 - 1) ∧ Sparse.find? (r.1.tile n).wb a = some (storeWord x) ∧ (r.1.tile n).mem = (s.tile n).mem
    (syn = 0 → r = (s, d, false)) ∧
    (syn = 0xFF → r.2 = (0, true) ∧ r.1.g F.TILE_ECC_CE_COUNT n = s.g F.TILE_ECC_CE_COUNT n ∧ r.1.g F.TILE_ECC_UE_COUNT n = s.g F.TILE_ECC_UE_COUNT n) ∧
    (∀ i, i < 96 → eccCols[i]? = some syn → fixed (d ^^^ 2 ^ i)) ∧ (∀ k, k < 8 → syn = 2 ^ k → fixed d) ∧
    (syn ≠ 0 → syn ≠ 0xFF → syn ∉ eccCols → (∀ k, k < 8 → syn ≠ 2 ^ k) → r.2 = (0, true) ∧ r.1.g F.TILE_ECC_CE_COUNT n = s.g F.TILE_ECC_CE_COUNT n ∧
      r.1.g F.TILE_ECC_UE_COUNT n = min (s.g F.TILE_ECC_UE_COUNT n + 1) (2 ^ 48 - 1) ∧ s.word n a = .fresh ∧ r.1.word n a = .poison)) ∧
  (∀ d i, d < 2 ^ 96 → i < 104 → readStored (storeWord d ^^^ BitVec.twoPow 104 i) = .corrected d) ∧
  (∀ d i j, d < 2 ^ 96 → i < 104 → j < 104 → i ≠ j → readStored (storeWord d ^^^ BitVec.twoPow 104 i ^^^ BitVec.twoPow 104 j) = .fresh ∨
    readStored (storeWord d ^^^ BitVec.twoPow 104 i ^^^ BitVec.twoPow 104 j) = .poison)

/-- R228: no two data lines of the frames lie at one place, no data line lies where a group's check line does, and its check bytes lie in the check line of its own group. -/
def Obligations.LinesLieApart : Prop :=
  (∀ f l f' l', l < 131072 → l' < 131072 → place f l = place f' l' → f = f' ∧ l = l') ∧
  (∀ f l, f < 466033 → l < 131072 → (place f l).1 < 32 ∧ (place f l).2.1 < 32 ∧ (place f l).2.2.1 % 576 < 512 ∧ (place f l).2.2.1 / 576 < 7456528 ∧
    (place f l).2.2.2 = (place f l).2.2.1 / 576 * 576 + 512 + (place f l).2.2.1 % 576 / 8)

/-- The rounding of R43 and the codes of R36: each mode delivers a neighbour of the exact value, on the side or the nearer one that Table 2.7 names; and a value that a format holds rounds to its own code in every mode, without a flag. -/
def Obligations.RoundingModes : Prop :=
  (∀ (neg : Bool) (m r23 : Nat) (e ue : Int), e < ue →
    let u := 2 ^ (ue - e).toNat
    let at_ := fun (mode : Nat) => (roundAt mode neg m e ue r23).1
    (∀ mode, at_ mode = m / u ∨ (m % u ≠ 0 ∧ at_ mode = m / u + 1)) ∧
    at_ 1 = m / u ∧ (m % u ≠ 0 → at_ 2 = (if neg then m / u else m / u + 1) ∧ at_ 3 = (if neg then m / u + 1 else m / u)) ∧
    (2 * (m % u) < u → at_ 0 = m / u ∧ at_ 5 = m / u) ∧ (u < 2 * (m % u) → at_ 0 = m / u + 1 ∧ at_ 5 = m / u + 1) ∧
    (2 * (m % u) = u → at_ 0 % 2 = 0 ∧ at_ 5 = m / u + 1)) ∧
  (∀ (f code mode r23 : Nat) (F : Fp) (ovf neg : Bool) (m : Nat) (e : Int), fpOf f = some F → code < 2 ^ (F.eb + F.mb + 1) → F.decode false code = .fin neg m e → m ≠ 0 →
    F.roundT mode ovf r23 neg m e = (code, 0))

/-- R40: the integer formats are two's complement or unsigned, with their ranges; SCALE8 byte s is 2^(s − 127), and 0xFF is NaN. -/
def Obligations.IntegerCodes : Prop :=
  (∀ f, f ∈ [9, 11, 13] → (∀ code, code < 2 ^ fmtBits f → -2 ^ (fmtBits f - 1) ≤ intDecode f code ∧ intDecode f code < 2 ^ (fmtBits f - 1) ∧ intDecode f code % 2 ^ fmtBits f = code) ∧
    ∀ x : Int, -2 ^ (fmtBits f - 1) ≤ x → x < 2 ^ (fmtBits f - 1) → intEncode f x < 2 ^ fmtBits f ∧ intDecode f (intEncode f x) = x) ∧
  (∀ f, f ∈ [10, 12] → ∀ code, code < 2 ^ fmtBits f → intDecode f code = code ∧ intEncode f code = code) ∧
  (fmtBits 9 = 8 ∧ fmtBits 10 = 8 ∧ fmtBits 11 = 4 ∧ fmtBits 12 = 4 ∧ fmtBits 13 = 32) ∧
  (∀ f, f ∈ [9, 10, 11, 12, 13] → intRange f = (if f = 10 ∨ f = 12 then (0, 2 ^ fmtBits f - 1) else (-2 ^ (fmtBits f - 1), 2 ^ (fmtBits f - 1) - 1))) ∧
  (∀ s, s < 0xFF → scale8Decode s = .fin false 1 ((s : Int) - 127)) ∧ scale8Decode 0xFF = .nan
end

