-- ==== Sys2Proof/Laws/Sparse.lean ====
section
/-! SUPPORT. Laws of sparse tables: a read after a write, and the canonical form kept by every operation. The reads hold of any list, canonical or not. -/

namespace Sys2Proof.Sparse

variable {α : Type}

theorem get_insert (d : α) (m : Sparse α) (k : Nat) (v : α) (j : Nat) : get d (insert m k v) j = if j = k then v else get d m j := by
  induction m with
  | nil => simp [insert, get]
  | cons e rest ih =>
    obtain ⟨a, w⟩ := e
    simp only [insert]
    split
    · subst_vars; simp only [get]; split <;> rfl
    · split
      · simp only [get]
      · simp only [get, ih]; split
        · split
          · omega
          · rfl
        · rfl

theorem get_erase (d : α) (m : Sparse α) (k j : Nat) : get d (erase m k) j = if j = k then d else get d m j := by
  induction m with
  | nil => simp [erase, get]
  | cons e rest ih =>
    obtain ⟨a, w⟩ := e
    simp only [erase]
    split
    · subst_vars; rw [ih]; simp only [get]; split <;> rfl
    · simp only [get, ih]; split
      · split
        · omega
        · rfl
      · rfl

theorem find?_insert (m : Sparse α) (k : Nat) (v : α) (j : Nat) : find? (insert m k v) j = if j = k then some v else find? m j := by
  induction m with
  | nil => simp [insert, find?]
  | cons e rest ih =>
    obtain ⟨a, w⟩ := e
    simp only [insert]
    split
    · subst_vars; simp only [find?]; split <;> rfl
    · split
      · simp only [find?]
      · simp only [find?, ih]; split
        · split
          · omega
          · rfl
        · rfl

theorem find?_erase (m : Sparse α) (k j : Nat) : find? (erase m k) j = if j = k then none else find? m j := by
  induction m with
  | nil => simp [erase, find?]
  | cons e rest ih =>
    obtain ⟨a, w⟩ := e
    simp only [erase]
    split
    · subst_vars; rw [ih]; simp only [find?]; split <;> rfl
    · simp only [find?, ih]; split
      · split
        · omega
        · rfl
      · rfl

@[simp] theorem get_nil (d : α) (k : Nat) : get d [] k = d := rfl
@[simp] theorem find?_nil (k : Nat) : find? ([] : Sparse α) k = none := rfl

theorem find?_modify (m : Sparse α) (k : Nat) (f : α → α) (j : Nat) : find? (modify m k f) j = if j = k then (find? m j).map f else find? m j := by
  induction m with
  | nil => simp [modify, find?]
  | cons e rest ih =>
    obtain ⟨a, w⟩ := e
    simp only [modify, List.map_cons] at ih ⊢
    by_cases h : a = k
    · subst h; simp only [if_true, find?]; split <;> simp_all
    · simp only [h, if_false, find?]; split
      · subst_vars; simp [h]
      · exact ih

variable [DecidableEq α]

/-- A read after a write. -/
theorem get_put (d : α) (m : Sparse α) (k : Nat) (v : α) (j : Nat) : get d (put d m k v) j = if j = k then v else get d m j := by
  unfold put; split
  · subst_vars; exact get_erase v m k j
  · exact get_insert d m k v j

@[simp] theorem get_put_same (d : α) (m : Sparse α) (k : Nat) (v : α) : get d (put d m k v) k = v := by simp [get_put]
theorem get_put_ne (d : α) (m : Sparse α) {k j : Nat} (v : α) (h : j ≠ k) : get d (put d m k v) j = get d m j := by simp [get_put, h]

theorem get_upd (d : α) (m : Sparse α) (k : Nat) (f : α → α) (j : Nat) : get d (upd d m k f) j = if j = k then f (get d m k) else get d m j :=
  get_put d m k _ j

omit [DecidableEq α] in
theorem get_dropRange (d : α) (m : Sparse α) (lo hi j : Nat) : get d (dropRange m lo hi) j = if lo ≤ j ∧ j < hi then d else get d m j := by
  induction m with
  | nil => simp [dropRange, get]
  | cons e rest ih =>
    obtain ⟨a, w⟩ := e
    simp only [dropRange, List.filter_cons] at ih ⊢
    split
    · next h =>
      simp only [get, ih]; split
      · next hj =>
        have : ¬ (lo ≤ j ∧ j < hi) := by simp only [Bool.or_eq_true, decide_eq_true_eq] at h; omega
        simp [this]
      · rfl
    · next h =>
      rw [ih]; simp only [get]
      by_cases hj : j = a
      · subst hj
        have : lo ≤ j ∧ j < hi := by simp only [Bool.or_eq_true, decide_eq_true_eq] at h; omega
        simp [this]
      · simp [hj]

/-! The canonical form. -/

omit [DecidableEq α] in
theorem rising_some (m : Sparse α) (i : Nat) : rising (some i) m = true ↔ rising none m = true ∧ ∀ e ∈ m, i < e.1 := by
  induction m generalizing i with
  | nil => simp [rising]
  | cons e rest ih =>
    obtain ⟨a, w⟩ := e
    simp only [rising, Bool.and_eq_true, decide_eq_true_eq, ih, List.mem_cons, forall_eq_or_imp]
    constructor
    · rintro ⟨h1, h2, h3⟩; exact ⟨⟨h2, h3⟩, h1, fun e he => Nat.lt_trans h1 (h3 e he)⟩
    · rintro ⟨⟨h2, h3⟩, h1, _⟩; exact ⟨h1, h2, h3⟩

omit [DecidableEq α] in
theorem rising_cons (a : Nat) (w : α) (rest : Sparse α) : rising none ((a, w) :: rest) = true ↔ rising none rest = true ∧ ∀ e ∈ rest, a < e.1 := by
  simp only [rising]; exact rising_some rest a

omit [DecidableEq α] in
theorem mem_insert (m : Sparse α) (k : Nat) (v : α) (e : Nat × α) (h : e ∈ insert m k v) : e = (k, v) ∨ e ∈ m := by
  induction m with
  | nil => simpa [insert] using h
  | cons x rest ih =>
    obtain ⟨a, w⟩ := x
    simp only [insert] at h
    split at h
    · rcases List.mem_cons.1 h with h | h
      · exact .inl h
      · exact .inr (List.mem_cons_of_mem _ h)
    · split at h
      · exact List.mem_cons.1 h
      · rcases List.mem_cons.1 h with h | h
        · exact .inr (h ▸ List.mem_cons_self)
        · exact (ih h).imp id (List.mem_cons_of_mem _)

omit [DecidableEq α] in
theorem mem_erase (m : Sparse α) (k : Nat) (e : Nat × α) (h : e ∈ erase m k) : e ∈ m := by
  induction m with
  | nil => exact h
  | cons x rest ih =>
    obtain ⟨a, w⟩ := x
    simp only [erase] at h
    split at h
    · exact List.mem_cons_of_mem _ (ih h)
    · rcases List.mem_cons.1 h with h | h
      · exact h ▸ List.mem_cons_self
      · exact List.mem_cons_of_mem _ (ih h)

omit [DecidableEq α] in
theorem rising_insert (m : Sparse α) (k : Nat) (v : α) (h : rising none m = true) : rising none (insert m k v) = true := by
  induction m with
  | nil => rfl
  | cons x rest ih =>
    obtain ⟨a, w⟩ := x
    rw [rising_cons] at h
    simp only [insert]
    split
    · subst_vars; rw [rising_cons]; exact h
    · split
      · next h1 h2 =>
        rw [rising_cons, rising_cons]
        refine ⟨h, fun e he => ?_⟩
        rcases List.mem_cons.1 he with he | he
        · subst he; exact h2
        · exact Nat.lt_trans h2 (h.2 e he)
      · next h1 h2 =>
        rw [rising_cons]
        refine ⟨ih h.1, fun e he => ?_⟩
        rcases mem_insert rest k v e he with he | he
        · subst he; show a < k; omega
        · exact h.2 e he

omit [DecidableEq α] in
theorem rising_erase (m : Sparse α) (k : Nat) (h : rising none m = true) : rising none (erase m k) = true := by
  induction m with
  | nil => rfl
  | cons x rest ih =>
    obtain ⟨a, w⟩ := x
    rw [rising_cons] at h
    simp only [erase]
    split
    · exact ih h.1
    · rw [rising_cons]; exact ⟨ih h.1, fun e he => h.2 e (mem_erase rest k e he)⟩

omit [DecidableEq α] in
theorem rising_filter (m : Sparse α) (p : Nat × α → Bool) (h : rising none m = true) : rising none (m.filter p) = true := by
  induction m with
  | nil => rfl
  | cons x rest ih =>
    obtain ⟨a, w⟩ := x
    rw [rising_cons] at h
    simp only [List.filter_cons]
    split
    · rw [rising_cons]; exact ⟨ih h.1, fun e he => h.2 e (List.mem_filter.1 he).1⟩
    · exact ih h.1

theorem wf_iff (d : α) (m : Sparse α) : wf d m = true ↔ rising none m = true ∧ ∀ e ∈ m, e.2 ≠ d := by simp [wf]

theorem wf_nil (d : α) : wf d ([] : Sparse α) = true := rfl

/-- A write keeps the canonical form. -/
theorem wf_put (d : α) (m : Sparse α) (k : Nat) (v : α) (h : wf d m = true) : wf d (put d m k v) = true := by
  rw [wf_iff] at h ⊢
  unfold put; split
  · exact ⟨rising_erase m k h.1, fun e he => h.2 e (mem_erase m k e he)⟩
  · next hv =>
    refine ⟨rising_insert m k v h.1, fun e he => ?_⟩
    rcases mem_insert m k v e he with he | he
    · subst he; exact hv
    · exact h.2 e he

theorem wf_upd (d : α) (m : Sparse α) (k : Nat) (f : α → α) (h : wf d m = true) : wf d (upd d m k f) = true := wf_put d m k _ h

theorem wf_filter (d : α) (m : Sparse α) (p : Nat × α → Bool) (h : wf d m = true) : wf d (m.filter p) = true := by
  rw [wf_iff] at h ⊢
  exact ⟨rising_filter m p h.1, fun e he => h.2 e (List.mem_filter.1 he).1⟩

/-- Dropping a range of keys keeps the canonical form. -/
theorem wf_dropRange (d : α) (m : Sparse α) (lo hi : Nat) (h : wf d m = true) : wf d (dropRange m lo hi) = true := wf_filter d m _ h

end Sys2Proof.Sparse
end

