-- ==== Sys2Proof/Laws/Holds.lean ====
section
/-! SUPPORT. The invariant that the meanings keep, in the form in which it passes through compositions: the queue is `l` and frame memory is canonical. -/

namespace Sys2Proof.Machine

theorem ite_ind {α : Type} {P : α → Prop} {c : Prop} [Decidable c] {a b : α} (ha : P a) (hb : P b) : P (if c then a else b) := by
  split
  · exact ha
  · exact hb

namespace State

/-- The state's queue is `l` and its frame memory is canonical. -/
def Holds (l : List Instr) (s : State) : Prop := s.pending = l ∧ Memory.wf s.frames = true

theorem Holds.pending {l : List Instr} {s : State} (h : Holds l s) : s.pending = l := h.1
theorem Holds.frames {l : List Instr} {s : State} (h : Holds l s) : Memory.wf s.frames = true := h.2

/-- A change of other fields. -/
theorem holds_mk {l : List Instr} {s : State} (h : Holds l s) (regs : RegFile) (fresh : Nat) (now : Nat) (tiles : Sparse Tile) (halls : Sparse Hall) (parts : List Part) (net : List Packet) (nextPkt : Nat) (ban : List Ban) (shares : List Share) (groups : List PeerGroup) (peers : Sparse PeerCtx) (pageMap : Sparse (BitVec 64)) (cuts : List Cut) (retired : List Nat) (poolSize : Nat) (pool : List Nat) (copies : List CopyReq) (repairs : List Repair) (flying : List FillLine) (waits : List WaitRead) (peerReads : List PeerRead) (prefetch : Sparse Prefetch) (chk : Sparse (List Nat)) (patrol : Sparse Nat) (mr4 : Sparse Nat) (useCtr : Nat) (memUe : Sparse Nat) (hostOut : Sparse HostOut) (coll : Sparse Coll) (prot : Sparse Prot) (foyer : Foyer) (mss : Mss) (power : Power) (ports : Ports) (out : List Output) (evLost : Sparse Nat) :
    Holds l (State.mk s.pending regs fresh now tiles halls parts net nextPkt ban shares groups peers pageMap s.frames cuts retired poolSize pool copies repairs flying waits peerReads prefetch chk patrol mr4 useCtr memUe hostOut coll prot foyer mss power ports out evLost) := h
theorem ite_holds {l : List Instr} {c : Prop} [Decidable c] {s t : State} (hs : Holds l s) (ht : Holds l t) : Holds l (if c then s else t) := by
  split
  · exact hs
  · exact ht

theorem foldl_holds {α : Type} {l : List Instr} (f : State → α → State) (as : List α) {s : State} (hf : ∀ s a, Holds l s → Holds l (f s a)) (h : Holds l s) :
    Holds l (as.foldl f s) := by
  induction as generalizing s with
  | nil => exact h
  | cons a as ih => exact ih (hf s a h)

/-- A fold over a state and a value beside it. -/
theorem foldl_holds_fst {α β : Type} {l : List Instr} (f : State × β → α → State × β) (as : List α) {p : State × β}
    (hf : ∀ p a, Holds l p.1 → Holds l (f p a).1) (h : Holds l p.1) : Holds l (as.foldl f p).1 := by
  induction as generalizing p with
  | nil => exact h
  | cons a as ih => exact ih (hf p a h)

end State

end Sys2Proof.Machine
end

