-- ==== Sys2Proof/Laws/HoldsTile.lean ====
section
/-! SUPPORT. The functions on states of the tiles, the mesh, channels, messages and landings keep the queue and the canonical form of frame memory (`State.Holds`). -/

namespace Sys2Proof.Machine

theorem State.w_holds {Q : List Instr} (s : State) (f : Fld) (u i x : Nat) (hq : s.Holds Q) :
    ((State.w s f u i x)).Holds Q := hq

theorem State.inc_holds {Q : List Instr} (s : State) (f : Fld) (u i n : Nat) (hq : s.Holds Q) :
    ((State.inc s f u i n)).Holds Q := hq

theorem State.wreg_holds {Q : List Instr} (s : State) (r : Reg) (u i : Nat) (v : BitVec 64) (hq : s.Holds Q) :
    ((State.wreg s r u i v)).Holds Q := hq

theorem State.hwm_holds {Q : List Instr} (s : State) (f : Fld) (u i x : Nat) (hq : s.Holds Q) :
    ((State.hwm s f u i x)).Holds Q := by
  unfold State.hwm
  try dsimp only
  repeat' first
    | with_reducible assumption
    | with_reducible apply State.w_holds
    | with_reducible apply State.ite_holds
    | split

theorem State.setTile_holds {Q : List Instr} (s : State) (n : Nat) (t : Tile) (hq : s.Holds Q) :
    ((State.setTile s n t)).Holds Q := hq

theorem State.upTile_holds {Q : List Instr} (s : State) (n : Nat) (f : Tile → Tile) (hq : s.Holds Q) :
    ((State.upTile s n f)).Holds Q := hq

theorem State.setHall_holds {Q : List Instr} (s : State) (h : Nat) (x : Hall) (hq : s.Holds Q) :
    ((State.setHall s h x)).Holds Q := hq

theorem State.upHall_holds {Q : List Instr} (s : State) (h : Nat) (f : Hall → Hall) (hq : s.Holds Q) :
    ((State.upHall s h f)).Holds Q := hq

theorem State.upPart_holds {Q : List Instr} (s : State) (p : Nat) (f : Part → Part) (hq : s.Holds Q) :
    ((State.upPart s p f)).Holds Q := hq

theorem State.undef_holds {Q : List Instr} (s : State) (hq : s.Holds Q) :
    ((State.undef s).2).Holds Q := hq

theorem State.emit_holds {Q : List Instr} (s : State) (o : Output) (hq : s.Holds Q) :
    ((State.emit s o)).Holds Q := hq

theorem State.upFoyer_holds {Q : List Instr} (s : State) (f : Foyer → Foyer) (hq : s.Holds Q) :
    ((State.upFoyer s f)).Holds Q := hq

theorem State.upQp_holds {Q : List Instr} (s : State) (q : Nat) (f : Qp → Qp) (hq : s.Holds Q) :
    ((State.upQp s q f)).Holds Q := hq

theorem State.hostTx_holds {Q : List Instr} (s : State) (p k : Nat) (o : Output) (hq : s.Holds Q) :
    ((State.hostTx s p k o)).Holds Q := by
  unfold State.hostTx
  try dsimp only
  repeat' first
    | with_reducible assumption
    | with_reducible apply State.emit_holds
    | with_reducible apply State.inc_holds
    | with_reducible apply State.ite_holds
    | split

theorem State.qpPump_holds {Q : List Instr} (s : State) (n : Nat) (hq : s.Holds Q) :
    ((State.qpPump s n)).Holds Q := by
  unfold State.qpPump
  try dsimp only
  repeat' first
    | with_reducible assumption
    | intro _
    | with_reducible apply State.hostTx_holds
    | with_reducible apply State.upQp_holds
    | with_reducible apply State.ite_holds
    | with_reducible apply State.foldl_holds
    | with_reducible apply State.foldl_holds_fst
    | split

theorem State.hostOp_holds {Q : List Instr} (s : State) (hb k : Nat) (o : Output) (why : OpWhy) (hq : s.Holds Q) :
    ((State.hostOp s hb k o why)).Holds Q := by
  unfold State.hostOp
  try dsimp only
  repeat' first
    | with_reducible assumption
    | intro _
    | with_reducible apply State.upQp_holds
    | with_reducible apply State.qpPump_holds
    | with_reducible apply State.ite_holds
    | split

theorem State.upMss_holds {Q : List Instr} (s : State) (f : Mss → Mss) (hq : s.Holds Q) :
    ((State.upMss s f)).Holds Q := hq

theorem State.mssLog_holds {Q : List Instr} (s : State) (code : Nat) (part : Option Nat) (data : List (Nat × Nat)) (hq : s.Holds Q) :
    ((State.mssLog s code part data)).Holds Q := by
  unfold State.mssLog
  try dsimp only
  repeat' first
    | with_reducible assumption
    | intro _
    | with_reducible apply State.w_holds
    | with_reducible apply State.upMss_holds
    | with_reducible apply State.inc_holds
    | with_reducible apply State.ite_holds
    | split

theorem State.ceSram_holds {Q : List Instr} (s : State) (n : Nat) (hq : s.Holds Q) :
    ((State.ceSram s n)).Holds Q := hq

theorem State.ceDram_holds {Q : List Instr} (s : State) (n : Nat) (hq : s.Holds Q) :
    ((State.ceDram s n)).Holds Q := hq

theorem State.persist_holds {Q : List Instr} (s : State) (f : Persist → Persist) (hq : s.Holds Q) :
    ((State.persist s f)).Holds Q := hq

theorem State.ringPut_holds {Q : List Instr} (s : State) (r : Nat) (e : EventRec) (hq : s.Holds Q) :
    ((State.ringPut s r e)).Holds Q := by
  unfold State.ringPut
  try dsimp only
  repeat' first
    | with_reducible assumption
    | with_reducible apply State.hostOp_holds
    | with_reducible apply State.w_holds
    | with_reducible apply State.ite_holds
    | split

theorem State.ringFlushLost_holds {Q : List Instr} (s : State) (r : Nat) (hq : s.Holds Q) :
    ((State.ringFlushLost s r)).Holds Q := by
  unfold State.ringFlushLost
  try dsimp only
  iterate 30 try any_goals first
    | with_reducible assumption
    | with_reducible apply State.ringPut_holds
    | with_reducible apply State.ite_holds
    | split
    | with_reducible apply State.holds_mk

theorem State.ringEvent_holds {Q : List Instr} (s : State) (r : Nat) (e : EventRec) (hq : s.Holds Q) :
    ((State.ringEvent s r e)).Holds Q := by
  unfold State.ringEvent
  try dsimp only
  iterate 30 try any_goals first
    | with_reducible assumption
    | with_reducible apply State.ringFlushLost_holds
    | with_reducible apply State.inc_holds
    | with_reducible apply State.ringPut_holds
    | with_reducible apply State.ite_holds
    | split
    | with_reducible apply State.holds_mk

theorem State.noteRisk_holds {Q : List Instr} (s : State) (code : Nat) (hq : s.Holds Q) :
    ((State.noteRisk s code)).Holds Q := by
  unfold State.noteRisk
  try dsimp only
  repeat' first
    | with_reducible assumption
    | intro _
    | with_reducible apply State.upMss_holds
    | with_reducible apply State.ite_holds
    | split

theorem State.event_holds {Q : List Instr} (s : State) (part : Option Nat) (code : Nat) (data : List (Nat × Nat)) (hq : s.Holds Q) :
    ((State.event s part code data)).Holds Q := by
  unfold State.event
  try dsimp only
  repeat' first
    | with_reducible assumption
    | with_reducible apply State.mssLog_holds
    | with_reducible apply State.noteRisk_holds
    | with_reducible apply State.ringEvent_holds
    | with_reducible apply State.ite_holds
    | split

theorem State.putDone_holds {Q : List Instr} (s : State) (c : RunCmd) (status : Nat) (hq : s.Holds Q) :
    ((State.putDone s c status)).Holds Q := by
  unfold State.putDone
  try dsimp only
  repeat' first
    | with_reducible assumption
    | intro _
    | with_reducible apply State.hostOp_holds
    | with_reducible apply State.upFoyer_holds
    | with_reducible apply State.ite_holds
    | split

theorem State.destroyQueue_holds {Q : List Instr} (s : State) (q : Nat) (hq : s.Holds Q) :
    ((State.destroyQueue s q)).Holds Q := by
  unfold State.destroyQueue
  try dsimp only
  repeat' first
    | with_reducible assumption
    | intro _
    | with_reducible apply State.wreg_holds
    | with_reducible apply State.upFoyer_holds
    | with_reducible apply State.foldl_holds
    | with_reducible apply State.foldl_holds_fst

theorem State.cmdDone_holds {Q : List Instr} (s : State) (c : RunCmd) (status : Nat) (hq : s.Holds Q) :
    ((State.cmdDone s c status)).Holds Q := by
  unfold State.cmdDone
  try dsimp only
  repeat' first
    | with_reducible assumption
    | intro _
    | with_reducible apply State.inc_holds
    | with_reducible apply State.upFoyer_holds
    | with_reducible apply State.putDone_holds
    | with_reducible apply State.w_holds
    | with_reducible apply State.destroyQueue_holds
    | with_reducible apply State.ite_holds
    | split

theorem State.drainDone_holds {Q : List Instr} (q k : Nat) (s : State) (hq : s.Holds Q) :
    ((State.drainDone q k s)).Holds Q := by
  induction k generalizing s with
  | zero => exact hq
  | succ k ih =>
    unfold State.drainDone
    try dsimp only
    repeat' first
      | with_reducible assumption
      | with_reducible apply ih
      | intro _
      | with_reducible apply State.upFoyer_holds
      | with_reducible apply State.putDone_holds
      | with_reducible apply State.w_holds
      | with_reducible apply State.ite_holds
      | split

theorem State.checkLaunch_holds {Q : List Instr} (s : State) (p : Nat) (hq : s.Holds Q) :
    ((State.checkLaunch s p)).Holds Q := by
  unfold State.checkLaunch
  try dsimp only
  repeat' first
    | with_reducible assumption
    | intro _
    | with_reducible apply State.upPart_holds
    | with_reducible apply State.cmdDone_holds
    | with_reducible apply State.ite_holds
    | split

theorem State.firstEvent_holds {Q : List Instr} (s : State) (n k flight iaddr eng : Nat) (e : FlagEv) (hq : s.Holds Q) :
    ((State.firstEvent s n k flight iaddr eng e)).Holds Q := by
  unfold State.firstEvent
  try dsimp only
  repeat' first
    | with_reducible assumption
    | with_reducible apply State.w_holds
    | with_reducible apply State.ite_holds
    | split

theorem State.raise_holds {Q : List Instr} (s : State) (n flight iaddr eng : Nat) (e : FlagEv) (hq : s.Holds Q) :
    ((State.raise s n flight iaddr eng e)).Holds Q := by
  unfold State.raise
  try dsimp only
  repeat' first
    | with_reducible assumption
    | intro _
    | with_reducible apply State.wreg_holds
    | with_reducible apply State.upTile_holds
    | with_reducible apply State.firstEvent_holds
    | with_reducible apply State.ite_holds
    | with_reducible apply State.foldl_holds
    | with_reducible apply State.foldl_holds_fst
    | split

theorem State.raiseAll_holds {Q : List Instr} (s : State) (n flight iaddr eng : Nat) (l : List FlagEv) (hq : s.Holds Q) :
    ((State.raiseAll s n flight iaddr eng l)).Holds Q := by
  unfold State.raiseAll
  try dsimp only
  repeat' first
    | with_reducible assumption
    | intro _
    | with_reducible apply State.raise_holds
    | with_reducible apply State.foldl_holds
    | with_reducible apply State.foldl_holds_fst

theorem State.pendFault_holds {Q : List Instr} (s : State) (n flight : Nat) (hq : s.Holds Q) :
    ((State.pendFault s n flight)).Holds Q := by
  unfold State.pendFault
  try dsimp only
  repeat' first
    | with_reducible assumption
    | intro _
    | with_reducible apply State.upTile_holds
    | with_reducible apply State.ite_holds
    | split

theorem State.partFault_holds {Q : List Instr} (s : State) (p : Nat) (hq : s.Holds Q) :
    ((State.partFault s p)).Holds Q := by
  unfold State.partFault
  try dsimp only
  repeat' first
    | with_reducible assumption
    | intro _
    | with_reducible apply State.upPart_holds

theorem State.checkEnd_holds {Q : List Instr} (s : State) (p : Nat) (hq : s.Holds Q) :
    ((State.checkEnd s p)).Holds Q := by
  unfold State.checkEnd
  try dsimp only
  repeat' first
    | with_reducible assumption
    | intro _
    | with_reducible apply State.event_holds
    | with_reducible apply State.upPart_holds
    | with_reducible apply State.ite_holds
    | split

theorem State.tileFault_holds {Q : List Instr} (s : State) (n ctx cause eng iaddr waddr : Nat) (hq : s.Holds Q) :
    ((State.tileFault s n ctx cause eng iaddr waddr)).Holds Q := by
  unfold State.tileFault
  try dsimp only
  repeat' first
    | with_reducible assumption
    | with_reducible apply State.w_holds
    | with_reducible apply State.event_holds
    | with_reducible apply State.checkEnd_holds
    | with_reducible apply State.checkLaunch_holds
    | with_reducible apply State.ite_holds
    | split

theorem State.sramUe_holds {Q : List Instr} (s : State) (n a : Nat) (hq : s.Holds Q) :
    ((State.sramUe s n a)).Holds Q := by
  unfold State.sramUe
  try dsimp only
  repeat' first
    | with_reducible assumption
    | intro _
    | with_reducible apply State.upTile_holds
    | with_reducible apply State.event_holds
    | with_reducible apply State.ite_holds
    | split

theorem State.freshError_holds {Q : List Instr} (s : State) (n a src flight : Nat) (hq : s.Holds Q) :
    ((State.freshError s n a src flight)).Holds Q := by
  unfold State.freshError
  try dsimp only
  repeat' first
    | with_reducible assumption
    | intro _
    | with_reducible apply State.upTile_holds
    | with_reducible apply State.inc_holds
    | with_reducible apply State.w_holds
    | with_reducible apply State.sramUe_holds
    | with_reducible apply State.pendFault_holds
    | with_reducible apply State.ite_holds
    | split

theorem State.poisonCount_holds {Q : List Instr} (s : State) (n flight : Nat) (hq : s.Holds Q) :
    ((State.poisonCount s n flight)).Holds Q := by
  unfold State.poisonCount
  try dsimp only
  repeat' first
    | with_reducible assumption
    | with_reducible apply State.inc_holds
    | with_reducible apply State.pendFault_holds

theorem State.readWord_holds {Q : List Instr} (s : State) (n a src flight : Nat) (hq : s.Holds Q) :
    ((State.readWord s n a src flight).1).Holds Q := by
  unfold State.readWord
  try dsimp only
  repeat' first
    | with_reducible assumption
    | intro _
    | with_reducible apply State.poisonCount_holds
    | with_reducible apply State.inc_holds
    | with_reducible apply State.ceSram_holds
    | with_reducible apply State.upTile_holds
    | with_reducible apply State.freshError_holds
    | with_reducible apply State.ite_holds
    | split

theorem State.writeWord_holds {Q : List Instr} (s : State) (n a d : Nat) (poison : Bool) (hq : s.Holds Q) :
    ((State.writeWord s n a d poison)).Holds Q := by
  unfold State.writeWord
  try dsimp only
  repeat' first
    | with_reducible assumption
    | intro _
    | with_reducible apply State.upTile_holds

theorem State.mergeWord_holds {Q : List Instr} (s : State) (n a lo width x src flight : Nat) (hq : s.Holds Q) :
    ((State.mergeWord s n a lo width x src flight)).Holds Q := by
  unfold State.mergeWord
  try dsimp only
  repeat' first
    | with_reducible assumption
    | with_reducible apply State.readWord_holds
    | with_reducible apply State.writeWord_holds
    | with_reducible apply State.ite_holds
    | split

theorem State.readWords_holds {Q : List Instr} (s : State) (n src flight : Nat) (L : List Nat) (hq : s.Holds Q) :
    ((State.readWords s n src flight L).1).Holds Q := by
  induction L generalizing s with
  | nil => exact hq
  | cons x rest ih =>
    unfold State.readWords
    try dsimp only
    repeat' first
      | with_reducible assumption
      | with_reducible apply ih
      | with_reducible apply State.readWord_holds

theorem State.upCtx_holds {Q : List Instr} (s : State) (n c : Nat) (f : Ctx → Ctx) (hq : s.Holds Q) :
    ((State.upCtx s n c f)).Holds Q := by
  unfold State.upCtx
  try dsimp only
  repeat' first
    | with_reducible assumption
    | intro _
    | with_reducible apply State.upTile_holds

theorem State.setSreg_holds {Q : List Instr} (s : State) (n c i : Nat) (v : Half) (hq : s.Holds Q) :
    ((State.setSreg s n c i v)).Holds Q := by
  unfold State.setSreg
  try dsimp only
  repeat' first
    | with_reducible assumption
    | intro _
    | with_reducible apply State.upTile_holds

theorem State.setPred_holds {Q : List Instr} (s : State) (n c i : Nat) (b : Bool) (hq : s.Holds Q) :
    ((State.setPred s n c i b)).Holds Q := by
  unfold State.setPred
  try dsimp only
  repeat' first
    | with_reducible assumption
    | intro _
    | with_reducible apply State.upTile_holds

theorem State.setWait_holds {Q : List Instr} (s : State) (n c : Nat) (w : Wait) (hq : s.Holds Q) :
    ((State.setWait s n c w)).Holds Q := by
  unfold State.setWait
  try dsimp only
  repeat' first
    | with_reducible assumption
    | intro _
    | with_reducible apply State.w_holds
    | with_reducible apply State.upCtx_holds

theorem State.upInstr_holds {Q : List Instr} (s : State) (n id : Nat) (f : EngInstr → EngInstr) (hq : s.Holds Q) :
    ((State.upInstr s n id f)).Holds Q := by
  unfold State.upInstr
  try dsimp only
  repeat' first
    | with_reducible assumption
    | intro _
    | with_reducible apply State.upTile_holds
    | with_reducible apply State.ite_holds
    | split

theorem State.complete_holds {Q : List Instr} (s : State) (n id : Nat) (hq : s.Holds Q) :
    ((State.complete s n id)).Holds Q := by
  unfold State.complete
  try dsimp only
  repeat' first
    | with_reducible assumption
    | intro _
    | with_reducible apply State.upTile_holds

theorem State.clearReads_holds {Q : List Instr} (s : State) (n id : Nat) (hq : s.Holds Q) :
    ((State.clearReads s n id)).Holds Q := by
  unfold State.clearReads
  try dsimp only
  repeat' first
    | with_reducible assumption
    | intro _
    | with_reducible apply State.upTile_holds

theorem State.clearWrites_holds {Q : List Instr} (s : State) (n id : Nat) (hq : s.Holds Q) :
    ((State.clearWrites s n id)).Holds Q := by
  unfold State.clearWrites
  try dsimp only
  repeat' first
    | with_reducible assumption
    | intro _
    | with_reducible apply State.upTile_holds

theorem State.countIssue_holds {Q : List Instr} (s : State) (n c : Nat) (hq : s.Holds Q) :
    ((State.countIssue s n c)).Holds Q := by
  unfold State.countIssue
  try dsimp only
  repeat' first
    | with_reducible assumption
    | intro _
    | with_reducible apply State.inc_holds
    | with_reducible apply State.upTile_holds
    | with_reducible apply State.checkLaunch_holds
    | with_reducible apply State.ite_holds
    | split

theorem State.setPc_holds {Q : List Instr} (s : State) (n c pc : Nat) (hq : s.Holds Q) :
    ((State.setPc s n c pc)).Holds Q := by
  unfold State.setPc
  try dsimp only
  repeat' first
    | with_reducible assumption
    | intro _
    | with_reducible apply State.upCtx_holds

theorem State.perform_holds {Q : List Instr} (s : State) (n c pc : Nat) (body : State → State) (hb : ∀ s : State, s.Holds Q → (body s).Holds Q) (hq : s.Holds Q) :
    ((State.perform s n c pc body)).Holds Q := by
  unfold State.perform
  try dsimp only
  repeat' first
    | with_reducible assumption
    | with_reducible apply State.setPc_holds
    | with_reducible apply State.ite_holds
    | split
    | apply hb

theorem State.issue_holds {Q : List Instr} (s : State) (n c : Nat) (k : Kind) (ready : State → Nat → Bool) (body : State → Nat → State) (hb : ∀ (s : State) (w : Nat), s.Holds Q → (body s w).Holds Q) (hq : s.Holds Q) :
    ((State.issue s n c k ready body)).Holds Q := by
  unfold State.issue
  try dsimp only
  repeat' first
    | with_reducible assumption
    | intro _
    | with_reducible apply State.tileFault_holds
    | with_reducible apply State.upTile_holds
    | with_reducible apply State.w_holds
    | with_reducible apply State.inc_holds
    | with_reducible apply State.setWait_holds
    | with_reducible apply State.countIssue_holds
    | with_reducible apply State.setPc_holds
    | with_reducible apply State.perform_holds
    | with_reducible apply State.ite_holds
    | split
    | apply hb

theorem State.issuePlain_holds {Q : List Instr} (s : State) (n c : Nat) (k : Kind) (body : State → Nat → State) (hb : ∀ (s : State) (w : Nat), s.Holds Q → (body s w).Holds Q) (hq : s.Holds Q) :
    ((State.issuePlain s n c k body)).Holds Q := by
  unfold State.issuePlain
  try dsimp only
  repeat' first
    | with_reducible assumption
    | intro _
    | with_reducible apply State.issue_holds
    | (exact hb _ _ ‹_›)

theorem State.swReadReg_holds {Q : List Instr} (s : State) (r : Reg) (k i : Nat) (hq : s.Holds Q) :
    ((State.swReadReg s r k i).2).Holds Q := by
  unfold State.swReadReg
  try dsimp only
  repeat' first
    | with_reducible assumption
    | with_reducible apply State.wreg_holds
    | with_reducible apply State.ite_holds
    | split

theorem State.clearTstat_holds {Q : List Instr} (s : State) (n bits : Nat) (hq : s.Holds Q) :
    ((State.clearTstat s n bits)).Holds Q := by
  unfold State.clearTstat
  try dsimp only
  repeat' first
    | with_reducible assumption
    | intro _
    | with_reducible apply State.wreg_holds
    | with_reducible apply State.w_holds
    | with_reducible apply State.ite_holds
    | with_reducible apply State.foldl_holds
    | with_reducible apply State.foldl_holds_fst
    | split

theorem State.seedWrite_holds {Q : List Instr} (s : State) (n : Nat) (v : BitVec 64) (hq : s.Holds Q) :
    ((State.seedWrite s n v)).Holds Q := by
  unfold State.seedWrite
  try dsimp only
  repeat' first
    | with_reducible assumption
    | intro _
    | with_reducible apply State.wreg_holds
    | with_reducible apply State.upTile_holds

theorem State.swWriteReg_holds {Q : List Instr} (s : State) (r : Reg) (k i : Nat) (v : BitVec 64) (hq : s.Holds Q) :
    ((State.swWriteReg s r k i v)).Holds Q := by
  unfold State.swWriteReg
  try dsimp only
  repeat' first
    | with_reducible assumption
    | with_reducible apply State.clearTstat_holds
    | with_reducible apply State.seedWrite_holds
    | with_reducible apply State.wreg_holds
    | with_reducible apply State.ite_holds
    | split

theorem loadBits_holds {Q : List Instr} (s : State) (n c w a lo width : Nat) (sgn : Bool) (hq : s.Holds Q) :
    ((loadBits s n c w a lo width sgn)).Holds Q := by
  unfold loadBits
  try dsimp only
  repeat' first
    | with_reducible assumption
    | with_reducible apply State.w_holds
    | with_reducible apply State.tileFault_holds
    | with_reducible apply State.readWord_holds
    | with_reducible apply State.setSreg_holds
    | with_reducible apply State.ite_holds
    | split

theorem storeBits_holds {Q : List Instr} (s : State) (n c w a lo width : Nat) (hq : s.Holds Q) :
    ((storeBits s n c w a lo width)).Holds Q := by
  unfold storeBits
  try dsimp only
  repeat' first
    | with_reducible assumption
    | with_reducible apply State.w_holds
    | with_reducible apply State.tileFault_holds
    | with_reducible apply State.mergeWord_holds
    | split

theorem statusRead_holds {Q : List Instr} (s : State) (n j : Nat) (hi : Bool) (hq : s.Holds Q) :
    ((statusRead s n j hi).2).Holds Q := by
  unfold statusRead
  try dsimp only
  repeat' first
    | with_reducible assumption
    | intro _
    | with_reducible apply State.wreg_holds
    | with_reducible apply State.ite_holds
    | split

theorem statusWrite_holds {Q : List Instr} (s : State) (n j : Nat) (hi : Bool) (x : Half) (hq : s.Holds Q) :
    ((statusWrite s n j hi x)).Holds Q := by
  unfold statusWrite
  try dsimp only
  repeat' first
    | with_reducible assumption
    | with_reducible apply State.seedWrite_holds
    | with_reducible apply State.clearTstat_holds
    | with_reducible apply State.wreg_holds
    | with_reducible apply State.ite_holds
    | split

theorem State.setVl_holds {Q : List Instr} (s : State) (n c x : Nat) (hq : s.Holds Q) :
    ((State.setVl s n c x)).Holds Q := by
  unfold State.setVl
  try dsimp only
  repeat' first
    | with_reducible assumption
    | intro _
    | with_reducible apply State.upCtx_holds

theorem State.applyWrite_holds {Q : List Instr} (s : State) (n flight : Nat) (w : WordWrite) (hq : s.Holds Q) :
    ((State.applyWrite s n flight w)).Holds Q := by
  unfold State.applyWrite
  try dsimp only
  repeat' first
    | with_reducible assumption
    | with_reducible apply State.w_holds
    | with_reducible apply State.writeWord_holds
    | with_reducible apply State.readWord_holds
    | with_reducible apply State.mergeWord_holds
    | with_reducible apply State.ite_holds
    | split

theorem State.mxEndK_holds {Q : List Instr} (s : State) (n : Nat) (i : EngInstr) (hq : s.Holds Q) :
    ((State.mxEndK s n i)).Holds Q := by
  unfold State.mxEndK
  try dsimp only
  repeat' first
    | with_reducible assumption
    | intro _
    | with_reducible apply State.readWords_holds
    | with_reducible apply State.complete_holds
    | with_reducible apply State.clearReads_holds
    | with_reducible apply State.upTile_holds
    | with_reducible apply State.upInstr_holds
    | with_reducible apply State.ite_holds
    | split

theorem State.mxInit_holds {Q : List Instr} (s : State) (n : Nat) (i : EngInstr) (hq : s.Holds Q) :
    ((State.mxInit s n i)).Holds Q := by
  unfold State.mxInit
  try dsimp only
  repeat' first
    | with_reducible assumption
    | intro _
    | with_reducible apply State.upTile_holds
    | with_reducible apply State.readWords_holds
    | with_reducible apply State.w_holds
    | with_reducible apply State.raiseAll_holds
    | with_reducible apply State.ite_holds
    | split

theorem State.alcShut_holds {Q : List Instr} (s : State) (n k : Nat) (hq : s.Holds Q) :
    ((State.alcShut s n k)).Holds Q := by
  unfold State.alcShut
  try dsimp only
  repeat' first
    | with_reducible assumption
    | with_reducible apply State.w_holds
    | with_reducible apply State.ite_holds
    | split

theorem State.alcSet_holds {Q : List Instr} (s : State) (n k d : Nat) (hq : s.Holds Q) :
    ((State.alcSet s n k d)).Holds Q := by
  unfold State.alcSet
  try dsimp only
  repeat' first
    | with_reducible assumption
    | with_reducible apply State.alcShut_holds
    | with_reducible apply State.w_holds

theorem State.alcViolation_holds {Q : List Instr} (s : State) (n a : Nat) (write : Bool) (kind cls : Nat) (src : Src) (reason alc : Nat) (hq : s.Holds Q) :
    ((State.alcViolation s n a write kind cls src reason alc)).Holds Q := by
  unfold State.alcViolation
  try dsimp only
  repeat' first
    | with_reducible assumption
    | with_reducible apply State.inc_holds
    | with_reducible apply State.w_holds
    | with_reducible apply State.pendFault_holds
    | with_reducible apply State.ite_holds
    | split

theorem State.deliver_holds {Q : List Instr} (s : State) (n a : Nat) (L : List (Nat × Bool)) (hq : s.Holds Q) :
    ((State.deliver s n a L)).Holds Q := by
  induction L generalizing s a with
  | nil => exact hq
  | cons x rest ih =>
    obtain ⟨d, p⟩ := x
    unfold State.deliver
    try dsimp only
    repeat' first
      | with_reducible assumption
      | with_reducible apply ih
      | with_reducible apply State.writeWord_holds
      | with_reducible apply State.poisonCount_holds
      | with_reducible apply State.ite_holds
      | split

theorem State.accept_holds {Q : List Instr} (s : State) (n c iaddr eng func d vl : Nat) (hq : s.Holds Q) :
    ((State.accept s n c iaddr eng func d vl)).Holds Q := by
  unfold State.accept
  try dsimp only
  repeat' first
    | with_reducible assumption
    | intro _
    | with_reducible apply State.upTile_holds
    | with_reducible apply State.hwm_holds
    | with_reducible apply State.upCtx_holds
    | with_reducible apply State.ite_holds
    | split

theorem State.blocked_holds {Q : List Instr} (s : State) (n c pc w why : Nat) (hq : s.Holds Q) :
    ((State.blocked s n c pc w why)).Holds Q := by
  unfold State.blocked
  try dsimp only
  repeat' first
    | with_reducible assumption
    | with_reducible apply State.w_holds
    | with_reducible apply State.setPred_holds
    | with_reducible apply State.setPc_holds
    | with_reducible apply State.setWait_holds
    | with_reducible apply State.ite_holds
    | split

theorem State.dispatch_holds {Q : List Instr} (s : State) (n c w eng : Nat) (hq : s.Holds Q) :
    ((State.dispatch s n c w eng)).Holds Q := by
  unfold State.dispatch
  try dsimp only
  repeat' first
    | with_reducible assumption
    | intro _
    | with_reducible apply State.w_holds
    | with_reducible apply State.blocked_holds
    | with_reducible apply State.tileFault_holds
    | with_reducible apply State.readWords_holds
    | with_reducible apply State.accept_holds
    | with_reducible apply State.setPred_holds
    | with_reducible apply State.ite_holds
    | split

theorem State.alcCloseWait_holds {Q : List Instr} (s : State) (n c k : Nat) (reopen : Option Word) (hq : s.Holds Q) :
    ((State.alcCloseWait s n c k reopen)).Holds Q := by
  unfold State.alcCloseWait
  try dsimp only
  repeat' first
    | with_reducible assumption
    | with_reducible apply State.alcShut_holds
    | with_reducible apply State.setWait_holds
    | with_reducible apply State.alcSet_holds
    | with_reducible apply State.ite_holds
    | split

theorem State.alcOpenIssue_holds {Q : List Instr} (s : State) (n c w : Nat) (hq : s.Holds Q) :
    ((State.alcOpenIssue s n c w)).Holds Q := by
  unfold State.alcOpenIssue
  try dsimp only
  repeat' first
    | with_reducible assumption
    | with_reducible apply State.w_holds
    | with_reducible apply State.blocked_holds
    | with_reducible apply State.tileFault_holds
    | with_reducible apply State.readWord_holds
    | with_reducible apply State.setPred_holds
    | with_reducible apply State.alcCloseWait_holds
    | with_reducible apply State.ite_holds
    | split

theorem State.alcCloseIssue_holds {Q : List Instr} (s : State) (n c w : Nat) (hq : s.Holds Q) :
    ((State.alcCloseIssue s n c w)).Holds Q := by
  unfold State.alcCloseIssue
  try dsimp only
  repeat' first
    | with_reducible assumption
    | with_reducible apply State.w_holds
    | with_reducible apply State.setPred_holds
    | with_reducible apply State.alcCloseWait_holds

theorem State.stWindow_holds {Q : List Instr} (s : State) (n : Nat) (hq : s.Holds Q) :
    ((State.stWindow s n)).Holds Q := by
  unfold State.stWindow
  try dsimp only
  repeat' first
    | with_reducible assumption
    | intro _
    | with_reducible apply State.upTile_holds
    | with_reducible apply State.inc_holds
    | split

theorem State.outputLine_holds {Q : List Instr} (s : State) (n a : Nat) (hq : s.Holds Q) :
    ((State.outputLine s n a)).Holds Q := by
  unfold State.outputLine
  try dsimp only
  iterate 30 try any_goals first
    | with_reducible assumption
    | intro _
    | with_reducible apply State.ite_holds
    | split
    | with_reducible apply State.holds_mk

theorem State.upPeer_holds {Q : List Instr} (s : State) (ctx : Nat) (f : PeerCtx → PeerCtx) (hq : s.Holds Q) :
    ((State.upPeer s ctx f)).Holds Q := by
  unfold State.upPeer
  try dsimp only
  iterate 30 try any_goals first
    | with_reducible assumption
    | with_reducible apply State.holds_mk

theorem State.swtEmit_holds {Q : List Instr} (s : State) (ctx link : Nat) (retx : Bool) (c : PeerCtx) (p : SwtPkt) (hq : s.Holds Q) :
    ((State.swtEmit s ctx link retx c p)).Holds Q := by
  unfold State.swtEmit
  try dsimp only
  repeat' first
    | with_reducible assumption
    | intro _
    | with_reducible apply State.emit_holds
    | with_reducible apply State.inc_holds
    | with_reducible apply State.upPeer_holds
    | with_reducible apply State.ite_holds
    | split

theorem State.peerPump_holds {Q : List Instr} (ctx k : Nat) (s : State) (hq : s.Holds Q) :
    ((State.peerPump ctx k s)).Holds Q := by
  induction k generalizing s with
  | zero => exact hq
  | succ k ih =>
    unfold State.peerPump
    try dsimp only
    repeat' first
      | with_reducible assumption
      | with_reducible apply ih
      | intro _
      | with_reducible apply State.swtEmit_holds
      | with_reducible apply State.upPeer_holds
      | with_reducible apply State.ite_holds
      | split

theorem State.peerSend_holds {Q : List Instr} (s : State) (ctx typ cls aux addr pmask plen payload : Nat) (pend : Nat → Option PeerPend) (hq : s.Holds Q) :
    ((State.peerSend s ctx typ cls aux addr pmask plen payload pend)).Holds Q := by
  unfold State.peerSend
  try dsimp only
  repeat' first
    | with_reducible assumption
    | intro _
    | with_reducible apply State.upPeer_holds
    | with_reducible apply State.peerPump_holds
    | with_reducible apply State.ite_holds
    | split

theorem State.sendPkt_holds {Q : List Instr} (s : State) (tag src dst route cls : Nat) (body : Body) (hq : s.Holds Q) :
    ((State.sendPkt s tag src dst route cls body)).Holds Q := by
  unfold State.sendPkt
  try dsimp only
  iterate 30 try any_goals first
    | with_reducible assumption
    | with_reducible apply State.holds_mk

theorem State.handPkt_holds {Q : List Instr} (s : State) (tag src hall cls : Nat) (body : Body) (hq : s.Holds Q) :
    ((State.handPkt s tag src hall cls body)).Holds Q := by
  unfold State.handPkt
  try dsimp only
  iterate 30 try any_goals first
    | with_reducible assumption
    | with_reducible apply State.holds_mk

theorem State.dropPkt_holds {Q : List Instr} (s : State) (id : Nat) (hq : s.Holds Q) :
    ((State.dropPkt s id)).Holds Q := by
  unfold State.dropPkt
  try dsimp only
  iterate 30 try any_goals first
    | with_reducible assumption
    | intro _
    | with_reducible apply State.holds_mk

theorem State.upPkt_holds {Q : List Instr} (s : State) (id : Nat) (f : Packet → Packet) (hq : s.Holds Q) :
    ((State.upPkt s id f)).Holds Q := by
  unfold State.upPkt
  try dsimp only
  iterate 30 try any_goals first
    | with_reducible assumption
    | intro _
    | with_reducible apply State.ite_holds
    | split
    | with_reducible apply State.holds_mk

theorem State.sendBan_holds {Q : List Instr} (s : State) (src dst : Nat) (m : BanMsg) (hq : s.Holds Q) :
    ((State.sendBan s src dst m)).Holds Q := by
  unfold State.sendBan
  try dsimp only
  iterate 30 try any_goals first
    | with_reducible assumption
    | with_reducible apply State.holds_mk

theorem State.dropBan_holds {Q : List Instr} (s : State) (idx : Nat) (hq : s.Holds Q) :
    ((State.dropBan s idx)).Holds Q := by
  unfold State.dropBan
  try dsimp only
  iterate 30 try any_goals first
    | with_reducible assumption
    | with_reducible apply State.holds_mk

theorem State.exchangeLost_holds {Q : List Instr} (s : State) (src instr entry reason : Nat) (hq : s.Holds Q) :
    ((State.exchangeLost s src instr entry reason)).Holds Q := by
  unfold State.exchangeLost
  try dsimp only
  repeat' first
    | with_reducible assumption
    | intro _
    | with_reducible apply State.event_holds
    | with_reducible apply State.upPart_holds
    | with_reducible apply State.ite_holds
    | split

theorem State.msgReply_holds {Q : List Instr} (s : State) (from_ n : Nat) (hdr : MsgHdr) (src reason : Nat) (hq : s.Holds Q) :
    ((State.msgReply s from_ n hdr src reason)).Holds Q := by
  unfold State.msgReply
  try dsimp only
  repeat' first
    | with_reducible assumption
    | intro _
    | with_reducible apply State.peerSend_holds
    | with_reducible apply State.sendBan_holds
    | with_reducible apply State.ite_holds
    | split

theorem State.noticeDone_holds {Q : List Instr} (s : State) (p b : Nat) (hq : s.Holds Q) :
    ((State.noticeDone s p b)).Holds Q := by
  unfold State.noticeDone
  try dsimp only
  iterate 30 try any_goals first
    | with_reducible assumption
    | intro _
    | with_reducible apply State.ite_holds
    | split
    | with_reducible apply State.holds_mk

theorem State.tagDrop_holds {Q : List Instr} (s : State) (p : Packet) (hq : s.Holds Q) :
    ((State.tagDrop s p)).Holds Q := by
  unfold State.tagDrop
  try dsimp only
  repeat' first
    | with_reducible assumption
    | with_reducible apply State.dropPkt_holds
    | with_reducible apply State.inc_holds
    | with_reducible apply State.w_holds
    | with_reducible apply State.sendBan_holds
    | with_reducible apply State.exchangeLost_holds
    | with_reducible apply State.msgReply_holds
    | with_reducible apply State.partFault_holds
    | with_reducible apply State.noticeDone_holds
    | with_reducible apply State.ite_holds
    | split

theorem State.xcFinish_holds {Q : List Instr} (s : State) (n id : Nat) (hq : s.Holds Q) :
    ((State.xcFinish s n id)).Holds Q := by
  unfold State.xcFinish
  try dsimp only
  repeat' first
    | with_reducible assumption
    | intro _
    | with_reducible apply State.complete_holds
    | with_reducible apply State.ite_holds
    | split

theorem State.xcRecv_holds {Q : List Instr} (n : Nat) (L : List EngInstr) (s : State) (hq : s.Holds Q) :
    ((State.xcRecv n L s)).Holds Q := by
  induction L generalizing s with
  | nil => exact hq
  | cons x rest ih =>
    unfold State.xcRecv
    try dsimp only
    repeat' first
      | with_reducible assumption
      | with_reducible apply ih
      | intro _
      | with_reducible apply State.w_holds
      | with_reducible apply State.clearWrites_holds
      | with_reducible apply State.upInstr_holds
      | with_reducible apply State.xcFinish_holds
      | with_reducible apply State.ite_holds
      | split

theorem State.xcRecvCheck_holds {Q : List Instr} (s : State) (n : Nat) (hq : s.Holds Q) :
    ((State.xcRecvCheck s n)).Holds Q := by
  unfold State.xcRecvCheck
  try dsimp only
  repeat' first
    | with_reducible assumption
    | with_reducible apply State.xcRecv_holds

theorem State.xcSent_holds {Q : List Instr} (s : State) (n id : Nat) (hq : s.Holds Q) :
    ((State.xcSent s n id)).Holds Q := by
  unfold State.xcSent
  try dsimp only
  repeat' first
    | with_reducible assumption
    | intro _
    | with_reducible apply State.clearReads_holds
    | with_reducible apply State.upInstr_holds
    | with_reducible apply State.xcFinish_holds

theorem State.refuse6_holds {Q : List Instr} (s : State) (h rid src instr entry : Nat) (hq : s.Holds Q) :
    ((State.refuse6 s h rid src instr entry)).Holds Q := by
  unfold State.refuse6
  try dsimp only
  repeat' first
    | with_reducible assumption
    | with_reducible apply State.inc_holds
    | with_reducible apply State.w_holds
    | with_reducible apply State.sendBan_holds
    | with_reducible apply State.exchangeLost_holds

theorem State.xcSend_holds {Q : List Instr} (s : State) (n : Nat) (i : EngInstr) (e : Nat) (words : List (Nat × Bool)) (hq : s.Holds Q) :
    ((State.xcSend s n i e words)).Holds Q := by
  unfold State.xcSend
  try dsimp only
  repeat' first
    | with_reducible assumption
    | with_reducible apply State.sendPkt_holds
    | with_reducible apply State.refuse6_holds
    | with_reducible apply State.ite_holds
    | split

theorem State.replicate_holds {Q : List Instr} (s : State) (tag src hall cls : Nat) (g : GroupEntry) (mk : Nat → Body) (tree : Body) (len : Nat) (hq : s.Holds Q) :
    ((State.replicate s tag src hall cls g mk tree len)).Holds Q := by
  unfold State.replicate
  try dsimp only
  repeat' first
    | with_reducible assumption
    | intro _
    | with_reducible apply State.deliver_holds
    | with_reducible apply State.inc_holds
    | with_reducible apply State.sendPkt_holds
    | with_reducible apply State.handPkt_holds
    | with_reducible apply State.ite_holds
    | with_reducible apply State.foldl_holds
    | with_reducible apply State.foldl_holds_fst
    | split

theorem State.mcastAt_holds {Q : List Instr} (s : State) (p : Packet) (src instr entry group daddr : Nat) (words : List (Nat × Bool)) (hq : s.Holds Q) :
    ((State.mcastAt s p src instr entry group daddr words)).Holds Q := by
  unfold State.mcastAt
  try dsimp only
  repeat' first
    | with_reducible assumption
    | intro _
    | with_reducible apply State.dropPkt_holds
    | with_reducible apply State.replicate_holds
    | split

theorem State.exchAccess_holds {Q : List Instr} (s : State) (tag dst daddr : Nat) (words : List (Nat × Bool)) (hq : s.Holds Q) :
    ((State.exchAccess s tag dst daddr words).1).Holds Q := by
  unfold State.exchAccess
  try dsimp only
  repeat' first
    | with_reducible assumption
    | with_reducible apply State.deliver_holds
    | with_reducible apply State.inc_holds
    | with_reducible apply State.xcRecvCheck_holds
    | with_reducible apply State.alcViolation_holds
    | split

theorem State.xcSettle_holds {Q : List Instr} (s : State) (n instr : Nat) (hq : s.Holds Q) :
    ((State.xcSettle s n instr)).Holds Q := by
  unfold State.xcSettle
  try dsimp only
  repeat' first
    | with_reducible assumption
    | intro _
    | with_reducible apply State.upTile_holds
    | with_reducible apply State.xcFinish_holds

theorem State.setPage_holds {Q : List Instr} (s : State) (e : Nat) (v : BitVec 64) (hq : s.Holds Q) :
    ((State.setPage s e v)).Holds Q := by
  unfold State.setPage
  try dsimp only
  iterate 30 try any_goals first
    | with_reducible assumption
    | with_reducible apply State.holds_mk

theorem State.upOut_holds {Q : List Instr} (s : State) (n j : Nat) (f : OutCh → OutCh) (hq : s.Holds Q) :
    ((State.upOut s n j f)).Holds Q := by
  unfold State.upOut
  try dsimp only
  repeat' first
    | with_reducible assumption
    | intro _
    | with_reducible apply State.upTile_holds

theorem State.upIn_holds {Q : List Instr} (s : State) (n k : Nat) (f : InCh → InCh) (hq : s.Holds Q) :
    ((State.upIn s n k f)).Holds Q := by
  unfold State.upIn
  try dsimp only
  repeat' first
    | with_reducible assumption
    | intro _
    | with_reducible apply State.upTile_holds

theorem State.holdCredit_holds {Q : List Instr} (s : State) (ctx tile ch words : Nat) (opening : Bool) (hq : s.Holds Q) :
    ((State.holdCredit s ctx tile ch words opening)).Holds Q := by
  unfold State.holdCredit
  try dsimp only
  repeat' first
    | with_reducible assumption
    | intro _
    | with_reducible apply State.upPeer_holds

theorem State.toHeader_holds {Q : List Instr} (s : State) (n : Nat) (h : MsgHdr) (src words : Nat) (hq : s.Holds Q) :
    ((State.toHeader s n h src words)).Holds Q := by
  unfold State.toHeader
  try dsimp only
  repeat' first
    | with_reducible assumption
    | with_reducible apply State.holdCredit_holds
    | with_reducible apply State.sendBan_holds
    | with_reducible apply State.ite_holds
    | split

theorem State.toSender_holds {Q : List Instr} (s : State) (n k words : Nat) (opening : Bool) (hq : s.Holds Q) :
    ((State.toSender s n k words opening)).Holds Q := by
  unfold State.toSender
  try dsimp only
  repeat' first
    | with_reducible assumption
    | with_reducible apply State.holdCredit_holds
    | with_reducible apply State.sendBan_holds
    | with_reducible apply State.ite_holds
    | split

theorem State.openOut_holds {Q : List Instr} (s : State) (n d : Nat) (hq : s.Holds Q) :
    ((State.openOut s n d)).Holds Q := by
  unfold State.openOut
  try dsimp only
  repeat' first
    | with_reducible assumption
    | intro _
    | with_reducible apply State.wreg_holds
    | with_reducible apply State.w_holds
    | with_reducible apply State.upOut_holds

theorem State.openIn_holds {Q : List Instr} (s : State) (n d : Nat) (hq : s.Holds Q) :
    ((State.openIn s n d)).Holds Q := by
  unfold State.openIn
  try dsimp only
  repeat' first
    | with_reducible assumption
    | intro _
    | with_reducible apply State.wreg_holds
    | with_reducible apply State.upIn_holds
    | with_reducible apply State.toSender_holds
    | with_reducible apply State.ite_holds
    | split

theorem State.msgFail_holds {Q : List Instr} (s : State) (n : Nat) (i : EngInstr) (cause : Nat) (hq : s.Holds Q) :
    ((State.msgFail s n i cause)).Holds Q := by
  unfold State.msgFail
  try dsimp only
  repeat' first
    | with_reducible assumption
    | with_reducible apply State.complete_holds
    | with_reducible apply State.tileFault_holds
    | with_reducible apply State.ite_holds
    | split

theorem State.chanHead_holds {Q : List Instr} (s : State) (n : Nat) (i : EngInstr) (hq : s.Holds Q) :
    ((State.chanHead s n i)).Holds Q := by
  unfold State.chanHead
  try dsimp only
  repeat' first
    | with_reducible assumption
    | intro _
    | with_reducible apply State.msgFail_holds
    | with_reducible apply State.openOut_holds
    | with_reducible apply State.complete_holds
    | with_reducible apply State.openIn_holds
    | with_reducible apply State.upInstr_holds
    | with_reducible apply State.upIn_holds
    | with_reducible apply State.ite_holds
    | split

theorem State.msgSettle_holds {Q : List Instr} (n k : Nat) (s : State) (hq : s.Holds Q) :
    ((State.msgSettle n k s)).Holds Q := by
  induction k generalizing s with
  | zero => exact hq
  | succ k ih =>
    unfold State.msgSettle
    try dsimp only
    repeat' first
      | with_reducible assumption
      | with_reducible apply ih
      | intro _
      | with_reducible apply State.chanHead_holds
      | with_reducible apply State.ite_holds
      | split

theorem State.handHead_holds {Q : List Instr} (s : State) (n cls : Nat) (hq : s.Holds Q) :
    ((State.handHead s n cls)).Holds Q := by
  unfold State.handHead
  try dsimp only
  repeat' first
    | with_reducible assumption
    | intro _
    | with_reducible apply State.msgFail_holds
    | with_reducible apply State.upInstr_holds
    | with_reducible apply State.ite_holds
    | split

theorem State.msgServe_holds {Q : List Instr} (s : State) (n : Nat) (hq : s.Holds Q) :
    ((State.msgServe s n)).Holds Q := by
  unfold State.msgServe
  try dsimp only
  repeat' first
    | with_reducible assumption
    | with_reducible apply State.msgSettle_holds
    | with_reducible apply State.handHead_holds

theorem State.msgIssue_holds {Q : List Instr} (s : State) (n c w : Nat) (hq : s.Holds Q) :
    ((State.msgIssue s n c w)).Holds Q := by
  unfold State.msgIssue
  try dsimp only
  repeat' first
    | with_reducible assumption
    | with_reducible apply State.w_holds
    | with_reducible apply State.dispatch_holds
    | with_reducible apply State.msgServe_holds

theorem State.msgLaunch_holds {Q : List Instr} (s : State) (n j : Nat) (h : MsgHdr) (words : List (Nat × Bool)) (hq : s.Holds Q) :
    ((State.msgLaunch s n j h words)).Holds Q := by
  unfold State.msgLaunch
  try dsimp only
  repeat' first
    | with_reducible assumption
    | intro _
    | with_reducible apply State.w_holds
    | with_reducible apply State.peerSend_holds
    | with_reducible apply State.inc_holds
    | with_reducible apply State.sendPkt_holds
    | with_reducible apply State.sendBan_holds
    | with_reducible apply State.ite_holds
    | split

theorem State.msgSend_holds {Q : List Instr} (s : State) (n : Nat) (i : EngInstr) (j pad : Nat) (hq : s.Holds Q) :
    ((State.msgSend s n i j pad)).Holds Q := by
  unfold State.msgSend
  try dsimp only
  repeat' first
    | with_reducible assumption
    | intro _
    | with_reducible apply State.inc_holds
    | with_reducible apply State.upOut_holds
    | with_reducible apply State.readWords_holds
    | with_reducible apply State.upIn_holds
    | with_reducible apply State.clearReads_holds
    | with_reducible apply State.msgLaunch_holds
    | with_reducible apply State.w_holds
    | with_reducible apply State.upInstr_holds
    | with_reducible apply State.ite_holds
    | split

theorem State.sendHead_holds {Q : List Instr} (s : State) (n : Nat) (i : EngInstr) (hq : s.Holds Q) :
    ((State.sendHead s n i)).Holds Q := by
  unfold State.sendHead
  try dsimp only
  repeat' first
    | with_reducible assumption
    | intro _
    | with_reducible apply State.msgFail_holds
    | with_reducible apply State.msgSend_holds
    | with_reducible apply State.upOut_holds
    | with_reducible apply State.ite_holds
    | split

theorem State.creditIn_holds {Q : List Instr} (s : State) (n j words : Nat) (hq : s.Holds Q) :
    ((State.creditIn s n j words)).Holds Q := by
  unfold State.creditIn
  try dsimp only
  repeat' first
    | with_reducible assumption
    | intro _
    | with_reducible apply State.w_holds
    | with_reducible apply State.upOut_holds

theorem State.wordsBack_holds {Q : List Instr} (s : State) (n j words : Nat) (hq : s.Holds Q) :
    ((State.wordsBack s n j words)).Holds Q := by
  unfold State.wordsBack
  try dsimp only
  repeat' first
    | with_reducible assumption
    | with_reducible apply State.creditIn_holds
    | with_reducible apply State.ite_holds
    | split

theorem State.msgAcked_holds {Q : List Instr} (s : State) (n j seq reason : Nat) (hq : s.Holds Q) :
    ((State.msgAcked s n j seq reason)).Holds Q := by
  unfold State.msgAcked
  try dsimp only
  repeat' first
    | with_reducible assumption
    | intro _
    | with_reducible apply State.inc_holds
    | with_reducible apply State.w_holds
    | with_reducible apply State.upOut_holds
    | with_reducible apply State.wordsBack_holds
    | with_reducible apply State.upIn_holds
    | with_reducible apply State.complete_holds
    | with_reducible apply State.ite_holds
    | split

theorem State.ringReturn_holds {Q : List Instr} (n j k : Nat) (s : State) (hq : s.Holds Q) :
    ((State.ringReturn n j k s)).Holds Q := by
  induction k generalizing s with
  | zero => exact hq
  | succ k ih =>
    unfold State.ringReturn
    try dsimp only
    repeat' first
      | with_reducible assumption
      | with_reducible apply ih
      | intro _
      | with_reducible apply State.upIn_holds
      | with_reducible apply State.toSender_holds
      | with_reducible apply State.w_holds
      | with_reducible apply State.ite_holds
      | split

theorem State.ringServe_holds {Q : List Instr} (s : State) (n k : Nat) (hq : s.Holds Q) :
    ((State.ringServe s n k)).Holds Q := by
  unfold State.ringServe
  try dsimp only
  repeat' first
    | with_reducible assumption
    | with_reducible apply State.ringReturn_holds

theorem State.upMsg_holds {Q : List Instr} (s : State) (n k pid : Nat) (f : RingMsg → RingMsg) (hq : s.Holds Q) :
    ((State.upMsg s n k pid f)).Holds Q := by
  unfold State.upMsg
  try dsimp only
  repeat' first
    | with_reducible assumption
    | intro _
    | with_reducible apply State.upIn_holds
    | with_reducible apply State.ite_holds
    | split

theorem State.sweepMsgs_holds {Q : List Instr} (s : State) (n k : Nat) (hq : s.Holds Q) :
    ((State.sweepMsgs s n k)).Holds Q := by
  unfold State.sweepMsgs
  try dsimp only
  repeat' first
    | with_reducible assumption
    | intro _
    | with_reducible apply State.upIn_holds

theorem State.msgRefuse_holds {Q : List Instr} (s : State) (n : Nat) (h : MsgHdr) (pid src tag : Nat) (words : List (Nat × Bool)) (reason alc : Nat) (hq : s.Holds Q) :
    ((State.msgRefuse s n h pid src tag words reason alc)).Holds Q := by
  unfold State.msgRefuse
  try dsimp only
  repeat' first
    | with_reducible assumption
    | intro _
    | with_reducible apply State.alcViolation_holds
    | with_reducible apply State.inc_holds
    | with_reducible apply State.pendFault_holds
    | with_reducible apply State.toHeader_holds
    | with_reducible apply State.w_holds
    | with_reducible apply State.upIn_holds
    | with_reducible apply State.ringServe_holds
    | with_reducible apply State.msgReply_holds
    | with_reducible apply State.ite_holds
    | split

theorem State.setCell_holds {Q : List Instr} (s : State) (h c w v : Nat) (hq : s.Holds Q) :
    ((State.setCell s h c w v)).Holds Q := by
  unfold State.setCell
  try dsimp only
  repeat' first
    | with_reducible assumption
    | intro _
    | with_reducible apply State.w_holds
    | with_reducible apply State.upHall_holds

theorem State.freeCell_holds {Q : List Instr} (s : State) (h c : Nat) (hq : s.Holds Q) :
    ((State.freeCell s h c)).Holds Q := by
  unfold State.freeCell
  try dsimp only
  repeat' first
    | with_reducible assumption
    | intro _
    | with_reducible apply State.upHall_holds

theorem State.msgAccept_holds {Q : List Instr} (s : State) (p : Packet) (n : Nat) (h : MsgHdr) (src : Nat) (words : List (Nat × Bool)) (cell : Nat) (hq : s.Holds Q) :
    ((State.msgAccept s p n h src words cell)).Holds Q := by
  unfold State.msgAccept
  try dsimp only
  repeat' first
    | with_reducible assumption
    | intro _
    | with_reducible apply State.dropPkt_holds
    | with_reducible apply State.upIn_holds
    | with_reducible apply State.inc_holds
    | with_reducible apply State.w_holds
    | with_reducible apply State.setCell_holds
    | with_reducible apply State.ite_holds
    | split

theorem State.qpoolUe_holds {Q : List Instr} (s : State) (n : Nat) (hq : s.Holds Q) :
    ((State.qpoolUe s n)).Holds Q := by
  unfold State.qpoolUe
  try dsimp only
  repeat' first
    | with_reducible assumption
    | intro _
    | with_reducible apply State.inc_holds
    | with_reducible apply State.w_holds
    | with_reducible apply State.upHall_holds
    | with_reducible apply State.upTile_holds
    | with_reducible apply State.event_holds
    | with_reducible apply State.partFault_holds
    | with_reducible apply State.ite_holds
    | split

theorem State.readCell_holds {Q : List Instr} (s : State) (h c w : Nat) (hq : s.Holds Q) :
    ((State.readCell s h c w).1).Holds Q := by
  unfold State.readCell
  try dsimp only
  repeat' first
    | with_reducible assumption
    | with_reducible apply State.w_holds
    | with_reducible apply State.inc_holds
    | with_reducible apply State.ceSram_holds
    | with_reducible apply State.setCell_holds
    | split

theorem State.tileCell_holds {Q : List Instr} (s : State) (n c w : Nat) (hq : s.Holds Q) :
    ((State.tileCell s n c w).1).Holds Q := by
  unfold State.tileCell
  try dsimp only
  repeat' first
    | with_reducible assumption
    | with_reducible apply State.w_holds
    | with_reducible apply State.readCell_holds
    | with_reducible apply State.qpoolUe_holds
    | with_reducible apply State.ite_holds
    | split

theorem State.linkCell_holds {Q : List Instr} (s : State) (n cls cell seq : Nat) (hq : s.Holds Q) :
    ((State.linkCell s n cls cell seq)).Holds Q := by
  unfold State.linkCell
  try dsimp only
  repeat' first
    | with_reducible assumption
    | intro _
    | with_reducible apply State.tileCell_holds
    | with_reducible apply State.setCell_holds
    | with_reducible apply State.upHall_holds
    | with_reducible apply State.hwm_holds
    | with_reducible apply State.ite_holds
    | split

theorem State.joinItem_holds {Q : List Instr} (s : State) (n k : Nat) (m : RingMsg) (hq : s.Holds Q) :
    ((State.joinItem s n k m)).Holds Q := by
  unfold State.joinItem
  try dsimp only
  repeat' first
    | with_reducible assumption
    | intro _
    | with_reducible apply State.upMsg_holds
    | with_reducible apply State.setCell_holds
    | with_reducible apply State.linkCell_holds
    | with_reducible apply State.upTile_holds
    | with_reducible apply State.msgReply_holds

theorem State.joinNext_holds {Q : List Instr} (n k j : Nat) (s : State) (hq : s.Holds Q) :
    ((State.joinNext n k j s)).Holds Q := by
  induction j generalizing s with
  | zero => exact hq
  | succ k ih =>
    unfold State.joinNext
    try dsimp only
    repeat' first
      | with_reducible assumption
      | with_reducible apply ih
      | intro _
      | with_reducible apply State.joinItem_holds
      | with_reducible apply State.ite_holds
      | split

theorem State.joinServe_holds {Q : List Instr} (s : State) (n k : Nat) (hq : s.Holds Q) :
    ((State.joinServe s n k)).Holds Q := by
  unfold State.joinServe
  try dsimp only
  repeat' first
    | with_reducible assumption
    | with_reducible apply State.joinNext_holds

theorem State.enterHandler_holds {Q : List Instr} (s : State) (n ch addr len hnum cls pid : Nat) (hq : s.Holds Q) :
    ((State.enterHandler s n ch addr len hnum cls pid)).Holds Q := by
  unfold State.enterHandler
  try dsimp only
  repeat' first
    | with_reducible assumption
    | intro _
    | with_reducible apply State.tileFault_holds
    | with_reducible apply State.upTile_holds
    | with_reducible apply State.ite_holds
    | split

theorem State.popItem_holds {Q : List Instr} (s : State) (n cls c : Nat) (hq : s.Holds Q) :
    ((State.popItem s n cls c)).Holds Q := by
  unfold State.popItem
  try dsimp only
  iterate 30 try any_goals first
    | with_reducible assumption
    | intro _
    | with_reducible apply State.readCell_holds
    | with_reducible apply State.w_holds
    | with_reducible apply State.upHall_holds
    | with_reducible apply State.freeCell_holds
    | with_reducible apply State.upMsg_holds
    | with_reducible apply State.inc_holds
    | with_reducible apply State.upTile_holds
    | with_reducible apply State.enterHandler_holds
    | with_reducible apply State.qpoolUe_holds
    | with_reducible apply State.ite_holds
    | split
    | with_reducible apply State.holds_mk

theorem State.offerable_holds {Q : List Instr} (s : State) (n c : Nat) (hq : s.Holds Q) :
    ((State.offerable s n c).1).Holds Q := by
  unfold State.offerable
  try dsimp only
  repeat' first
    | with_reducible assumption
    | intro _
    | with_reducible apply State.tileCell_holds
    | with_reducible apply State.w_holds
    | split

theorem State.handlerEnd_holds {Q : List Instr} (s : State) (n : Nat) (hq : s.Holds Q) :
    ((State.handlerEnd s n)).Holds Q := by
  unfold State.handlerEnd
  try dsimp only
  repeat' first
    | with_reducible assumption
    | intro _
    | with_reducible apply State.upIn_holds
    | with_reducible apply State.upTile_holds
    | with_reducible apply State.ringServe_holds
    | with_reducible apply State.sweepMsgs_holds
    | with_reducible apply State.ite_holds
    | split

theorem State.upLanding_holds {Q : List Instr} (s : State) (p l : Nat) (f : Landing → Landing) (hq : s.Holds Q) :
    ((State.upLanding s p l f)).Holds Q := by
  unfold State.upLanding
  try dsimp only
  repeat' first
    | with_reducible assumption
    | intro _
    | with_reducible apply State.upPart_holds
    | with_reducible apply State.ite_holds
    | split

theorem State.arrive_holds {Q : List Instr} (s : State) (n p : Nat) (hq : s.Holds Q) :
    ((State.arrive s n p)).Holds Q := by
  unfold State.arrive
  try dsimp only
  repeat' first
    | with_reducible assumption
    | intro _
    | with_reducible apply State.upTile_holds
    | with_reducible apply State.upLanding_holds
    | with_reducible apply State.w_holds
    | with_reducible apply State.ite_holds
    | split

theorem State.takeFaults_holds {Q : List Instr} (s : State) (p : Nat) (hq : s.Holds Q) :
    ((State.takeFaults s p)).Holds Q := by
  unfold State.takeFaults
  try dsimp only
  repeat' first
    | with_reducible assumption
    | intro _
    | with_reducible apply State.upTile_holds
    | with_reducible apply State.upPart_holds
    | with_reducible apply State.foldl_holds
    | with_reducible apply State.foldl_holds_fst

theorem State.sendLand_holds {Q : List Instr} (s : State) (ctx kind l bits : Nat) (hq : s.Holds Q) :
    ((State.sendLand s ctx kind l bits)).Holds Q := by
  unfold State.sendLand
  try dsimp only
  repeat' first
    | with_reducible assumption
    | intro _
    | with_reducible apply State.peerSend_holds

theorem State.landUp_holds {Q : List Instr} (s : State) (p l : Nat) (hq : s.Holds Q) :
    ((State.landUp s p l)).Holds Q := by
  unfold State.landUp
  try dsimp only
  repeat' first
    | with_reducible assumption
    | intro _
    | with_reducible apply State.takeFaults_holds
    | with_reducible apply State.upLanding_holds
    | with_reducible apply State.sendLand_holds
    | with_reducible apply State.ite_holds
    | split

theorem State.syncEval_holds {Q : List Instr} (s : State) (p l : Nat) (hq : s.Holds Q) :
    ((State.syncEval s p l)).Holds Q := by
  unfold State.syncEval
  try dsimp only
  repeat' first
    | with_reducible assumption
    | intro _
    | with_reducible apply State.emit_holds
    | with_reducible apply State.upLanding_holds
    | with_reducible apply State.sendLand_holds
    | with_reducible apply State.takeFaults_holds
    | with_reducible apply State.ite_holds
    | with_reducible apply State.foldl_holds
    | with_reducible apply State.foldl_holds_fst
    | split

theorem State.landGroup_holds {Q : List Instr} (s : State) (p : Nat) (hq : s.Holds Q) :
    ((State.landGroup s p)).Holds Q := by
  unfold State.landGroup
  try dsimp only
  repeat' first
    | with_reducible assumption
    | intro _
    | with_reducible apply State.landUp_holds
    | with_reducible apply State.syncEval_holds
    | with_reducible apply State.ite_holds
    | with_reducible apply State.foldl_holds
    | with_reducible apply State.foldl_holds_fst
    | split

theorem State.landAnomaly_holds {Q : List Instr} (s : State) (p l : Nat) (hq : s.Holds Q) :
    ((State.landAnomaly s p l)).Holds Q := by
  unfold State.landAnomaly
  try dsimp only
  repeat' first
    | with_reducible assumption
    | intro _
    | with_reducible apply State.inc_holds
    | with_reducible apply State.event_holds
    | with_reducible apply State.upPart_holds
    | with_reducible apply State.ite_holds
    | split

theorem State.unhold_holds {Q : List Instr} (s : State) (n l : Nat) (hq : s.Holds Q) :
    ((State.unhold s n l)).Holds Q := by
  unfold State.unhold
  try dsimp only
  repeat' first
    | with_reducible assumption
    | with_reducible apply State.inc_holds
    | with_reducible apply State.setWait_holds
    | with_reducible apply State.ite_holds
    | split

theorem State.landStop_holds {Q : List Instr} (s : State) (p l : Nat) (hq : s.Holds Q) :
    ((State.landStop s p l)).Holds Q := by
  unfold State.landStop
  try dsimp only
  repeat' first
    | with_reducible assumption
    | intro _
    | with_reducible apply State.upTile_holds
    | with_reducible apply State.upPart_holds
    | with_reducible apply State.event_holds
    | with_reducible apply State.ite_holds
    | with_reducible apply State.foldl_holds
    | with_reducible apply State.foldl_holds_fst
    | split

theorem State.landDone_holds {Q : List Instr} (s : State) (p l bits : Nat) (mid : State → State) (hm : ∀ s : State, s.Holds Q → (mid s).Holds Q) (hq : s.Holds Q) :
    ((State.landDone s p l bits mid)).Holds Q := by
  unfold State.landDone
  try dsimp only
  repeat' first
    | with_reducible assumption
    | intro _
    | with_reducible apply State.takeFaults_holds
    | with_reducible apply State.wreg_holds
    | with_reducible apply State.w_holds
    | with_reducible apply State.upPart_holds
    | with_reducible apply State.sendLand_holds
    | with_reducible apply State.landAnomaly_holds
    | with_reducible apply State.landStop_holds
    | with_reducible apply State.unhold_holds
    | with_reducible apply State.ite_holds
    | with_reducible apply State.foldl_holds
    | with_reducible apply State.foldl_holds_fst
    | split
    | apply hm

end Sys2Proof.Machine
end

