-- ==== Sys2Proof/Laws/HoldsMemory.lean ====
section
/-! SUPPORT. The functions on states of the page map, frames, galleries, prefetch, spill and collectives keep the queue and the canonical form of frame memory (`State.Holds`). -/

namespace Sys2Proof.Machine

theorem State.useGroup_holds {Q : List Instr} (s : State) (ch g : Nat) (hq : s.Holds Q) :
    ((State.useGroup s ch g)).Holds Q := by
  unfold State.useGroup
  try dsimp only
  iterate 30 try any_goals first
    | with_reducible assumption
    | with_reducible apply State.inc_holds
    | with_reducible apply State.ite_holds
    | split
    | with_reducible apply State.holds_mk

theorem State.useCheck_holds {Q : List Instr} (s : State) (f l : Nat) (hq : s.Holds Q) :
    ((State.useCheck s f l)).Holds Q := by
  unfold State.useCheck
  try dsimp only
  repeat' first
    | with_reducible assumption
    | with_reducible apply State.useGroup_holds

theorem State.useFrame_holds {Q : List Instr} (s : State) (f : Nat) (hq : s.Holds Q) :
    ((State.useFrame s f)).Holds Q := by
  unfold State.useFrame
  try dsimp only
  iterate 30 try any_goals first
    | with_reducible assumption
    | intro _
    | with_reducible apply State.inc_holds
    | with_reducible apply State.ite_holds
    | with_reducible apply State.foldl_holds
    | with_reducible apply State.foldl_holds_fst
    | split
    | with_reducible apply State.holds_mk

theorem State.setFrameLine_holds {Q : List Instr} (s : State) (f l : Nat) (v : FrameLine) (hq : s.Holds Q) :
    ((State.setFrameLine s f l v)).Holds Q := ⟨hq.1, Sparse.wf_put _ _ _ _ hq.2⟩

theorem State.writeFrame_holds {Q : List Instr} (s : State) (f l data : Nat) (poison : Bool) (hq : s.Holds Q) :
    ((State.writeFrame s f l data poison)).Holds Q := by
  unfold State.writeFrame
  try dsimp only
  repeat' first
    | with_reducible assumption
    | with_reducible apply State.useCheck_holds
    | with_reducible apply State.setFrameLine_holds

theorem State.clearFrame_holds {Q : List Instr} (s : State) (f : Nat) (hq : s.Holds Q) :
    ((State.clearFrame s f)).Holds Q := by
  have h := State.useFrame_holds s f hq
  unfold State.clearFrame
  generalize s.useFrame f = u at h ⊢
  exact ⟨h.1, Sparse.wf_dropRange _ _ _ _ hq.2⟩

theorem State.retireFrame_holds {Q : List Instr} (s : State) (f : Nat) (hq : s.Holds Q) :
    ((State.retireFrame s f)).Holds Q := by
  unfold State.retireFrame
  try dsimp only
  iterate 30 try any_goals first
    | with_reducible assumption
    | intro _
    | with_reducible apply State.mssLog_holds
    | with_reducible apply State.persist_holds
    | with_reducible apply State.ite_holds
    | split
    | with_reducible apply State.holds_mk

theorem State.memLost_holds {Q : List Instr} (s : State) (e l : Nat) (failed : Bool) (hq : s.Holds Q) :
    ((State.memLost s e l failed)).Holds Q := by
  unfold State.memLost
  try dsimp only
  iterate 30 try any_goals first
    | with_reducible assumption
    | with_reducible apply State.event_holds
    | with_reducible apply State.ite_holds
    | split
    | with_reducible apply State.holds_mk

theorem State.loseLine_holds {Q : List Instr} (s : State) (f l : Nat) (failed : Bool) (hq : s.Holds Q) :
    ((State.loseLine s f l failed)).Holds Q := by
  unfold State.loseLine
  try dsimp only
  repeat' first
    | with_reducible assumption
    | with_reducible apply State.writeFrame_holds
    | with_reducible apply State.setPage_holds
    | with_reducible apply State.memLost_holds
    | split

theorem State.startRepair_holds {Q : List Instr} (s : State) (e l : Nat) (hall : Option Nat) (hq : s.Holds Q) :
    ((State.startRepair s e l hall)).Holds Q := by
  unfold State.startRepair
  try dsimp only
  iterate 30 try any_goals first
    | with_reducible assumption
    | intro _
    | with_reducible apply State.inc_holds
    | with_reducible apply State.peerSend_holds
    | split
    | with_reducible apply State.holds_mk

theorem State.frameUe_holds {Q : List Instr} (s : State) (f l : Nat) (hall : Option Nat) (scrub : Bool) (hq : s.Holds Q) :
    ((State.frameUe s f l hall scrub).1).Holds Q := by
  unfold State.frameUe
  try dsimp only
  repeat' first
    | with_reducible assumption
    | with_reducible apply State.inc_holds
    | with_reducible apply State.wreg_holds
    | with_reducible apply State.startRepair_holds
    | with_reducible apply State.loseLine_holds
    | with_reducible apply State.ite_holds
    | split

theorem State.classifyFrame_holds {Q : List Instr} (s : State) (f l : Nat) (hall : Option Nat) (scrub : Bool) (hq : s.Holds Q) :
    ((State.classifyFrame s f l hall scrub).1).Holds Q := by
  unfold State.classifyFrame
  try dsimp only
  repeat' first
    | with_reducible assumption
    | intro _
    | with_reducible apply State.inc_holds
    | with_reducible apply State.ceDram_holds
    | with_reducible apply State.setFrameLine_holds
    | with_reducible apply State.frameUe_holds
    | with_reducible apply State.ite_holds
    | split

theorem State.readFrame_holds {Q : List Instr} (s : State) (f l : Nat) (hall : Option Nat) (scrub : Bool) (hq : s.Holds Q) :
    ((State.readFrame s f l hall scrub).1).Holds Q := by
  unfold State.readFrame
  try dsimp only
  repeat' first
    | with_reducible assumption
    | with_reducible apply State.useCheck_holds
    | with_reducible apply State.classifyFrame_holds

theorem State.upSlot_holds {Q : List Instr} (s : State) (h k : Nat) (f : Slot → Slot) (hq : s.Holds Q) :
    ((State.upSlot s h k f)).Holds Q := by
  unfold State.upSlot
  try dsimp only
  repeat' first
    | with_reducible assumption
    | intro _
    | with_reducible apply State.upHall_holds

theorem State.setSlot_holds {Q : List Instr} (s : State) (h k : Nat) (v : Slot) (hq : s.Holds Q) :
    ((State.setSlot s h k v)).Holds Q := by
  unfold State.setSlot
  try dsimp only
  repeat' first
    | with_reducible assumption
    | intro _
    | with_reducible apply State.upHall_holds

theorem State.freeSlot_holds {Q : List Instr} (s : State) (h k : Nat) (hq : s.Holds Q) :
    ((State.freeSlot s h k)).Holds Q := by
  unfold State.freeSlot
  try dsimp only
  iterate 30 try any_goals first
    | with_reducible assumption
    | intro _
    | with_reducible apply State.upHall_holds
    | with_reducible apply State.holds_mk

theorem State.galleryUe_holds {Q : List Instr} (s : State) (h k l : Nat) (hq : s.Holds Q) :
    ((State.galleryUe s h k l)).Holds Q := by
  unfold State.galleryUe
  try dsimp only
  repeat' first
    | with_reducible assumption
    | intro _
    | with_reducible apply State.inc_holds
    | with_reducible apply State.wreg_holds
    | with_reducible apply State.partFault_holds
    | with_reducible apply State.upHall_holds
    | with_reducible apply State.event_holds
    | with_reducible apply State.ite_holds
    | split

theorem State.readSlot_holds {Q : List Instr} (s : State) (h k l : Nat) (hq : s.Holds Q) :
    ((State.readSlot s h k l).1).Holds Q := by
  unfold State.readSlot
  try dsimp only
  repeat' first
    | with_reducible assumption
    | intro _
    | with_reducible apply State.inc_holds
    | with_reducible apply State.ceSram_holds
    | with_reducible apply State.w_holds
    | with_reducible apply State.galleryUe_holds
    | with_reducible apply State.upSlot_holds
    | with_reducible apply State.ite_holds
    | split

theorem State.touchSlot_holds {Q : List Instr} (s : State) (h k : Nat) (hq : s.Holds Q) :
    ((State.touchSlot s h k)).Holds Q := by
  unfold State.touchSlot
  try dsimp only
  iterate 30 try any_goals first
    | with_reducible assumption
    | intro _
    | with_reducible apply State.upSlot_holds
    | with_reducible apply State.holds_mk

theorem State.slotValue_holds {Q : List Instr} (s : State) (h k a : Nat) (hq : s.Holds Q) :
    ((State.slotValue s h k a).1).Holds Q := by
  unfold State.slotValue
  try dsimp only
  repeat' first
    | with_reducible assumption
    | intro _
    | with_reducible apply State.touchSlot_holds
    | with_reducible apply State.readSlot_holds
    | with_reducible apply State.readFrame_holds
    | with_reducible apply State.upSlot_holds
    | split

theorem State.readLineFor_holds {Q : List Instr} (s : State) (hall : Option Nat) (a : Nat) (hq : s.Holds Q) :
    ((State.readLineFor s hall a).1).Holds Q := by
  unfold State.readLineFor
  try dsimp only
  repeat' first
    | with_reducible assumption
    | intro _
    | with_reducible apply State.slotValue_holds
    | with_reducible apply State.readFrame_holds
    | split

theorem State.readLine_holds {Q : List Instr} (s : State) (a : Nat) (hq : s.Holds Q) :
    ((State.readLine s a).1).Holds Q := by
  unfold State.readLine
  try dsimp only
  repeat' first
    | with_reducible assumption
    | with_reducible apply State.readLineFor_holds

theorem State.storeSlot_holds {Q : List Instr} (s : State) (h k l : Nat) (v : LineVal) (hq : s.Holds Q) :
    ((State.storeSlot s h k l v)).Holds Q := by
  unfold State.storeSlot
  try dsimp only
  repeat' first
    | with_reducible assumption
    | intro _
    | with_reducible apply State.touchSlot_holds
    | with_reducible apply State.upSlot_holds
    | with_reducible apply State.ite_holds
    | split

theorem State.markWsc_holds {Q : List Instr} (s : State) (e : Nat) (hq : s.Holds Q) :
    ((State.markWsc s e)).Holds Q := by
  unfold State.markWsc
  try dsimp only
  repeat' first
    | with_reducible assumption
    | with_reducible apply State.setPage_holds

theorem State.storeFrame_holds {Q : List Instr} (s : State) (a : Nat) (v : LineVal) (hq : s.Holds Q) :
    ((State.storeFrame s a v)).Holds Q := by
  unfold State.storeFrame
  try dsimp only
  iterate 30 try any_goals first
    | with_reducible assumption
    | intro _
    | with_reducible apply State.writeFrame_holds
    | with_reducible apply State.markWsc_holds
    | with_reducible apply State.ite_holds
    | split
    | with_reducible apply State.holds_mk

theorem State.writeLineFor_holds {Q : List Instr} (s : State) (hall : Option Nat) (a : Nat) (data : BitVec 512) (mask : BitVec 64) (poison : Bool) (hq : s.Holds Q) :
    ((State.writeLineFor s hall a data mask poison).1).Holds Q := by
  unfold State.writeLineFor
  try dsimp only
  repeat' first
    | with_reducible assumption
    | intro _
    | with_reducible apply State.readLineFor_holds
    | with_reducible apply State.storeSlot_holds
    | with_reducible apply State.storeFrame_holds
    | with_reducible apply State.ite_holds
    | split

theorem State.writeLine_holds {Q : List Instr} (s : State) (a : Nat) (data : BitVec 512) (mask : BitVec 64) (poison : Bool) (hq : s.Holds Q) :
    ((State.writeLine s a data mask poison).1).Holds Q := by
  unfold State.writeLine
  try dsimp only
  repeat' first
    | with_reducible assumption
    | with_reducible apply State.writeLineFor_holds

theorem State.readLines_holds {Q : List Instr} (s : State) (a k : Nat) (hq : s.Holds Q) :
    ((State.readLines s a k).1).Holds Q := by
  induction k generalizing s a with
  | zero => exact hq
  | succ k ih =>
    unfold State.readLines
    try dsimp only
    repeat' first
      | with_reducible assumption
      | with_reducible apply ih
      | with_reducible apply State.readLine_holds
      | split

theorem State.readBytes_holds {Q : List Instr} (s : State) (a k : Nat) (hq : s.Holds Q) :
    ((State.readBytes s a k).1).Holds Q := by
  unfold State.readBytes
  try dsimp only
  repeat' first
    | with_reducible assumption
    | intro _
    | with_reducible apply State.readLines_holds

theorem State.writeBack_holds {Q : List Instr} (s : State) (h k : Nat) (hq : s.Holds Q) :
    ((State.writeBack s h k)).Holds Q := by
  unfold State.writeBack
  try dsimp only
  repeat' first
    | with_reducible assumption
    | intro _
    | with_reducible apply State.readSlot_holds
    | with_reducible apply State.storeFrame_holds
    | with_reducible apply State.inc_holds
    | with_reducible apply State.upSlot_holds
    | with_reducible apply State.ite_holds
    | with_reducible apply State.foldl_holds
    | with_reducible apply State.foldl_holds_fst
    | split

theorem State.writeLines_holds {Q : List Instr} (s : State) (a : Nat) (L : List LineVal) (hq : s.Holds Q) :
    ((State.writeLines s a L)).Holds Q := by
  induction L generalizing s a with
  | nil => exact hq
  | cons x rest ih =>
    unfold State.writeLines
    try dsimp only
    repeat' first
      | with_reducible assumption
      | with_reducible apply ih
      | intro _
      | with_reducible apply State.writeBack_holds
      | with_reducible apply State.freeSlot_holds
      | with_reducible apply State.storeSlot_holds
      | with_reducible apply State.storeFrame_holds
      | with_reducible apply State.foldl_holds
      | with_reducible apply State.foldl_holds_fst
      | split

theorem State.writeBackHall_holds {Q : List Instr} (s : State) (h : Nat) (hq : s.Holds Q) :
    ((State.writeBackHall s h)).Holds Q := by
  unfold State.writeBackHall
  try dsimp only
  repeat' first
    | with_reducible assumption
    | intro _
    | with_reducible apply State.writeBack_holds
    | with_reducible apply State.foldl_holds
    | with_reducible apply State.foldl_holds_fst

theorem State.dropPage_holds {Q : List Instr} (s : State) (e : Nat) (hq : s.Holds Q) :
    ((State.dropPage s e)).Holds Q := by
  unfold State.dropPage
  try dsimp only
  iterate 30 try any_goals first
    | with_reducible assumption
    | intro _
    | with_reducible apply State.holds_mk

theorem State.writeBackPage_holds {Q : List Instr} (s : State) (e : Nat) (hq : s.Holds Q) :
    ((State.writeBackPage s e)).Holds Q := by
  unfold State.writeBackPage
  try dsimp only
  repeat' first
    | with_reducible assumption
    | intro _
    | with_reducible apply State.writeBack_holds
    | with_reducible apply State.foldl_holds
    | with_reducible apply State.foldl_holds_fst

theorem State.evict_holds {Q : List Instr} (s : State) (h k : Nat) (hq : s.Holds Q) :
    ((State.evict s h k)).Holds Q := by
  unfold State.evict
  try dsimp only
  repeat' first
    | with_reducible assumption
    | intro _
    | with_reducible apply State.freeSlot_holds
    | with_reducible apply State.upSlot_holds
    | with_reducible apply State.ite_holds
    | split

theorem State.dirRoom_holds {Q : List Instr} (s : State) (b : Nat) (hq : s.Holds Q) :
    ((State.dirRoom s b).1).Holds Q := by
  unfold State.dirRoom
  try dsimp only
  repeat' first
    | with_reducible assumption
    | intro _
    | with_reducible apply State.evict_holds
    | with_reducible apply State.inc_holds
    | with_reducible apply State.ite_holds
    | with_reducible apply State.foldl_holds
    | with_reducible apply State.foldl_holds_fst
    | split

theorem State.takeSlot_holds {Q : List Instr} (s : State) (h : Nat) (hq : s.Holds Q) :
    ((State.takeSlot s h).1).Holds Q := by
  unfold State.takeSlot
  try dsimp only
  repeat' first
    | with_reducible assumption
    | intro _
    | with_reducible apply State.freeSlot_holds
    | with_reducible apply State.evict_holds
    | with_reducible apply State.ite_holds
    | split

theorem State.allocSlot_holds {Q : List Instr} (s : State) (h b : Nat) (st : SlotState) (prot : Option Nat) (hq : s.Holds Q) :
    ((State.allocSlot s h b st prot).1).Holds Q := by
  unfold State.allocSlot
  try dsimp only
  iterate 30 try any_goals first
    | with_reducible assumption
    | with_reducible apply State.dirRoom_holds
    | with_reducible apply State.takeSlot_holds
    | with_reducible apply State.setSlot_holds
    | with_reducible apply State.ite_holds
    | split
    | with_reducible apply State.holds_mk

theorem State.memRefuse_holds {Q : List Instr} (s : State) (h p e reason : Nat) (write : Bool) (flight : Nat) (hq : s.Holds Q) :
    ((State.memRefuse s h p e reason write flight)).Holds Q := by
  unfold State.memRefuse
  try dsimp only
  repeat' first
    | with_reducible assumption
    | with_reducible apply State.w_holds
    | with_reducible apply State.wreg_holds
    | with_reducible apply State.partFault_holds
    | with_reducible apply State.event_holds
    | with_reducible apply State.ite_holds
    | split

theorem State.askCopy_holds {Q : List Instr} (s : State) (e : Nat) (hall : Option Nat) (hq : s.Holds Q) :
    ((State.askCopy s e hall)).Holds Q := by
  unfold State.askCopy
  try dsimp only
  iterate 30 try any_goals first
    | with_reducible assumption
    | intro _
    | with_reducible apply State.ite_holds
    | split
    | with_reducible apply State.holds_mk

theorem State.releaseHeld_holds {Q : List Instr} (s : State) (e : Nat) (hq : s.Holds Q) :
    ((State.releaseHeld s e)).Holds Q := by
  unfold State.releaseHeld
  try dsimp only
  iterate 30 try any_goals first
    | with_reducible assumption
    | intro _
    | with_reducible apply State.inc_holds
    | with_reducible apply State.foldl_holds
    | with_reducible apply State.foldl_holds_fst
    | with_reducible apply State.holds_mk

theorem State.mendLost_holds {Q : List Instr} (s : State) (e l : Nat) (hq : s.Holds Q) :
    ((State.mendLost s e l)).Holds Q := by
  unfold State.mendLost
  try dsimp only
  iterate 30 try any_goals first
    | with_reducible assumption
    | intro _
    | with_reducible apply State.startRepair_holds
    | with_reducible apply State.ite_holds
    | split
    | with_reducible apply State.holds_mk

theorem State.copyPage_holds {Q : List Instr} (s : State) (e f : Nat) (mend : Bool) (hq : s.Holds Q) :
    ((State.copyPage s e f mend).1).Holds Q := by
  unfold State.copyPage
  try dsimp only
  repeat' first
    | with_reducible assumption
    | intro _
    | with_reducible apply State.readSlot_holds
    | with_reducible apply State.mendLost_holds
    | with_reducible apply State.readFrame_holds
    | with_reducible apply State.writeFrame_holds
    | with_reducible apply State.useFrame_holds
    | with_reducible apply State.clearFrame_holds
    | with_reducible apply State.ite_holds
    | with_reducible apply State.foldl_holds
    | with_reducible apply State.foldl_holds_fst
    | split

theorem State.upColl_holds {Q : List Instr} (s : State) (p : Nat) (f : Coll → Coll) (hq : s.Holds Q) :
    ((State.upColl s p f)).Holds Q := by
  unfold State.upColl
  try dsimp only
  iterate 30 try any_goals first
    | with_reducible assumption
    | with_reducible apply State.holds_mk

theorem State.holdRead_holds {Q : List Instr} (s : State) (p who a k : Nat) (hq : s.Holds Q) :
    ((State.holdRead s p who a k).1).Holds Q := by
  unfold State.holdRead
  try dsimp only
  repeat' first
    | with_reducible assumption
    | intro _
    | with_reducible apply State.upColl_holds
    | with_reducible apply State.inc_holds
    | with_reducible apply State.ite_holds
    | split

theorem State.collPost_holds {Q : List Instr} (s : State) (p : Nat) (hq : s.Holds Q) :
    ((State.collPost s p)).Holds Q := by
  unfold State.collPost
  try dsimp only
  repeat' first
    | with_reducible assumption
    | intro _
    | with_reducible apply State.upColl_holds
    | with_reducible apply State.ite_holds
    | with_reducible apply State.foldl_holds
    | with_reducible apply State.foldl_holds_fst
    | split

theorem State.contribAccept_holds {Q : List Instr} (s : State) (p b : Nat) (mask : BitVec 64) (hq : s.Holds Q) :
    ((State.contribAccept s p b mask)).Holds Q := by
  unfold State.contribAccept
  try dsimp only
  repeat' first
    | with_reducible assumption
    | intro _
    | with_reducible apply State.upColl_holds
    | with_reducible apply State.collPost_holds

theorem State.contribHold_holds {Q : List Instr} (s : State) (p : Nat) (x : HeldLine) (hq : s.Holds Q) :
    ((State.contribHold s p x)).Holds Q := by
  unfold State.contribHold
  try dsimp only
  repeat' first
    | with_reducible assumption
    | intro _
    | with_reducible apply State.upColl_holds
    | with_reducible apply State.inc_holds

theorem State.contribCount_holds {Q : List Instr} (s : State) (p a : Nat) (mask : BitVec 64) (hq : s.Holds Q) :
    ((State.contribCount s p a mask)).Holds Q := by
  unfold State.contribCount
  try dsimp only
  repeat' first
    | with_reducible assumption
    | with_reducible apply State.contribAccept_holds
    | with_reducible apply State.ite_holds
    | split

theorem State.sensorRead_holds {Q : List Instr} (s : State) (i : Nat) (v : Int) (hq : s.Holds Q) :
    ((State.sensorRead s i v)).Holds Q := by
  unfold State.sensorRead
  try dsimp only
  repeat' first
    | with_reducible assumption
    | intro _
    | with_reducible apply State.wreg_holds
    | with_reducible apply State.upMss_holds
    | with_reducible apply State.w_holds
    | with_reducible apply State.emit_holds
    | with_reducible apply State.ite_holds
    | split

theorem State.giveLine_holds {Q : List Instr} (s : State) (n id a : Nat) (v : LineVal) (hq : s.Holds Q) :
    ((State.giveLine s n id a v)).Holds Q := by
  unfold State.giveLine
  try dsimp only
  iterate 30 try any_goals first
    | with_reducible assumption
    | intro _
    | with_reducible apply State.upTile_holds
    | with_reducible apply State.w_holds
    | with_reducible apply State.holds_mk

theorem State.waitLine_holds {Q : List Instr} (s : State) (n id a : Nat) (hq : s.Holds Q) :
    ((State.waitLine s n id a)).Holds Q := by
  unfold State.waitLine
  try dsimp only
  iterate 30 try any_goals first
    | with_reducible assumption
    | with_reducible apply State.ite_holds
    | split
    | with_reducible apply State.holds_mk

theorem State.pfLate_holds {Q : List Instr} (s : State) (h entry flight : Nat) (hq : s.Holds Q) :
    ((State.pfLate s h entry flight)).Holds Q := by
  unfold State.pfLate
  try dsimp only
  repeat' first
    | with_reducible assumption
    | with_reducible apply State.inc_holds
    | with_reducible apply State.w_holds
    | with_reducible apply State.ite_holds
    | split

theorem State.copySlot_holds {Q : List Instr} (s : State) (h k h' k' : Nat) (hq : s.Holds Q) :
    ((State.copySlot s h k h' k')).Holds Q := by
  unfold State.copySlot
  try dsimp only
  repeat' first
    | with_reducible assumption
    | intro _
    | with_reducible apply State.readSlot_holds
    | with_reducible apply State.upSlot_holds
    | with_reducible apply State.foldl_holds
    | with_reducible apply State.foldl_holds_fst
    | split

theorem State.takeRead_holds {Q : List Instr} (s : State) (h : Nat) (hq : s.Holds Q) :
    ((State.takeRead s h)).Holds Q := by
  unfold State.takeRead
  try dsimp only
  repeat' first
    | with_reducible assumption
    | with_reducible apply State.hwm_holds

theorem State.hallRead_holds {Q : List Instr} (s : State) (h cls a : Nat) (hq : s.Holds Q) :
    ((State.hallRead s h cls a).1).Holds Q := by
  unfold State.hallRead
  try dsimp only
  repeat' first
    | with_reducible assumption
    | intro _
    | with_reducible apply State.upSlot_holds
    | with_reducible apply State.slotValue_holds
    | with_reducible apply State.takeRead_holds
    | with_reducible apply State.inc_holds
    | with_reducible apply State.allocSlot_holds
    | with_reducible apply State.copySlot_holds
    | with_reducible apply State.ite_holds
    | split

theorem State.serveRead_holds {Q : List Instr} (s : State) (n id a flight : Nat) (hq : s.Holds Q) :
    ((State.serveRead s n id a flight)).Holds Q := by
  unfold State.serveRead
  try dsimp only
  repeat' first
    | with_reducible assumption
    | intro _
    | with_reducible apply State.giveLine_holds
    | with_reducible apply State.waitLine_holds
    | with_reducible apply State.hallRead_holds
    | with_reducible apply State.pfLate_holds
    | with_reducible apply State.ite_holds
    | split

theorem State.serveJoined_holds {Q : List Instr} (s : State) (n id a flight : Nat) (hq : s.Holds Q) :
    ((State.serveJoined s n id a flight)).Holds Q := by
  unfold State.serveJoined
  try dsimp only
  repeat' first
    | with_reducible assumption
    | intro _
    | with_reducible apply State.takeRead_holds
    | with_reducible apply State.inc_holds
    | with_reducible apply State.slotValue_holds
    | with_reducible apply State.giveLine_holds
    | with_reducible apply State.serveRead_holds
    | with_reducible apply State.ite_holds
    | split

theorem State.answerRead_holds {Q : List Instr} (s : State) (p : Nat) (x : PeerRead) (hq : s.Holds Q) :
    ((State.answerRead s p x).1).Holds Q := by
  unfold State.answerRead
  try dsimp only
  repeat' first
    | with_reducible assumption
    | intro _
    | with_reducible apply State.peerSend_holds
    | with_reducible apply State.partFault_holds
    | with_reducible apply State.event_holds
    | with_reducible apply State.readLines_holds
    | with_reducible apply State.ite_holds
    | split

theorem State.servePeerReads_holds {Q : List Instr} (s : State) (hq : s.Holds Q) :
    ((State.servePeerReads s)).Holds Q := by
  unfold State.servePeerReads
  try dsimp only
  iterate 30 try any_goals first
    | with_reducible assumption
    | intro _
    | with_reducible apply State.answerRead_holds
    | with_reducible apply State.ite_holds
    | with_reducible apply State.foldl_holds
    | with_reducible apply State.foldl_holds_fst
    | split
    | with_reducible apply State.holds_mk

theorem State.serveWaits_holds {Q : List Instr} (s : State) (h a : Nat) (v : LineVal) (hq : s.Holds Q) :
    ((State.serveWaits s h a v)).Holds Q := by
  unfold State.serveWaits
  try dsimp only
  repeat' first
    | with_reducible assumption
    | intro _
    | with_reducible apply State.w_holds
    | with_reducible apply State.inc_holds
    | with_reducible apply State.giveLine_holds
    | with_reducible apply State.ite_holds
    | with_reducible apply State.foldl_holds
    | with_reducible apply State.foldl_holds_fst
    | split

theorem State.outTaken_holds {Q : List Instr} (s : State) (n : Nat) (l : LineOut) (peer : Option (Nat × Nat)) (held : Bool) (hq : s.Holds Q) :
    ((State.outTaken s n l peer held)).Holds Q := by
  unfold State.outTaken
  try dsimp only
  repeat' first
    | with_reducible assumption
    | intro _
    | with_reducible apply State.upTile_holds
    | with_reducible apply State.complete_holds
    | with_reducible apply State.stWindow_holds
    | with_reducible apply State.ite_holds
    | split

theorem State.hallWrite_holds {Q : List Instr} (s : State) (h a : Nat) (data : BitVec 512) (mask : BitVec 64) (poison : Bool) (hq : s.Holds Q) :
    ((State.hallWrite s h a data mask poison).1).Holds Q := by
  unfold State.hallWrite
  try dsimp only
  repeat' first
    | with_reducible assumption
    | with_reducible apply State.writeLineFor_holds
    | with_reducible apply State.readLineFor_holds
    | with_reducible apply State.allocSlot_holds
    | with_reducible apply State.storeSlot_holds
    | with_reducible apply State.ite_holds
    | split

theorem State.ownWrite_holds {Q : List Instr} (s : State) (n p : Nat) (l : LineOut) (flight : Nat) (hq : s.Holds Q) :
    ((State.ownWrite s n p l flight).1).Holds Q := by
  unfold State.ownWrite
  try dsimp only
  repeat' first
    | with_reducible assumption
    | with_reducible apply State.memRefuse_holds
    | with_reducible apply State.outTaken_holds
    | with_reducible apply State.askCopy_holds
    | with_reducible apply State.hallWrite_holds
    | with_reducible apply State.ite_holds
    | split

theorem State.sharePage_holds {Q : List Instr} (s : State) (e : Nat) (hq : s.Holds Q) :
    ((State.sharePage s e)).Holds Q := by
  unfold State.sharePage
  try dsimp only
  iterate 30 try any_goals first
    | with_reducible assumption
    | intro _
    | with_reducible apply State.writeBackPage_holds
    | with_reducible apply State.ite_holds
    | split
    | with_reducible apply State.holds_mk

theorem State.applyEntry_holds {Q : List Instr} (s : State) (e : Nat) (new : BitVec 64) (hq : s.Holds Q) :
    ((State.applyEntry s e new)).Holds Q := by
  unfold State.applyEntry
  try dsimp only
  repeat' first
    | with_reducible assumption
    | with_reducible apply State.sharePage_holds
    | with_reducible apply State.dropPage_holds
    | with_reducible apply State.setPage_holds
    | with_reducible apply State.retireFrame_holds
    | with_reducible apply State.ite_holds
    | split

theorem State.repairFail_holds {Q : List Instr} (s : State) (e l : Nat) (hq : s.Holds Q) :
    ((State.repairFail s e l)).Holds Q := by
  unfold State.repairFail
  try dsimp only
  iterate 30 try any_goals first
    | with_reducible assumption
    | intro _
    | with_reducible apply State.inc_holds
    | with_reducible apply State.loseLine_holds
    | with_reducible apply State.ite_holds
    | split
    | with_reducible apply State.holds_mk

theorem State.repairLine_holds {Q : List Instr} (s : State) (e l data : Nat) (hq : s.Holds Q) :
    ((State.repairLine s e l data)).Holds Q := by
  unfold State.repairLine
  try dsimp only
  iterate 30 try any_goals first
    | with_reducible assumption
    | intro _
    | with_reducible apply State.inc_holds
    | with_reducible apply State.writeFrame_holds
    | with_reducible apply State.ite_holds
    | split
    | with_reducible apply State.holds_mk

theorem State.upPf_holds {Q : List Instr} (s : State) (p : Nat) (f : Prefetch → Prefetch) (hq : s.Holds Q) :
    ((State.upPf s p f)).Holds Q := by
  unfold State.upPf
  try dsimp only
  iterate 30 try any_goals first
    | with_reducible assumption
    | with_reducible apply State.holds_mk

theorem State.pfMark_holds {Q : List Instr} (s : State) (p : Nat) (x : PfEntry) (hq : s.Holds Q) :
    ((State.pfMark s p x)).Holds Q := by
  unfold State.pfMark
  try dsimp only
  iterate 30 try any_goals first
    | with_reducible assumption
    | intro _
    | with_reducible apply State.ite_holds
    | split
    | with_reducible apply State.holds_mk

theorem State.pfShow_holds {Q : List Instr} (s : State) (p : Nat) (hq : s.Holds Q) :
    ((State.pfShow s p)).Holds Q := by
  unfold State.pfShow
  try dsimp only
  repeat' first
    | with_reducible assumption
    | with_reducible apply State.w_holds

theorem State.pfLoop_holds {Q : List Instr} (p n k : Nat) (s : State) (hq : s.Holds Q) :
    ((State.pfLoop p n k s)).Holds Q := by
  induction k generalizing s with
  | zero => exact hq
  | succ k ih =>
    unfold State.pfLoop
    try dsimp only
    repeat' first
      | with_reducible assumption
      | with_reducible apply ih
      | intro _
      | with_reducible apply State.upPf_holds
      | with_reducible apply State.pfMark_holds
      | with_reducible apply State.ite_holds
      | split

theorem State.pfActivate_holds {Q : List Instr} (s : State) (p n : Nat) (hq : s.Holds Q) :
    ((State.pfActivate s p n)).Holds Q := by
  unfold State.pfActivate
  try dsimp only
  repeat' first
    | with_reducible assumption
    | with_reducible apply State.pfLoop_holds
    | with_reducible apply State.pfShow_holds

theorem State.fillSlot_holds {Q : List Instr} (s : State) (h k b : Nat) (hq : s.Holds Q) :
    ((State.fillSlot s h k b).1).Holds Q := by
  unfold State.fillSlot
  try dsimp only
  repeat' first
    | with_reducible assumption
    | intro _
    | with_reducible apply State.readFrame_holds
    | with_reducible apply State.upSlot_holds
    | with_reducible apply State.takeRead_holds
    | with_reducible apply State.ite_holds
    | with_reducible apply State.foldl_holds
    | with_reducible apply State.foldl_holds_fst
    | split

theorem State.pfSettle_holds {Q : List Instr} (s : State) (h k t : Nat) (rs : Bool) (hq : s.Holds Q) :
    ((State.pfSettle s h k t rs)).Holds Q := by
  unfold State.pfSettle
  try dsimp only
  iterate 30 try any_goals first
    | with_reducible assumption
    | intro _
    | with_reducible apply State.upSlot_holds
    | with_reducible apply State.ite_holds
    | split
    | with_reducible apply State.holds_mk

theorem State.pfPlace_holds {Q : List Instr} (s : State) (h b t : Nat) (rs : Bool) (hq : s.Holds Q) :
    ((State.pfPlace s h b t rs).1).Holds Q := by
  unfold State.pfPlace
  try dsimp only
  repeat' first
    | with_reducible assumption
    | intro _
    | with_reducible apply State.fillSlot_holds
    | with_reducible apply State.inc_holds
    | with_reducible apply State.pfSettle_holds
    | with_reducible apply State.allocSlot_holds
    | with_reducible apply State.copySlot_holds
    | with_reducible apply State.freeSlot_holds
    | with_reducible apply State.upSlot_holds
    | with_reducible apply State.ite_holds
    | split

theorem State.spWrite_holds {Q : List Instr} (s : State) (n j p off : Nat) (L : List LineVal) (hq : s.Holds Q) :
    ((State.spWrite s n j p off L).1).Holds Q := by
  induction L generalizing s off with
  | nil => exact hq
  | cons x rest ih =>
    unfold State.spWrite
    try dsimp only
    repeat' first
      | with_reducible assumption
      | with_reducible apply ih
      | with_reducible apply State.writeFrame_holds
      | with_reducible apply State.memRefuse_holds
      | with_reducible apply State.contribHold_holds
      | with_reducible apply State.askCopy_holds
      | with_reducible apply State.hallWrite_holds
      | with_reducible apply State.contribCount_holds
      | with_reducible apply State.ite_holds
      | split

theorem State.spRead_holds {Q : List Instr} (s : State) (n j p off m : Nat) (hq : s.Holds Q) :
    ((State.spRead s n j p off m).1).Holds Q := by
  induction m generalizing s off with
  | zero => exact hq
  | succ k ih =>
    unfold State.spRead
    try dsimp only
    repeat' first
      | with_reducible assumption
      | with_reducible apply ih
      | with_reducible apply State.readFrame_holds
      | with_reducible apply State.memRefuse_holds
      | with_reducible apply State.holdRead_holds
      | with_reducible apply State.hallRead_holds
      | with_reducible apply State.ite_holds
      | split

theorem State.collSend_holds {Q : List Instr} (s : State) (p ctx d : Nat) (x : CollIn) (hq : s.Holds Q) :
    ((State.collSend s p ctx d x)).Holds Q := by
  unfold State.collSend
  try dsimp only
  repeat' first
    | with_reducible assumption
    | intro _
    | with_reducible apply State.w_holds
    | with_reducible apply State.peerSend_holds
    | with_reducible apply State.inc_holds
    | with_reducible apply State.ite_holds
    | with_reducible apply State.foldl_holds
    | with_reducible apply State.foldl_holds_fst
    | split

theorem State.upRun_holds {Q : List Instr} (s : State) (p b : Nat) (f : CollRun → CollRun) (hq : s.Holds Q) :
    ((State.upRun s p b f)).Holds Q := by
  unfold State.upRun
  try dsimp only
  repeat' first
    | with_reducible assumption
    | intro _
    | with_reducible apply State.upColl_holds
    | with_reducible apply State.ite_holds
    | split

theorem State.collFailed_holds {Q : List Instr} (s : State) (p b why : Nat) (hq : s.Holds Q) :
    ((State.collFailed s p b why)).Holds Q := by
  unfold State.collFailed
  try dsimp only
  repeat' first
    | with_reducible assumption
    | intro _
    | with_reducible apply State.upRun_holds
    | with_reducible apply State.ite_holds
    | split

theorem State.collDid_holds {Q : List Instr} (s : State) (p b : Nat) (k : Nat × Nat × Nat) (hq : s.Holds Q) :
    ((State.collDid s p b k)).Holds Q := by
  unfold State.collDid
  try dsimp only
  repeat' first
    | with_reducible assumption
    | intro _
    | with_reducible apply State.upRun_holds

theorem State.collPut_holds {Q : List Instr} (s : State) (p : Nat) (x : CollIn) (hq : s.Holds Q) :
    ((State.collPut s p x)).Holds Q := by
  unfold State.collPut
  try dsimp only
  repeat' first
    | with_reducible assumption
    | intro _
    | with_reducible apply State.upColl_holds

theorem State.collRead_holds {Q : List Instr} (s : State) (p a k : Nat) (hq : s.Holds Q) :
    ((State.collRead s p a k).1).Holds Q := by
  unfold State.collRead
  extract_lets es r
  clear_value es
  split
  · exact State.event_holds _ _ _ _ hq
  · exact State.readBytes_holds _ _ _ hq

theorem State.collMayWrite_holds {Q : List Instr} (s : State) (p a k : Nat) (hq : s.Holds Q) :
    ((State.collMayWrite s p a k).1).Holds Q := by
  unfold State.collMayWrite
  extract_lets o
  clear_value o
  split
  · exact hq
  · split
    · exact State.event_holds _ _ _ _ hq
    · exact hq

theorem State.collWrite_holds {Q : List Instr} (s : State) (p a : Nat) (L : List LineVal) (hq : s.Holds Q) :
    ((State.collWrite s p a L).1).Holds Q := by
  induction L generalizing s a with
  | nil => exact hq
  | cons x rest ih =>
    unfold State.collWrite
    try dsimp only
    repeat' first
      | with_reducible assumption
      | with_reducible apply ih
      | with_reducible apply State.event_holds
      | with_reducible apply State.contribHold_holds
      | with_reducible apply State.askCopy_holds
      | with_reducible apply State.writeLine_holds
      | with_reducible apply State.contribCount_holds
      | with_reducible apply State.ite_holds
      | split

theorem State.collMark_holds {Q : List Instr} (s : State) (p a k : Nat) (hq : s.Holds Q) :
    ((State.collMark s p a k).1).Holds Q := by
  induction k generalizing s a with
  | zero => exact hq
  | succ k ih =>
    unfold State.collMark
    try dsimp only
    repeat' first
      | with_reducible assumption
      | with_reducible apply ih
      | with_reducible apply State.collWrite_holds
      | with_reducible apply State.ite_holds
      | split

theorem State.collSource_holds {Q : List Instr} (s : State) (p b : Nat) (hq : s.Holds Q) :
    ((State.collSource s p b).1).Holds Q := by
  unfold State.collSource
  extract_lets d rop m w wide bad fin
  have hf : ∀ r v, r.1.Holds Q → (fin r v).1.Holds Q := by
    intro r v h
    simp only [fin]
    split <;> exact h
  clear_value fin bad wide w m rop d
  split
  · dsimp only
    split <;> exact State.collRead_holds _ _ _ _ hq
  · split
    · exact hf _ _ (State.collRead_holds _ _ _ _ hq)
    · split
      · exact hf _ _ (State.collRead_holds _ _ _ _ hq)
      · exact hq

theorem State.toHost_holds {Q : List Instr} (s : State) (p d i : Nat) (x : CollIn) (hq : s.Holds Q) :
    ((State.toHost s p d i x)).Holds Q := by
  unfold State.toHost
  try dsimp only
  repeat' first
    | with_reducible assumption
    | with_reducible apply State.collPut_holds
    | with_reducible apply State.collSend_holds
    | with_reducible apply State.ite_holds
    | split

theorem State.reduceStart_holds {Q : List Instr} (s : State) (p b : Nat) (el : List (Nat × Bool)) (bad : List Nat) (ver : Nat × Nat) (hq : s.Holds Q) :
    ((State.reduceStart s p b el bad ver)).Holds Q := by
  unfold State.reduceStart
  try dsimp only
  repeat' first
    | with_reducible assumption
    | intro _
    | with_reducible apply State.collRead_holds
    | with_reducible apply State.toHost_holds
    | with_reducible apply State.collFailed_holds
    | with_reducible apply State.upRun_holds
    | with_reducible apply State.collPut_holds
    | with_reducible apply State.replicate_holds
    | with_reducible apply State.ite_holds
    | with_reducible apply State.foldl_holds
    | with_reducible apply State.foldl_holds_fst
    | split

theorem State.collStart_holds {Q : List Instr} (s : State) (p b : Nat) (hq : s.Holds Q) :
    ((State.collStart s p b)).Holds Q := by
  unfold State.collStart
  try dsimp only
  repeat' first
    | with_reducible assumption
    | intro _
    | with_reducible apply State.upRun_holds
    | with_reducible apply State.collSource_holds
    | with_reducible apply State.collFailed_holds
    | with_reducible apply State.collPut_holds
    | with_reducible apply State.toHost_holds
    | with_reducible apply State.upColl_holds
    | with_reducible apply State.reduceStart_holds
    | with_reducible apply State.ite_holds
    | with_reducible apply State.foldl_holds
    | with_reducible apply State.foldl_holds_fst
    | split

theorem State.pathNode_holds {Q : List Instr} (s : State) (p b z : Nat) (hq : s.Holds Q) :
    ((State.pathNode s p b z)).Holds Q := by
  unfold State.pathNode
  try dsimp only
  repeat' first
    | with_reducible assumption
    | intro _
    | with_reducible apply State.collFailed_holds
    | with_reducible apply State.collPut_holds
    | with_reducible apply State.ite_holds
    | with_reducible apply State.foldl_holds
    | with_reducible apply State.foldl_holds_fst
    | split

theorem State.pathRing_holds {Q : List Instr} (s : State) (p b z : Nat) (hq : s.Holds Q) :
    ((State.pathRing s p b z)).Holds Q := by
  unfold State.pathRing
  try dsimp only
  repeat' first
    | with_reducible assumption
    | intro _
    | with_reducible apply State.collPut_holds
    | with_reducible apply State.collSend_holds
    | with_reducible apply State.collDid_holds
    | with_reducible apply State.collFailed_holds
    | with_reducible apply State.ite_holds
    | split

theorem State.pathOwner_holds {Q : List Instr} (s : State) (p b : Nat) (hq : s.Holds Q) :
    ((State.pathOwner s p b)).Holds Q := by
  unfold State.pathOwner
  try dsimp only
  repeat' first
    | with_reducible assumption
    | with_reducible apply State.collDid_holds
    | with_reducible apply State.collSend_holds
    | with_reducible apply State.collPut_holds
    | with_reducible apply State.replicate_holds
    | with_reducible apply State.ite_holds
    | split

theorem State.pathSpread_holds {Q : List Instr} (s : State) (p b : Nat) (x : CollIn) (hq : s.Holds Q) :
    ((State.pathSpread s p b x)).Holds Q := by
  unfold State.pathSpread
  try dsimp only
  repeat' first
    | with_reducible assumption
    | intro _
    | with_reducible apply State.collDid_holds
    | with_reducible apply State.collSend_holds
    | with_reducible apply State.ite_holds
    | with_reducible apply State.foldl_holds
    | with_reducible apply State.foldl_holds_fst
    | split

theorem State.pathSegment_holds {Q : List Instr} (s : State) (p b : Nat) (x : CollIn) (hq : s.Holds Q) :
    ((State.pathSegment s p b x)).Holds Q := by
  unfold State.pathSegment
  try dsimp only
  repeat' first
    | with_reducible assumption
    | intro _
    | with_reducible apply State.collSend_holds
    | with_reducible apply State.collDid_holds
    | with_reducible apply State.ite_holds
    | split

theorem State.collPath_holds {Q : List Instr} (s : State) (p b : Nat) (hq : s.Holds Q) :
    ((State.collPath s p b)).Holds Q := by
  unfold State.collPath
  try dsimp only
  repeat' first
    | with_reducible assumption
    | intro _
    | with_reducible apply State.pathSegment_holds
    | with_reducible apply State.pathRing_holds
    | with_reducible apply State.pathNode_holds
    | with_reducible apply State.pathOwner_holds
    | with_reducible apply State.pathSpread_holds
    | with_reducible apply State.ite_holds
    | with_reducible apply State.foldl_holds
    | with_reducible apply State.foldl_holds_fst
    | split

theorem State.moveWrite_holds {Q : List Instr} (s : State) (p : Nat) (moves : List (Nat × Nat × Nat × Nat × Nat)) (l : List CollIn) (done L : List (Nat × Shard)) (hq : s.Holds Q) :
    ((State.moveWrite s p moves l done L).1).Holds Q := by
  induction L generalizing s done with
  | nil => exact hq
  | cons x rest ih =>
    unfold State.moveWrite
    try dsimp only
    repeat' first
      | with_reducible assumption
      | with_reducible apply ih
      | intro _
      | with_reducible apply State.collWrite_holds
      | with_reducible apply State.ite_holds
      | split

theorem State.collNotify_holds {Q : List Instr} (s : State) (p b : Nat) (nf : Option NfRec) (poisoned : Bool) (hq : s.Holds Q) :
    ((State.collNotify s p b nf poisoned)).Holds Q := by
  unfold State.collNotify
  try dsimp only
  repeat' first
    | with_reducible assumption
    | intro _
    | with_reducible apply State.upRun_holds
    | with_reducible apply State.handPkt_holds
    | with_reducible apply State.ite_holds
    | with_reducible apply State.foldl_holds
    | with_reducible apply State.foldl_holds_fst
    | split

theorem State.collX_holds {Q : List Instr} (s : State) (p b : Nat) (nf : Option NfRec) (hq : s.Holds Q) :
    ((State.collX s p b nf).1).Holds Q := by
  unfold State.collX
  try dsimp only
  repeat' first
    | with_reducible assumption
    | with_reducible apply State.collWrite_holds
    | with_reducible apply State.ite_holds
    | split

theorem State.collResult_holds {Q : List Instr} (s : State) (p b : Nat) (bytes : List (Nat × Bool)) (hq : s.Holds Q) :
    ((State.collResult s p b bytes).1).Holds Q := by
  unfold State.collResult
  try dsimp only
  repeat' first
    | with_reducible assumption
    | intro _
    | with_reducible apply State.collMark_holds
    | with_reducible apply State.collWrite_holds
    | with_reducible apply State.ite_holds
    | split

theorem State.collAllowed_holds {Q : List Instr} (s : State) (p b : Nat) (hq : s.Holds Q) :
    ((State.collAllowed s p b)).Holds Q := by
  unfold State.collAllowed
  split
  · exact hq
  · have h : ((s.collRanges p b).foldl (fun (a : State × Bool) x => if a.2 then a.1.collMayWrite p x.1 x.2 else a) (s, true)).1.Holds Q := by
      refine State.foldl_holds_fst _ _ (fun u x hu => ?_) hq
      split
      · exact State.collMayWrite_holds _ _ _ _ hu
      · exact hu
    extract_lets r
    change r.1.Holds Q at h
    clear_value r
    split
    · exact h
    · exact State.collFailed_holds _ _ _ _ h

theorem State.collFinish_holds {Q : List Instr} (s : State) (p b : Nat) (l : List CollIn) (hq : s.Holds Q) :
    ((State.collFinish s p b l)).Holds Q := by
  unfold State.collFinish
  extract_lets d m nf s1 ver s2 s3 bytes failed q s4 x s5 failed2 s6
  have h1 : s1.Holds Q := by
    simp only [s1]
    split
    · exact State.collFailed_holds _ _ _ _ hq
    · split
      · exact State.collFailed_holds _ _ _ _ hq
      · exact hq
  clear_value s1 ver
  have h2 : s2.Holds Q := by
    simp only [s2]
    split
    · exact State.upColl_holds _ _ _ h1
    · exact h1
  clear_value s2
  have h3 : s3.Holds Q := State.collAllowed_holds _ _ _ h2
  clear_value s3 bytes failed
  have h4 : q.1.Holds Q := by
    simp only [q]
    split
    · split
      · split
        · exact h3
        · exact State.moveWrite_holds _ _ _ _ _ _ h3
      · exact h3
    · split
      · exact h3
      · exact State.collResult_holds _ _ _ _ h3
  clear_value q
  split
  · exact h4
  · have h5 : s4.Holds Q := by
      simp only [s4]
      split
      · exact State.collFailed_holds _ _ _ _ h4
      · exact h4
    clear_value s4
    have h6 : x.1.Holds Q := State.collX_holds _ _ _ _ h5
    clear_value x
    split
    · exact h6
    · have h7 : s5.Holds Q := by
        simp only [s5]
        split
        · exact State.collFailed_holds _ _ _ _ h6
        · exact h6
      clear_value s5
      have h8 : s6.Holds Q := by
        simp only [s6]
        split
        · exact h7
        · split
          · exact State.w_holds _ _ _ _ _ (State.upColl_holds _ _ _ h7)
          · split
            · exact State.upColl_holds _ _ _ h7
            · exact h7
      exact State.collNotify_holds _ _ _ _ _ h8

theorem State.collStep_holds {Q : List Instr} (s : State) (p b : Nat) (hq : s.Holds Q) :
    ((State.collStep s p b)).Holds Q := by
  unfold State.collStep
  try dsimp only
  repeat' first
    | with_reducible assumption
    | with_reducible apply State.collPath_holds
    | with_reducible apply State.collFinish_holds
    | with_reducible apply State.ite_holds
    | split

theorem State.collSteps_holds {Q : List Instr} (s : State) (p : Nat) (hq : s.Holds Q) :
    ((State.collSteps s p)).Holds Q := by
  unfold State.collSteps
  try dsimp only
  repeat' first
    | with_reducible assumption
    | intro _
    | with_reducible apply State.collStep_holds
    | with_reducible apply State.foldl_holds
    | with_reducible apply State.foldl_holds_fst

theorem State.dack_holds {Q : List Instr} (s : State) (ctx cls seq status reason : Nat) (hq : s.Holds Q) :
    ((State.dack s ctx cls seq status reason)).Holds Q := by
  unfold State.dack
  try dsimp only
  repeat' first
    | with_reducible assumption
    | intro _
    | with_reducible apply State.peerSend_holds

theorem State.heldDone_holds {Q : List Instr} (s : State) (p : Nat) (x : HeldLine) (hq : s.Holds Q) :
    ((State.heldDone s p x)).Holds Q := by
  unfold State.heldDone
  try dsimp only
  repeat' first
    | with_reducible assumption
    | intro _
    | with_reducible apply State.upColl_holds
    | with_reducible apply State.upTile_holds
    | with_reducible apply State.dack_holds
    | with_reducible apply State.ite_holds
    | split

theorem State.collPublish_holds {Q : List Instr} (s : State) (p : Nat) (r : CollRun) (hq : s.Holds Q) :
    ((State.collPublish s p r)).Holds Q := by
  unfold State.collPublish
  try dsimp only
  repeat' first
    | with_reducible assumption
    | intro _
    | with_reducible apply State.inc_holds
    | with_reducible apply State.wreg_holds
    | with_reducible apply State.w_holds
    | with_reducible apply State.partFault_holds
    | with_reducible apply State.event_holds
    | with_reducible apply State.upColl_holds
    | with_reducible apply State.servePeerReads_holds
    | with_reducible apply State.collPost_holds
    | with_reducible apply State.collSteps_holds
    | with_reducible apply State.ite_holds
    | split

theorem State.moveRead_holds {Q : List Instr} (s : State) (p r z : Nat) (moves : List (Nat × Nat × Nat × Nat × Nat)) (L : List (Nat × Shard)) (hq : s.Holds Q) :
    ((State.moveRead s p r z moves L).1).Holds Q := by
  induction L generalizing s with
  | nil => exact hq
  | cons x rest ih =>
    unfold State.moveRead
    try dsimp only
    repeat' first
      | with_reducible assumption
      | with_reducible apply ih
      | intro _
      | with_reducible apply State.w_holds
      | with_reducible apply State.collRead_holds
      | with_reducible apply State.foldl_holds
      | with_reducible apply State.foldl_holds_fst
      | split

theorem State.moveReads_holds {Q : List Instr} (s : State) (p b : Nat) (moves : List (Nat × Nat × Nat × Nat × Nat)) (L : List Nat) (hq : s.Holds Q) :
    ((State.moveReads s p b moves L).1).Holds Q := by
  induction L generalizing s with
  | nil => exact hq
  | cons x rest ih =>
    unfold State.moveReads
    try dsimp only
    repeat' first
      | with_reducible assumption
      | with_reducible apply ih
      | with_reducible apply State.moveRead_holds
      | split

theorem State.collCommit1_holds {Q : List Instr} (s : State) (p b : Nat) (hq : s.Holds Q) :
    ((State.collCommit1 s p b).1).Holds Q := by
  unfold State.collCommit1
  try dsimp only
  repeat' first
    | with_reducible assumption
    | intro _
    | with_reducible apply State.upColl_holds
    | with_reducible apply State.collFailed_holds
    | with_reducible apply State.w_holds
    | with_reducible apply State.ite_holds
    | split

theorem State.collCommit_holds {Q : List Instr} (s : State) (p : Nat) (hq : s.Holds Q) :
    ((State.collCommit s p).1).Holds Q := by
  unfold State.collCommit
  try dsimp only
  repeat' first
    | with_reducible assumption
    | intro _
    | with_reducible apply State.collCommit1_holds
    | with_reducible apply State.foldl_holds
    | with_reducible apply State.foldl_holds_fst

theorem State.collArrive_holds {Q : List Instr} (s : State) (p : Nat) (x : CollIn) (hq : s.Holds Q) :
    ((State.collArrive s p x)).Holds Q := by
  unfold State.collArrive
  try dsimp only
  repeat' first
    | with_reducible assumption
    | intro _
    | with_reducible apply State.inc_holds
    | with_reducible apply State.collSend_holds
    | with_reducible apply State.upColl_holds
    | with_reducible apply State.collSteps_holds
    | with_reducible apply State.ite_holds
    | with_reducible apply State.foldl_holds
    | with_reducible apply State.foldl_holds_fst
    | split

end Sys2Proof.Machine
end

