-- ==== Sys2Proof/Laws/HoldsPorts.lean ====
section
/-! SUPPORT. The functions on states of state protection, the SWT transport, RoCE, ports and the command interface keep the queue and the canonical form of frame memory (`State.Holds`). -/

namespace Sys2Proof.Machine

theorem State.upProt_holds {Q : List Instr} (s : State) (p : Nat) (f : Prot → Prot) (hq : s.Holds Q) :
    ((State.upProt s p f)).Holds Q := by
  unfold State.upProt
  try dsimp only
  iterate 30 try any_goals first
    | with_reducible assumption
    | with_reducible apply State.holds_mk

theorem State.upTensor_holds {Q : List Instr} (s : State) (p i : Nat) (f : Tensor → Tensor) (hq : s.Holds Q) :
    ((State.upTensor s p i f)).Holds Q := by
  unfold State.upTensor
  try dsimp only
  repeat' first
    | with_reducible assumption
    | intro _
    | with_reducible apply State.upProt_holds

theorem State.upPages_holds {Q : List Instr} (s : State) (l : List Nat) (f : BitVec 64 → BitVec 64) (hq : s.Holds Q) :
    ((State.upPages s l f)).Holds Q := by
  unfold State.upPages
  try dsimp only
  repeat' first
    | with_reducible assumption
    | intro _
    | with_reducible apply State.setPage_holds
    | with_reducible apply State.foldl_holds
    | with_reducible apply State.foldl_holds_fst

theorem State.pageImage_holds {Q : List Instr} (s : State) (e : Nat) (hq : s.Holds Q) :
    ((State.pageImage s e).1).Holds Q := by
  unfold State.pageImage
  try dsimp only
  repeat' first
    | with_reducible assumption
    | intro _
    | with_reducible apply State.readFrame_holds
    | with_reducible apply State.holdRead_holds
    | with_reducible apply State.readLines_holds
    | with_reducible apply State.ite_holds
    | with_reducible apply State.foldl_holds
    | with_reducible apply State.foldl_holds_fst
    | split

theorem State.pageSent_holds {Q : List Instr} (s : State) (e : Nat) (hq : s.Holds Q) :
    ((State.pageSent s e)).Holds Q := by
  unfold State.pageSent
  try dsimp only
  iterate 30 try any_goals first
    | with_reducible assumption
    | intro _
    | with_reducible apply State.setPage_holds
    | with_reducible apply State.releaseHeld_holds
    | with_reducible apply State.ite_holds
    | split
    | with_reducible apply State.holds_mk

theorem State.jobEnd_holds {Q : List Instr} (s : State) (p : Nat) (hq : s.Holds Q) :
    ((State.jobEnd s p)).Holds Q := by
  unfold State.jobEnd
  try dsimp only
  repeat' first
    | with_reducible assumption
    | intro _
    | with_reducible apply State.w_holds
    | with_reducible apply State.upProt_holds
    | with_reducible apply State.ite_holds
    | split

theorem State.snapFail_holds {Q : List Instr} (s : State) (p cause : Nat) (hq : s.Holds Q) :
    ((State.snapFail s p cause)).Holds Q := by
  unfold State.snapFail
  try dsimp only
  repeat' first
    | with_reducible assumption
    | intro _
    | with_reducible apply State.pageSent_holds
    | with_reducible apply State.jobEnd_holds
    | with_reducible apply State.w_holds
    | with_reducible apply State.inc_holds
    | with_reducible apply State.event_holds
    | with_reducible apply State.foldl_holds
    | with_reducible apply State.foldl_holds_fst
    | split

theorem State.snapWrite_holds {Q : List Instr} (s : State) (p hb off : Nat) (b : List Nat) (hq : s.Holds Q) :
    ((State.snapWrite s p hb off b)).Holds Q := by
  unfold State.snapWrite
  try dsimp only
  repeat' first
    | with_reducible assumption
    | with_reducible apply State.hostOp_holds
    | with_reducible apply State.snapFail_holds
    | with_reducible apply State.ite_holds
    | split

theorem State.snapStart_holds {Q : List Instr} (s : State) (p a b : Nat) (hq : s.Holds Q) :
    ((State.snapStart s p a b)).Holds Q := by
  unfold State.snapStart
  try dsimp only
  repeat' first
    | with_reducible assumption
    | intro _
    | with_reducible apply State.upPages_holds
    | with_reducible apply State.w_holds
    | with_reducible apply State.wreg_holds
    | with_reducible apply State.upProt_holds
    | with_reducible apply State.snapWrite_holds
    | with_reducible apply State.ite_holds
    | split

theorem State.sendCtrl_holds {Q : List Instr} (s : State) (ctx sub cls extra addr pmask plen payload : Nat) (hq : s.Holds Q) :
    ((State.sendCtrl s ctx sub cls extra addr pmask plen payload)).Holds Q := by
  unfold State.sendCtrl
  try dsimp only
  repeat' first
    | with_reducible assumption
    | intro _
    | with_reducible apply State.peerSend_holds

theorem State.commitSlice_holds {Q : List Instr} (s : State) (p : Nat) (hq : s.Holds Q) :
    ((State.commitSlice s p).1).Holds Q := by
  unfold State.commitSlice
  try dsimp only
  repeat' first
    | with_reducible assumption
    | intro _
    | with_reducible apply State.collRead_holds
    | with_reducible apply State.replicate_holds
    | with_reducible apply State.ite_holds
    | split

theorem State.commitRecord_holds {Q : List Instr} (s : State) (p bits : Nat) (hq : s.Holds Q) :
    ((State.commitRecord s p bits)).Holds Q := by
  unfold State.commitRecord
  try dsimp only
  repeat' first
    | with_reducible assumption
    | intro _
    | with_reducible apply State.commitSlice_holds
    | with_reducible apply State.sendCtrl_holds
    | with_reducible apply State.replicate_holds

theorem State.digestDrop_holds {Q : List Instr} (s : State) (p : Nat) (i : Nat → Bool) (hq : s.Holds Q) :
    ((State.digestDrop s p i)).Holds Q := by
  unfold State.digestDrop
  try dsimp only
  repeat' first
    | with_reducible assumption
    | intro _
    | with_reducible apply State.pageSent_holds
    | with_reducible apply State.upProt_holds
    | with_reducible apply State.jobEnd_holds
    | with_reducible apply State.ite_holds
    | with_reducible apply State.foldl_holds
    | with_reducible apply State.foldl_holds_fst
    | split

theorem State.unshadow_holds {Q : List Instr} (s : State) (p i : Nat) (hq : s.Holds Q) :
    ((State.unshadow s p i)).Holds Q := by
  unfold State.unshadow
  try dsimp only
  repeat' first
    | with_reducible assumption
    | intro _
    | with_reducible apply State.digestDrop_holds
    | with_reducible apply State.upPages_holds

theorem State.choose_holds {Q : List Instr} (s : State) (p i : Nat) (hq : s.Holds Q) :
    ((State.choose s p i)).Holds Q := by
  unfold State.choose
  try dsimp only
  repeat' first
    | with_reducible assumption
    | intro _
    | with_reducible apply State.upTensor_holds
    | with_reducible apply State.upProt_holds
    | with_reducible apply State.unshadow_holds
    | with_reducible apply State.ite_holds
    | split

theorem State.catchStep_holds {Q : List Instr} (s : State) (p : Nat) (hq : s.Holds Q) :
    ((State.catchStep s p)).Holds Q := by
  unfold State.catchStep
  try dsimp only
  repeat' first
    | with_reducible assumption
    | intro _
    | with_reducible apply State.pageImage_holds
    | with_reducible apply State.sendCtrl_holds
    | with_reducible apply State.pageSent_holds
    | with_reducible apply State.upProt_holds
    | with_reducible apply State.ite_holds
    | with_reducible apply State.foldl_holds
    | with_reducible apply State.foldl_holds_fst
    | split

theorem State.catchStart_holds {Q : List Instr} (s : State) (p i : Nat) (hq : s.Holds Q) :
    ((State.catchStart s p i)).Holds Q := by
  unfold State.catchStart
  try dsimp only
  repeat' first
    | with_reducible assumption
    | intro _
    | with_reducible apply State.upPages_holds
    | with_reducible apply State.w_holds
    | with_reducible apply State.upProt_holds
    | with_reducible apply State.catchStep_holds
    | split

theorem State.catchStop_holds {Q : List Instr} (s : State) (p : Nat) (hq : s.Holds Q) :
    ((State.catchStop s p)).Holds Q := by
  unfold State.catchStop
  try dsimp only
  repeat' first
    | with_reducible assumption
    | intro _
    | with_reducible apply State.pageSent_holds
    | with_reducible apply State.jobEnd_holds
    | with_reducible apply State.w_holds
    | with_reducible apply State.foldl_holds
    | with_reducible apply State.foldl_holds_fst
    | split

theorem State.tensorDigest_holds {Q : List Instr} (s : State) (pages : List Nat) (hq : s.Holds Q) :
    ((State.tensorDigest s pages).1).Holds Q := by
  unfold State.tensorDigest
  try dsimp only
  repeat' first
    | with_reducible assumption
    | intro _
    | with_reducible apply State.pageImage_holds
    | with_reducible apply State.foldl_holds
    | with_reducible apply State.foldl_holds_fst
    | split

theorem State.diverged_holds {Q : List Instr} (s : State) (p i st : Nat) (hq : s.Holds Q) :
    ((State.diverged s p i st)).Holds Q := by
  unfold State.diverged
  try dsimp only
  repeat' first
    | with_reducible assumption
    | intro _
    | with_reducible apply State.inc_holds
    | with_reducible apply State.event_holds
    | with_reducible apply State.unshadow_holds
    | with_reducible apply State.upTensor_holds
    | with_reducible apply State.upProt_holds

theorem State.digestCheck_holds {Q : List Instr} (s : State) (p i st own theirs : Nat) (hq : s.Holds Q) :
    ((State.digestCheck s p i st own theirs)).Holds Q := by
  unfold State.digestCheck
  try dsimp only
  repeat' first
    | with_reducible assumption
    | intro _
    | with_reducible apply State.upProt_holds
    | with_reducible apply State.inc_holds
    | with_reducible apply State.diverged_holds
    | with_reducible apply State.ite_holds
    | split

theorem State.digestTake_holds {Q : List Instr} (s : State) (p : Nat) (hq : s.Holds Q) :
    ((State.digestTake s p)).Holds Q := by
  unfold State.digestTake
  try dsimp only
  repeat' first
    | with_reducible assumption
    | intro _
    | with_reducible apply State.upPages_holds
    | with_reducible apply State.upProt_holds
    | with_reducible apply State.ite_holds
    | split

theorem State.digestStep_holds {Q : List Instr} (s : State) (p : Nat) (hq : s.Holds Q) :
    ((State.digestStep s p)).Holds Q := by
  unfold State.digestStep
  try dsimp only
  repeat' first
    | with_reducible assumption
    | intro _
    | with_reducible apply State.tensorDigest_holds
    | with_reducible apply State.pageSent_holds
    | with_reducible apply State.upProt_holds
    | with_reducible apply State.digestCheck_holds
    | with_reducible apply State.jobEnd_holds
    | with_reducible apply State.ite_holds
    | with_reducible apply State.foldl_holds
    | with_reducible apply State.foldl_holds_fst
    | split

theorem State.spDigest_holds {Q : List Instr} (s : State) (p i st d : Nat) (hq : s.Holds Q) :
    ((State.spDigest s p i st d)).Holds Q := by
  unfold State.spDigest
  try dsimp only
  repeat' first
    | with_reducible assumption
    | intro _
    | with_reducible apply State.digestCheck_holds
    | with_reducible apply State.upProt_holds
    | with_reducible apply State.ite_holds
    | split

theorem State.protJobs_holds {Q : List Instr} (s : State) (p : Nat) (committed : Bool) (hq : s.Holds Q) :
    ((State.protJobs s p committed)).Holds Q := by
  unfold State.protJobs
  try dsimp only
  repeat' first
    | with_reducible assumption
    | intro _
    | with_reducible apply State.snapStart_holds
    | with_reducible apply State.catchStart_holds
    | with_reducible apply State.upProt_holds
    | with_reducible apply State.digestStep_holds
    | with_reducible apply State.w_holds
    | with_reducible apply State.ite_holds
    | split

theorem State.protLanding_holds {Q : List Instr} (s : State) (p bits : Nat) (hq : s.Holds Q) :
    ((State.protLanding s p bits)).Holds Q := by
  unfold State.protLanding
  try dsimp only
  iterate 30 try any_goals first
    | with_reducible assumption
    | intro _
    | with_reducible apply State.collCommit_holds
    | with_reducible apply State.w_holds
    | with_reducible apply State.choose_holds
    | with_reducible apply State.commitRecord_holds
    | with_reducible apply State.digestTake_holds
    | with_reducible apply State.digestStep_holds
    | with_reducible apply State.protJobs_holds
    | with_reducible apply State.collSteps_holds
    | with_reducible apply State.catchStep_holds
    | with_reducible apply State.ite_holds
    | with_reducible apply State.foldl_holds
    | with_reducible apply State.foldl_holds_fst
    | split
    | with_reducible apply State.holds_mk

theorem State.linkLose_holds {Q : List Instr} (s : State) (p : Nat) (hq : s.Holds Q) :
    ((State.linkLose s p)).Holds Q := by
  unfold State.linkLose
  try dsimp only
  repeat' first
    | with_reducible assumption
    | intro _
    | with_reducible apply State.unshadow_holds
    | with_reducible apply State.catchStop_holds
    | with_reducible apply State.digestDrop_holds
    | with_reducible apply State.upProt_holds
    | with_reducible apply State.w_holds
    | with_reducible apply State.inc_holds
    | with_reducible apply State.event_holds
    | with_reducible apply State.ite_holds
    | with_reducible apply State.foldl_holds
    | with_reducible apply State.foldl_holds_fst
    | split

theorem State.spAck_holds {Q : List Instr} (s : State) (p st : Nat) (again : Bool) (hq : s.Holds Q) :
    ((State.spAck s p st again)).Holds Q := by
  unfold State.spAck
  try dsimp only
  repeat' first
    | with_reducible assumption
    | intro _
    | with_reducible apply State.unshadow_holds
    | with_reducible apply State.upTensor_holds
    | with_reducible apply State.catchStop_holds
    | with_reducible apply State.upProt_holds
    | with_reducible apply State.w_holds
    | with_reducible apply State.upPages_holds
    | with_reducible apply State.jobEnd_holds
    | with_reducible apply State.event_holds
    | with_reducible apply State.ite_holds
    | with_reducible apply State.foldl_holds
    | with_reducible apply State.foldl_holds_fst
    | split

theorem State.riskDue_holds {Q : List Instr} (s : State) (tier : Nat) (hq : s.Holds Q) :
    ((State.riskDue s tier)).Holds Q := by
  unfold State.riskDue
  try dsimp only
  repeat' first
    | with_reducible assumption
    | intro _
    | with_reducible apply State.w_holds
    | with_reducible apply State.upProt_holds
    | with_reducible apply State.ite_holds
    | with_reducible apply State.foldl_holds
    | with_reducible apply State.foldl_holds_fst
    | split

theorem State.riskTier_holds {Q : List Instr} (s : State) (index old new : Nat) (hq : s.Holds Q) :
    ((State.riskTier s index old new)).Holds Q := by
  unfold State.riskTier
  try dsimp only
  repeat' first
    | with_reducible assumption
    | intro _
    | with_reducible apply State.w_holds
    | with_reducible apply State.inc_holds
    | with_reducible apply State.event_holds
    | with_reducible apply State.riskDue_holds
    | with_reducible apply State.upMss_holds
    | with_reducible apply State.ite_holds
    | split

theorem State.upInLink_holds {Q : List Instr} (s : State) (p k : Nat) (f : InLink → InLink) (hq : s.Holds Q) :
    ((State.upInLink s p k f)).Holds Q := by
  unfold State.upInLink
  try dsimp only
  repeat' first
    | with_reducible assumption
    | intro _
    | with_reducible apply State.upProt_holds

theorem State.linkBind_holds {Q : List Instr} (s : State) (p ctx : Nat) (hq : s.Holds Q) :
    ((State.linkBind s p ctx)).Holds Q := by
  unfold State.linkBind
  try dsimp only
  repeat' first
    | with_reducible assumption
    | intro _
    | with_reducible apply State.w_holds
    | with_reducible apply State.upInLink_holds
    | with_reducible apply State.ite_holds
    | split

theorem State.slotTake_holds {Q : List Instr} (s : State) (p k st : Nat) (hq : s.Holds Q) :
    ((State.slotTake s p k st)).Holds Q := by
  unfold State.slotTake
  try dsimp only
  repeat' first
    | with_reducible assumption
    | intro _
    | with_reducible apply State.upInLink_holds

theorem State.linkBreak_holds {Q : List Instr} (s : State) (p k : Nat) (hq : s.Holds Q) :
    ((State.linkBreak s p k)).Holds Q := by
  unfold State.linkBreak
  try dsimp only
  repeat' first
    | with_reducible assumption
    | intro _
    | with_reducible apply State.upInLink_holds
    | with_reducible apply State.sendCtrl_holds
    | with_reducible apply State.ite_holds
    | split

theorem State.legArrive_holds {Q : List Instr} (s : State) (p k : Nat) (x : CollIn) (hq : s.Holds Q) :
    ((State.legArrive s p k x).1).Holds Q := by
  unfold State.legArrive
  try dsimp only
  repeat' first
    | with_reducible assumption
    | intro _
    | with_reducible apply State.linkBreak_holds
    | with_reducible apply State.collWrite_holds
    | with_reducible apply State.slotTake_holds
    | with_reducible apply State.upInLink_holds
    | with_reducible apply State.ite_holds
    | split

theorem State.recordArrive_holds {Q : List Instr} (s : State) (p k : Nat) (b : List Nat) (hq : s.Holds Q) :
    ((State.recordArrive s p k b).1).Holds Q := by
  unfold State.recordArrive
  try dsimp only
  repeat' first
    | with_reducible assumption
    | intro _
    | with_reducible apply State.upInLink_holds
    | with_reducible apply State.linkBreak_holds
    | with_reducible apply State.collWrite_holds
    | with_reducible apply State.slotTake_holds
    | with_reducible apply State.ite_holds
    | split

theorem State.sendDigests_holds {Q : List Instr} (s : State) (p k : Nat) (hq : s.Holds Q) :
    ((State.sendDigests s p k)).Holds Q := by
  unfold State.sendDigests
  try dsimp only
  repeat' first
    | with_reducible assumption
    | intro _
    | with_reducible apply State.tensorDigest_holds
    | with_reducible apply State.sendCtrl_holds
    | with_reducible apply State.upInLink_holds
    | with_reducible apply State.foldl_holds
    | with_reducible apply State.foldl_holds_fst
    | split

theorem State.pageArrive_holds {Q : List Instr} (s : State) (p k aux addr : Nat) (lines : List LineVal) (hq : s.Holds Q) :
    ((State.pageArrive s p k aux addr lines).1).Holds Q := by
  unfold State.pageArrive
  try dsimp only
  repeat' first
    | with_reducible assumption
    | intro _
    | with_reducible apply State.collWrite_holds
    | with_reducible apply State.w_holds
    | with_reducible apply State.upInLink_holds
    | with_reducible apply State.sendCtrl_holds
    | with_reducible apply State.ite_holds
    | split

theorem State.shadowLine_holds {Q : List Instr} (s : State) (p k st addr : Nat) (hq : s.Holds Q) :
    ((State.shadowLine s p k st addr).1).Holds Q := by
  unfold State.shadowLine
  try dsimp only
  repeat' first
    | with_reducible assumption
    | intro _
    | with_reducible apply State.readLine_holds
    | with_reducible apply State.ite_holds
    | split

theorem State.rxDrop_holds {Q : List Instr} (s : State) (port sub why : Nat) (hq : s.Holds Q) :
    ((State.rxDrop s port sub why)).Holds Q := by
  unfold State.rxDrop
  try dsimp only
  repeat' first
    | with_reducible assumption
    | with_reducible apply State.inc_holds
    | with_reducible apply State.w_holds

theorem State.macIn_holds {Q : List Instr} (s : State) (x : Nat) (e : EthHead) (hq : s.Holds Q) :
    ((State.macIn s x e).1).Holds Q := by
  unfold State.macIn
  try dsimp only
  repeat' first
    | with_reducible assumption
    | with_reducible apply State.inc_holds
    | with_reducible apply State.rxDrop_holds
    | with_reducible apply State.ite_holds
    | split

theorem State.sendAck_holds {Q : List Instr} (s : State) (ctx cls : Nat) (hq : s.Holds Q) :
    ((State.sendAck s ctx cls)).Holds Q := by
  unfold State.sendAck
  try dsimp only
  repeat' first
    | with_reducible assumption
    | intro _
    | with_reducible apply State.swtEmit_holds
    | with_reducible apply State.upPeer_holds
    | with_reducible apply State.ite_holds
    | split

theorem State.ackArrival_holds {Q : List Instr} (s : State) (ctx cls : Nat) (atOnce : Bool) (hq : s.Holds Q) :
    ((State.ackArrival s ctx cls atOnce)).Holds Q := by
  unfold State.ackArrival
  try dsimp only
  repeat' first
    | with_reducible assumption
    | intro _
    | with_reducible apply State.upPeer_holds
    | with_reducible apply State.sendAck_holds
    | with_reducible apply State.ite_holds
    | split

theorem State.ctxDrop_holds {Q : List Instr} (s : State) (ctx step : Nat) (hq : s.Holds Q) :
    ((State.ctxDrop s ctx step)).Holds Q := by
  unfold State.ctxDrop
  try dsimp only
  repeat' first
    | with_reducible assumption
    | intro _
    | with_reducible apply State.upPeer_holds

/-- The state that the receive checks leave. -/
def RxOut.state : RxOut → State
  | .gone s => s
  | .good s _ _ _ => s
theorem State.swtCheck_holds {Q : List Instr} (s : State) (f : SwtFrame) (hq : s.Holds Q) : (s.swtCheck f).state.Holds Q := by
  let P : RxOut → Prop := fun r => r.state.Holds Q
  show P _
  unfold State.swtCheck
  extract_lets port m s1 h space seen
  have h0 : m.1.Holds Q := State.macIn_holds _ _ _ hq
  have h1 : s1.Holds Q := h0
  clear_value s1
  clear_value m
  have hx : ∀ (x : State) (fl : Fld) (k : Nat), x.Holds Q → ((x.inc fl port 0 1).ctxDrop f.dctx k).Holds Q := fun x fl k hx => State.ctxDrop_holds _ _ _ (State.inc_holds _ _ _ _ _ hx)
  have h2 : (seen s1).Holds Q := by
    simp only [seen]
    split
    · exact State.upPeer_holds _ _ _ (State.inc_holds _ _ _ _ _ h1)
    · exact h1
  clear_value seen h space port
  refine ite_ind (P := P) (show P (.gone m.1) from h0) ?_
  refine ite_ind (State.inc_holds _ _ _ _ _ h1) (ite_ind (State.inc_holds _ _ _ _ _ h1) ?_)
  split
  · exact State.inc_holds _ _ _ _ _ h1
  · refine ite_ind (hx _ _ _ h1) ?_
    extract_lets q pay
    clear_value pay q
    split
    · exact hx _ _ _ h1
    · refine ite_ind (ite_ind (State.upPeer_holds _ _ _ (ite_ind (P := fun x : State => x.Holds Q) (State.inc_holds _ _ _ _ _ h1) h1)) (hx _ _ _ h1)) ?_
      split
      · exact hx _ _ _ h1
      · exact State.ackArrival_holds _ _ _ _ h2
      · exact ite_ind h2 (hx _ _ _ h1)

theorem State.retransmit_holds {Q : List Instr} (s : State) (ctx cls seq : Nat) (hq : s.Holds Q) :
    ((State.retransmit s ctx cls seq)).Holds Q := by
  unfold State.retransmit
  try dsimp only
  repeat' first
    | with_reducible assumption
    | intro _
    | with_reducible apply State.swtEmit_holds
    | with_reducible apply State.upPeer_holds
    | with_reducible apply State.ite_holds
    | split

theorem State.refreshLinks_holds {Q : List Instr} (s : State) (hq : s.Holds Q) :
    ((State.refreshLinks s)).Holds Q := by
  unfold State.refreshLinks
  try dsimp only
  repeat' first
    | with_reducible assumption
    | intro _
    | with_reducible apply State.upPeer_holds
    | with_reducible apply State.peerPump_holds
    | with_reducible apply State.ite_holds
    | with_reducible apply State.foldl_holds
    | with_reducible apply State.foldl_holds_fst
    | split

theorem State.resumeTx_holds {Q : List Instr} (s : State) (x : Nat) (hq : s.Holds Q) :
    ((State.resumeTx s x)).Holds Q := by
  unfold State.resumeTx
  try dsimp only
  repeat' first
    | with_reducible assumption
    | intro _
    | with_reducible apply State.refreshLinks_holds
    | with_reducible apply State.qpPump_holds
    | with_reducible apply State.ite_holds
    | with_reducible apply State.foldl_holds
    | with_reducible apply State.foldl_holds_fst
    | split

theorem State.peerDown_holds {Q : List Instr} (s : State) (ctx cause : Nat) (hq : s.Holds Q) :
    ((State.peerDown s ctx cause)).Holds Q := by
  unfold State.peerDown
  try dsimp only
  iterate 30 try any_goals first
    | with_reducible assumption
    | intro _
    | with_reducible apply State.upPeer_holds
    | with_reducible apply State.event_holds
    | with_reducible apply State.linkLose_holds
    | with_reducible apply State.ite_holds
    | split
    | with_reducible apply State.holds_mk

theorem State.ackIn_holds {Q : List Instr} (s : State) (port ctx cls cum : Nat) (ranges : List (Nat × Nat)) (ce : Nat) (hq : s.Holds Q) :
    ((State.ackIn s port ctx cls cum ranges ce)).Holds Q := by
  unfold State.ackIn
  try dsimp only
  repeat' first
    | with_reducible assumption
    | intro _
    | with_reducible apply State.upPeer_holds
    | with_reducible apply State.inc_holds
    | with_reducible apply State.retransmit_holds
    | with_reducible apply State.peerPump_holds
    | with_reducible apply State.catchStep_holds
    | with_reducible apply State.ite_holds
    | with_reducible apply State.foldl_holds
    | with_reducible apply State.foldl_holds_fst
    | split

theorem State.peerRefuse_holds {Q : List Instr} (s : State) (p a : Nat) (why : Nat) (write : Bool) (hq : s.Holds Q) :
    ((State.peerRefuse s p a why write)).Holds Q := by
  unfold State.peerRefuse
  try dsimp only
  repeat' first
    | with_reducible assumption
    | with_reducible apply State.partFault_holds
    | with_reducible apply State.event_holds
    | with_reducible apply State.ite_holds
    | split

theorem State.peerLines_holds {Q : List Instr} (s : State) (p ctx cls q a : Nat) (L : List LineVal) (hq : s.Holds Q) :
    ((State.peerLines s p ctx cls q a L)).Holds Q := by
  induction L generalizing s a with
  | nil => exact hq
  | cons x rest ih =>
    unfold State.peerLines
    try dsimp only
    repeat' first
      | with_reducible assumption
      | with_reducible apply ih
      | with_reducible apply State.contribHold_holds
      | with_reducible apply State.writeLine_holds
      | with_reducible apply State.contribCount_holds
      | with_reducible apply State.ite_holds
      | split

theorem State.dropPend_holds {Q : List Instr} (s : State) (ctx : Nat) (x : PeerPend) (hq : s.Holds Q) :
    ((State.dropPend s ctx x)).Holds Q := by
  unfold State.dropPend
  try dsimp only
  repeat' first
    | with_reducible assumption
    | intro _
    | with_reducible apply State.upPeer_holds

theorem State.updateFail_holds {Q : List Instr} (s : State) (status : Nat) (hq : s.Holds Q) :
    ((State.updateFail s status)).Holds Q := by
  unfold State.updateFail
  try dsimp only
  repeat' first
    | with_reducible assumption
    | intro _
    | with_reducible apply State.upMss_holds
    | with_reducible apply State.w_holds
    | with_reducible apply State.event_holds
    | with_reducible apply State.cmdDone_holds
    | split

theorem State.opFailed_holds {Q : List Instr} (s : State) (why : OpWhy) (hq : s.Holds Q) :
    ((State.opFailed s why)).Holds Q := by
  unfold State.opFailed
  try dsimp only
  repeat' first
    | with_reducible assumption
    | intro _
    | with_reducible apply State.cmdDone_holds
    | with_reducible apply State.snapFail_holds
    | with_reducible apply State.upProt_holds
    | with_reducible apply State.updateFail_holds
    | split

theorem State.qpStop_holds {Q : List Instr} (s : State) (n : Nat) (hq : s.Holds Q) :
    ((State.qpStop s n)).Holds Q := by
  unfold State.qpStop
  try dsimp only
  iterate 30 try any_goals first
    | with_reducible assumption
    | intro _
    | with_reducible apply State.upQp_holds
    | with_reducible apply State.w_holds
    | with_reducible apply State.event_holds
    | with_reducible apply State.opFailed_holds
    | with_reducible apply State.ite_holds
    | with_reducible apply State.foldl_holds
    | with_reducible apply State.foldl_holds_fst
    | split
    | with_reducible apply State.holds_mk

theorem State.qpError_holds {Q : List Instr} (s : State) (n syndrome : Nat) (hq : s.Holds Q) :
    ((State.qpError s n syndrome)).Holds Q := by
  unfold State.qpError
  try dsimp only
  repeat' first
    | with_reducible assumption
    | with_reducible apply State.event_holds
    | with_reducible apply State.qpStop_holds
    | with_reducible apply State.ite_holds
    | split

theorem State.resend_holds {Q : List Instr} (s : State) (n : Nat) (hq : s.Holds Q) :
    ((State.resend s n)).Holds Q := by
  unfold State.resend
  try dsimp only
  repeat' first
    | with_reducible assumption
    | intro _
    | with_reducible apply State.hostTx_holds
    | with_reducible apply State.inc_holds
    | with_reducible apply State.upQp_holds
    | with_reducible apply State.qpPump_holds
    | with_reducible apply State.ite_holds
    | with_reducible apply State.foldl_holds
    | with_reducible apply State.foldl_holds_fst
    | split

theorem State.qpRetry_holds {Q : List Instr} (s : State) (n : Nat) (hq : s.Holds Q) :
    ((State.qpRetry s n)).Holds Q := by
  unfold State.qpRetry
  try dsimp only
  repeat' first
    | with_reducible assumption
    | intro _
    | with_reducible apply State.qpError_holds
    | with_reducible apply State.upQp_holds
    | with_reducible apply State.resend_holds
    | with_reducible apply State.ite_holds
    | split

theorem State.roceSend_holds {Q : List Instr} (s : State) (n : Nat) (q : Qp) (kind psn cls : Nat) (payload : List Nat) (hq : s.Holds Q) :
    ((State.roceSend s n q kind psn cls payload)).Holds Q := by
  unfold State.roceSend
  try dsimp only
  repeat' first
    | with_reducible assumption
    | intro _
    | with_reducible apply State.hostTx_holds
    | with_reducible apply State.upQp_holds
    | with_reducible apply State.ite_holds
    | split

theorem State.roceNak_holds {Q : List Instr} (s : State) (n : Nat) (q : Qp) (kind psn : Nat) (hq : s.Holds Q) :
    ((State.roceNak s n q kind psn)).Holds Q := by
  unfold State.roceNak
  try dsimp only
  repeat' first
    | with_reducible assumption
    | intro _
    | with_reducible apply State.roceSend_holds
    | with_reducible apply State.upQp_holds
    | with_reducible apply State.inc_holds
    | with_reducible apply State.ite_holds
    | split

theorem State.overrun_holds {Q : List Instr} (s : State) (q : Nat) (hq : s.Holds Q) :
    ((State.overrun s q)).Holds Q := by
  unfold State.overrun
  try dsimp only
  repeat' first
    | with_reducible assumption
    | with_reducible apply State.w_holds
    | with_reducible apply State.event_holds

theorem State.setTail_holds {Q : List Instr} (s : State) (q v : Nat) (hq : s.Holds Q) :
    ((State.setTail s q v)).Holds Q := by
  unfold State.setTail
  try dsimp only
  repeat' first
    | with_reducible assumption
    | with_reducible apply State.overrun_holds
    | with_reducible apply State.w_holds
    | with_reducible apply State.ite_holds
    | split

theorem State.setChead_holds {Q : List Instr} (s : State) (q v : Nat) (hq : s.Holds Q) :
    ((State.setChead s q v)).Holds Q := by
  unfold State.setChead
  try dsimp only
  repeat' first
    | with_reducible assumption
    | with_reducible apply State.overrun_holds
    | with_reducible apply State.w_holds
    | with_reducible apply State.drainDone_holds
    | with_reducible apply State.heldDone_holds
    | with_reducible apply State.ite_holds
    | split

theorem State.setEhead_holds {Q : List Instr} (s : State) (q r v : Nat) (hq : s.Holds Q) :
    ((State.setEhead s q r v)).Holds Q := by
  unfold State.setEhead
  try dsimp only
  repeat' first
    | with_reducible assumption
    | with_reducible apply State.overrun_holds
    | with_reducible apply State.w_holds
    | with_reducible apply State.ite_holds
    | split

theorem State.immDoorbell_holds {Q : List Instr} (s : State) (q part imm : Nat) (hq : s.Holds Q) :
    ((State.immDoorbell s q part imm)).Holds Q := by
  unfold State.immDoorbell
  try dsimp only
  repeat' first
    | with_reducible assumption
    | with_reducible apply State.setTail_holds
    | with_reducible apply State.setChead_holds
    | with_reducible apply State.setEhead_holds
    | split

theorem State.readReg_holds {Q : List Instr} (s : State) (r : Reg) (k i : Nat) (hq : s.Holds Q) :
    ((State.readReg s r k i).2).Holds Q := by
  unfold State.readReg
  try dsimp only
  repeat' first
    | with_reducible assumption
    | with_reducible apply State.wreg_holds
    | with_reducible apply State.ite_holds
    | split

theorem State.ctlRead_holds {Q : List Instr} (s : State) (a : Nat) (hq : s.Holds Q) :
    ((State.ctlRead s a).2).Holds Q := by
  unfold State.ctlRead
  try dsimp only
  repeat' first
    | with_reducible assumption
    | with_reducible apply State.readReg_holds
    | with_reducible apply State.ite_holds
    | split

theorem State.showCapped_holds {Q : List Instr} (s : State) (h : Nat) (hq : s.Holds Q) :
    ((State.showCapped s h)).Holds Q := by
  unfold State.showCapped
  try dsimp only
  repeat' first
    | with_reducible assumption
    | with_reducible apply State.w_holds
    | with_reducible apply State.ite_holds
    | split

theorem State.clkWrite_holds {Q : List Instr} (s : State) (h v : Nat) (hq : s.Holds Q) :
    ((State.clkWrite s h v)).Holds Q := by
  unfold State.clkWrite
  try dsimp only
  repeat' first
    | with_reducible assumption
    | with_reducible apply State.w_holds
    | with_reducible apply State.showCapped_holds
    | with_reducible apply State.ite_holds
    | split

theorem State.dbgWrite_holds {Q : List Instr} (s : State) (n : Nat) (v : BitVec 64) (hq : s.Holds Q) :
    ((State.dbgWrite s n v)).Holds Q := by
  unfold State.dbgWrite
  try dsimp only
  repeat' first
    | with_reducible assumption
    | intro _
    | with_reducible apply State.w_holds
    | with_reducible apply State.upTile_holds
    | with_reducible apply State.ite_holds
    | split

theorem State.landCtrlWrite_holds {Q : List Instr} (s : State) (p : Nat) (v : BitVec 64) (hq : s.Holds Q) :
    ((State.landCtrlWrite s p v)).Holds Q := by
  unfold State.landCtrlWrite
  try dsimp only
  repeat' first
    | with_reducible assumption
    | intro _
    | with_reducible apply State.wreg_holds
    | with_reducible apply State.w_holds
    | with_reducible apply State.upPart_holds
    | with_reducible apply State.ite_holds
    | split

theorem State.linkDrop_holds {Q : List Instr} (s : State) (p sub : Nat) (hq : s.Holds Q) :
    ((State.linkDrop s p sub)).Holds Q := by
  unfold State.linkDrop
  try dsimp only
  repeat' first
    | with_reducible assumption
    | intro _
    | with_reducible apply State.wreg_holds
    | with_reducible apply State.inc_holds
    | with_reducible apply State.upMss_holds
    | with_reducible apply State.event_holds
    | with_reducible apply State.refreshLinks_holds
    | with_reducible apply State.ite_holds
    | split

theorem State.portCfgWrite_holds {Q : List Instr} (s : State) (p : Nat) (v : BitVec 64) (hq : s.Holds Q) :
    ((State.portCfgWrite s p v)).Holds Q := by
  unfold State.portCfgWrite
  try dsimp only
  repeat' first
    | with_reducible assumption
    | with_reducible apply State.wreg_holds
    | with_reducible apply State.w_holds
    | with_reducible apply State.linkDrop_holds
    | with_reducible apply State.ite_holds
    | split

theorem State.ptpWrite_holds {Q : List Instr} (s : State) (p : Nat) (v : BitVec 64) (hq : s.Holds Q) :
    ((State.ptpWrite s p v)).Holds Q := by
  unfold State.ptpWrite
  try dsimp only
  repeat' first
    | with_reducible assumption
    | intro _
    | with_reducible apply State.wreg_holds
    | with_reducible apply State.w_holds
    | with_reducible apply State.ite_holds
    | with_reducible apply State.foldl_holds
    | with_reducible apply State.foldl_holds_fst
    | split

theorem State.pcapWrite_holds {Q : List Instr} (s : State) (v : BitVec 64) (hq : s.Holds Q) :
    ((State.pcapWrite s v)).Holds Q := by
  unfold State.pcapWrite
  try dsimp only
  repeat' first
    | with_reducible assumption
    | intro _
    | with_reducible apply State.wreg_holds
    | with_reducible apply State.w_holds
    | with_reducible apply State.persist_holds

theorem State.alertWrite_holds {Q : List Instr} (s : State) (v : BitVec 64) (hq : s.Holds Q) :
    ((State.alertWrite s v)).Holds Q := by
  unfold State.alertWrite
  try dsimp only
  repeat' first
    | with_reducible assumption
    | intro _
    | with_reducible apply State.wreg_holds
    | with_reducible apply State.persist_holds

theorem State.ppsWrite_holds {Q : List Instr} (s : State) (v : BitVec 64) (hq : s.Holds Q) :
    ((State.ppsWrite s v)).Holds Q := by
  unfold State.ppsWrite
  try dsimp only
  repeat' first
    | with_reducible assumption
    | intro _
    | with_reducible apply State.wreg_holds
    | with_reducible apply State.persist_holds

theorem State.faultClearWrite_holds {Q : List Instr} (s : State) (v : BitVec 64) (hq : s.Holds Q) :
    ((State.faultClearWrite s v)).Holds Q := by
  unfold State.faultClearWrite
  try dsimp only
  repeat' first
    | with_reducible assumption
    | with_reducible apply State.wreg_holds
    | with_reducible apply State.w_holds
    | with_reducible apply State.ite_holds
    | split

theorem State.startPsn_holds {Q : List Instr} (s : State) (hq : s.Holds Q) :
    ((State.startPsn s).2).Holds Q := by
  unfold State.startPsn
  try dsimp only
  repeat' first
    | with_reducible assumption
    | with_reducible apply State.undef_holds

theorem State.aqpCreate_holds {Q : List Instr} (s : State) (hq : s.Holds Q) :
    ((State.aqpCreate s)).Holds Q := by
  unfold State.aqpCreate
  try dsimp only
  repeat' first
    | with_reducible assumption
    | intro _
    | with_reducible apply State.qpStop_holds
    | with_reducible apply State.startPsn_holds
    | with_reducible apply State.upFoyer_holds
    | with_reducible apply State.w_holds
    | with_reducible apply State.foldl_holds
    | with_reducible apply State.foldl_holds_fst
    | split

theorem State.writeReg_holds {Q : List Instr} (s : State) (r : Reg) (k i : Nat) (v : BitVec 64) (hq : s.Holds Q) :
    ((State.writeReg s r k i v)).Holds Q := by
  unfold State.writeReg
  try dsimp only
  repeat' first
    | with_reducible assumption
    | intro _
    | with_reducible apply State.clkWrite_holds
    | with_reducible apply State.dbgWrite_holds
    | with_reducible apply State.landCtrlWrite_holds
    | with_reducible apply State.portCfgWrite_holds
    | with_reducible apply State.ptpWrite_holds
    | with_reducible apply State.setTail_holds
    | with_reducible apply State.setChead_holds
    | with_reducible apply State.setEhead_holds
    | with_reducible apply State.pcapWrite_holds
    | with_reducible apply State.alertWrite_holds
    | with_reducible apply State.ppsWrite_holds
    | with_reducible apply State.faultClearWrite_holds
    | with_reducible apply State.aqpCreate_holds
    | with_reducible apply State.swWriteReg_holds
    | with_reducible apply State.wreg_holds
    | with_reducible apply State.w_holds
    | with_reducible apply State.ite_holds
    | split

theorem State.ctlWrite_holds {Q : List Instr} (s : State) (a : Nat) (v : BitVec 64) (hq : s.Holds Q) :
    ((State.ctlWrite s a v)).Holds Q := by
  unfold State.ctlWrite
  try dsimp only
  repeat' first
    | with_reducible assumption
    | with_reducible apply State.writeReg_holds
    | split

theorem State.resetHall_holds {Q : List Instr} (s : State) (h : Nat) (hq : s.Holds Q) :
    ((State.resetHall s h)).Holds Q := by
  unfold State.resetHall
  try dsimp only
  iterate 30 try any_goals first
    | with_reducible assumption
    | intro _
    | with_reducible apply State.w_holds
    | with_reducible apply State.setTile_holds
    | with_reducible apply State.setHall_holds
    | with_reducible apply State.wreg_holds
    | with_reducible apply State.foldl_holds
    | with_reducible apply State.foldl_holds_fst
    | with_reducible apply State.holds_mk

theorem State.clearHall_holds {Q : List Instr} (s : State) (h : Nat) (counts : Nat × Nat × Nat) (hq : s.Holds Q) :
    ((State.clearHall s h counts)).Holds Q := by
  unfold State.clearHall
  try dsimp only
  repeat' first
    | with_reducible assumption
    | intro _
    | with_reducible apply State.alcSet_holds
    | with_reducible apply State.alcShut_holds
    | with_reducible apply State.resetHall_holds
    | with_reducible apply State.wreg_holds
    | with_reducible apply State.foldl_holds
    | with_reducible apply State.foldl_holds_fst

theorem State.setFault_holds {Q : List Instr} (s : State) (h : Nat) (on : Bool) (hq : s.Holds Q) :
    ((State.setFault s h on)).Holds Q := by
  unfold State.setFault
  try dsimp only
  repeat' first
    | with_reducible assumption
    | with_reducible apply State.w_holds
    | with_reducible apply State.ite_holds
    | split

theorem State.markHall_holds {Q : List Instr} (s : State) (h cause : Nat) (report : Bool) (hq : s.Holds Q) :
    ((State.markHall s h cause report)).Holds Q := by
  unfold State.markHall
  try dsimp only
  repeat' first
    | with_reducible assumption
    | with_reducible apply State.setFault_holds
    | with_reducible apply State.mssLog_holds
    | with_reducible apply State.w_holds
    | with_reducible apply State.event_holds
    | with_reducible apply State.ite_holds
    | split

theorem State.roceTaken_holds {Q : List Instr} (s : State) (q : Qp) (hq : s.Holds Q) :
    ((State.roceTaken s q)).Holds Q := by
  unfold State.roceTaken
  try dsimp only
  repeat' first
    | with_reducible assumption
    | with_reducible apply State.inc_holds

theorem State.cnpNow_holds {Q : List Instr} (s : State) (n : Nat) (q : Qp) (hq : s.Holds Q) :
    ((State.cnpNow s n q)).Holds Q := by
  unfold State.cnpNow
  try dsimp only
  repeat' first
    | with_reducible assumption
    | intro _
    | with_reducible apply State.roceSend_holds
    | with_reducible apply State.inc_holds
    | with_reducible apply State.upQp_holds

theorem State.ceSeen_holds {Q : List Instr} (s : State) (n : Nat) (q : Qp) (hq : s.Holds Q) :
    ((State.ceSeen s n q)).Holds Q := by
  unfold State.ceSeen
  try dsimp only
  repeat' first
    | with_reducible assumption
    | with_reducible apply State.inc_holds
    | with_reducible apply State.cnpNow_holds
    | with_reducible apply State.ite_holds
    | split

/-- The state that the transport checks leave. -/
def RoceIn.state : RoceIn → State
  | .gone s => s
  | .again s _ => s
  | .good s _ => s
theorem State.roceCheck_holds {Q : List Instr} (s : State) (k : RocePkt) (whole : Bool) (hq : s.Holds Q) : (s.roceCheck k whole).state.Holds Q := by
  let P : RoceIn → Prop := fun r => r.state.Holds Q
  show P _
  unfold State.roceCheck
  refine ite_ind hq ?_
  extract_lets m s1
  have h0 : m.1.Holds Q := State.macIn_holds _ _ _ hq
  have h1 : s1.Holds Q := h0
  clear_value s1
  clear_value m
  refine ite_ind (P := P) (show P (.gone m.1) from h0) ?_
  split
  · exact h1
  · refine ite_ind h1 ?_
    extract_lets s2 d
    have h2 : s2.Holds Q := ite_ind (P := fun x : State => x.Holds Q) (State.ceSeen_holds _ _ _ h1) h1
    clear_value s2
    have hn : ∀ q c p, P (.gone (s2.roceNak k.qpn q c p)) := fun q c p => State.roceNak_holds s2 k.qpn q c p h2
    exact ite_ind h2 (ite_ind (hn _ _ _) (ite_ind (hn _ _ _) (ite_ind (hn _ _ _) (ite_ind (hn _ _ _) (State.roceTaken_holds _ _ h2)))))

theorem State.regionCheck_holds {Q : List Instr} (s : State) (q : Qp) (rkey va len : Nat) (write : Bool) (hq : s.Holds Q) :
    ((State.regionCheck s q rkey va len write).1).Holds Q := by
  unfold State.regionCheck
  try dsimp only
  repeat' first
    | with_reducible assumption
    | intro _
    | with_reducible apply State.w_holds
    | with_reducible apply State.alcViolation_holds
    | with_reducible apply State.ite_holds
    | split

theorem State.frameWrite_holds {Q : List Instr} (s : State) (f o : Nat) (b : List Nat) (hq : s.Holds Q) :
    ((State.frameWrite s f o b)).Holds Q := by
  unfold State.frameWrite
  try dsimp only
  repeat' first
    | with_reducible assumption
    | intro _
    | with_reducible apply State.readFrame_holds
    | with_reducible apply State.writeFrame_holds
    | with_reducible apply State.ite_holds
    | with_reducible apply State.foldl_holds
    | with_reducible apply State.foldl_holds_fst
    | split

theorem State.ringWrite_holds {Q : List Instr} (s : State) (q o : Nat) (b : List Nat) (hq : s.Holds Q) :
    ((State.ringWrite s q o b)).Holds Q := by
  unfold State.ringWrite
  try dsimp only
  repeat' first
    | with_reducible assumption
    | with_reducible apply State.frameWrite_holds

theorem State.hostLines_holds {Q : List Instr} (s : State) (p a : Nat) (b : List Nat) (hq : s.Holds Q) :
    (∀ t, s.hostLines p a b = .ok t → t.Holds Q) ∧ (∀ t, s.hostLines p a b = .error t → t.Holds Q) := by
  unfold State.hostLines
  extract_lets ls olds u
  have h1 : u.Holds Q := State.foldl_holds_fst _ _ (fun v x hv => State.readLine_holds _ _ hv) hq
  clear_value u
  clear_value olds
  split
  · refine ⟨fun t h => (nomatch h), fun t h => ?_⟩
    cases h
    split
    · exact State.askCopy_holds _ _ _ hq
    · exact hq
  · split
    · exact ⟨fun t h => (nomatch h), fun t h => by cases h; exact h1⟩
    · refine ⟨fun t h => ?_, fun t h => (nomatch h)⟩
      cases h
      refine State.foldl_holds _ _ (fun v x hv => ?_) h1
      split
      · exact State.contribHold_holds _ _ _ hv
      · exact State.contribCount_holds _ _ _ _ (State.writeLine_holds _ _ _ _ _ hv)

theorem State.regionWrite_holds {Q : List Instr} (s : State) (c : QpCur) (b : List Nat) (hq : s.Holds Q) :
    (∀ t, s.regionWrite c b = .ok t → t.1.Holds Q) ∧ (∀ t, s.regionWrite c b = .error t → t.Holds Q) := by
  unfold State.regionWrite
  extract_lets r a all w
  clear_value a
  split
  · split
    · exact ⟨fun t h => by cases h; exact hq, fun t h => (nomatch h)⟩
    · split
      · have hl := State.hostLines_holds s r.part a b hq
        split
        · next t e => exact ⟨fun u h => by cases h; exact hl.1 t e, fun u h => (nomatch h)⟩
        · next t e => exact ⟨fun u h => (nomatch h), fun u h => by cases h; exact hl.2 t e⟩
      · exact ⟨fun t h => by cases h; exact hq, fun t h => (nomatch h)⟩
  · exact ⟨fun t h => by cases h; exact State.deliver_holds _ _ _ _ hq, fun t h => (nomatch h)⟩
  · exact ⟨fun t h => by cases h; exact State.foldl_holds _ _ (fun u x hu => State.ctlWrite_holds _ _ _ hu) hq, fun t h => (nomatch h)⟩
  · exact ⟨fun t h => by cases h; exact State.ringWrite_holds _ _ _ _ hq, fun t h => (nomatch h)⟩

theorem State.hostAccess_holds {Q : List Instr} (s : State) (n t alc : Nat) (start : Bool) (hq : s.Holds Q) :
    ((State.hostAccess s n t alc start)).Holds Q := by
  unfold State.hostAccess
  try dsimp only
  repeat' first
    | with_reducible assumption
    | intro _
    | with_reducible apply State.upTile_holds
    | with_reducible apply State.ite_holds
    | split

theorem State.ctlReads_holds {Q : List Instr} (s : State) (a k : Nat) (hq : s.Holds Q) :
    ((State.ctlReads s a k).1).Holds Q := by
  induction k generalizing s a with
  | zero => exact hq
  | succ k ih =>
    unfold State.ctlReads
    try dsimp only
    repeat' first
      | with_reducible assumption
      | with_reducible apply ih
      | intro _
      | with_reducible apply State.ctlRead_holds

theorem State.regionRead_holds {Q : List Instr} (s : State) (r : Region_) (who va len : Nat) (hq : s.Holds Q) :
    ((State.regionRead s r who va len).1).Holds Q := by
  unfold State.regionRead
  try dsimp only
  repeat' first
    | with_reducible assumption
    | intro _
    | with_reducible apply State.holdRead_holds
    | with_reducible apply State.readBytes_holds
    | with_reducible apply State.readWords_holds
    | with_reducible apply State.w_holds
    | with_reducible apply State.ctlReads_holds
    | with_reducible apply State.ite_holds
    | split

theorem State.readResponses_holds {Q : List Instr} (s : State) (n : Nat) (q : Qp) (psn : Nat) (L : List (List (Nat × Bool))) (hq : s.Holds Q) :
    ((State.readResponses s n q psn L)).Holds Q := by
  induction L generalizing s psn with
  | nil => exact hq
  | cons x rest ih =>
    unfold State.readResponses
    try dsimp only
    repeat' first
      | with_reducible assumption
      | with_reducible apply ih
      | with_reducible apply State.roceNak_holds
      | with_reducible apply State.roceSend_holds
      | with_reducible apply State.ite_holds
      | split

theorem State.opDone_holds {Q : List Instr} (s : State) (o : QpOp) (hq : s.Holds Q) :
    ((State.opDone s o)).Holds Q := by
  unfold State.opDone
  try dsimp only
  repeat' first
    | with_reducible assumption
    | with_reducible apply State.cmdDone_holds
    | split

theorem State.qpAcked_holds {Q : List Instr} (s : State) (n psn k : Nat) (hq : s.Holds Q) :
    ((State.qpAcked s n psn k)).Holds Q := by
  induction k generalizing s with
  | zero => exact hq
  | succ k ih =>
    unfold State.qpAcked
    try dsimp only
    repeat' first
      | with_reducible assumption
      | with_reducible apply ih
      | intro _
      | with_reducible apply State.upQp_holds
      | with_reducible apply State.opDone_holds
      | with_reducible apply State.ite_holds
      | split

theorem State.sendFrame_holds {Q : List Instr} (s : State) (x kind : Nat) (fields : List Nat) (hq : s.Holds Q) :
    ((State.sendFrame s x kind fields)).Holds Q := by
  unfold State.sendFrame
  try dsimp only
  repeat' first
    | with_reducible assumption
    | with_reducible apply State.emit_holds
    | with_reducible apply State.inc_holds

theorem State.ptpSteer_holds {Q : List Instr} (s : State) (off : Int) (hq : s.Holds Q) :
    ((State.ptpSteer s off)).Holds Q := by
  unfold State.ptpSteer
  try dsimp only
  iterate 30 try any_goals first
    | with_reducible assumption
    | with_reducible apply State.ite_holds
    | split
    | with_reducible apply State.holds_mk

theorem State.ringSlots_holds {Q : List Instr} (s : State) (q c k : Nat) (hq : s.Holds Q) :
    ((State.ringSlots s q c k).1).Holds Q := by
  unfold State.ringSlots
  try dsimp only
  repeat' first
    | with_reducible assumption
    | intro _
    | with_reducible apply State.readFrame_holds
    | with_reducible apply State.ite_holds
    | with_reducible apply State.foldl_holds
    | with_reducible apply State.foldl_holds_fst
    | split

end Sys2Proof.Machine
end

