-- ==== Sys2Proof/Laws/HoldsModule.lean ====
section
/-! SUPPORT. The functions on states of the management subsystem, partitions, launch, resets and pins keep the queue and the canonical form of frame memory (`State.Holds`). -/

namespace Sys2Proof.Machine

theorem State.ctlRefuse_holds {Q : List Instr} (s : State) (hq : s.Holds Q) :
    ((State.ctlRefuse s)).Holds Q := by
  unfold State.ctlRefuse
  try dsimp only
  repeat' first
    | with_reducible assumption
    | intro _
    | with_reducible apply State.roceNak_holds
    | split

theorem State.flashApply_holds {Q : List Instr} (s : State) (op : FlashOp) (hq : s.Holds Q) :
    ((State.flashApply s op)).Holds Q := by
  unfold State.flashApply
  try dsimp only
  repeat' first
    | with_reducible assumption
    | intro _
    | with_reducible apply State.upMss_holds
    | with_reducible apply State.w_holds
    | with_reducible apply State.persist_holds
    | with_reducible apply State.setSlot_holds
    | split

theorem State.flashFinish_holds {Q : List Instr} (s : State) (hq : s.Holds Q) :
    ((State.flashFinish s)).Holds Q := by
  unfold State.flashFinish
  try dsimp only
  repeat' first
    | with_reducible assumption
    | with_reducible apply State.flashApply_holds
    | with_reducible apply State.ite_holds
    | split

theorem State.updateVerify_holds {Q : List Instr} (s : State) (hq : s.Holds Q) :
    ((State.updateVerify s)).Holds Q := by
  unfold State.updateVerify
  try dsimp only
  repeat' first
    | with_reducible assumption
    | intro _
    | with_reducible apply State.w_holds
    | with_reducible apply State.emit_holds
    | with_reducible apply State.upMss_holds
    | with_reducible apply State.setSlot_holds
    | with_reducible apply State.updateFail_holds
    | with_reducible apply State.ite_holds
    | split

theorem State.updateDone_holds {Q : List Instr} (s : State) (u : Update) (hq : s.Holds Q) :
    ((State.updateDone s u)).Holds Q := by
  unfold State.updateDone
  try dsimp only
  repeat' first
    | with_reducible assumption
    | intro _
    | with_reducible apply State.w_holds
    | with_reducible apply State.upMss_holds
    | with_reducible apply State.event_holds
    | with_reducible apply State.cmdDone_holds
    | with_reducible apply State.emit_holds
    | with_reducible apply State.ite_holds
    | split

theorem State.flashThen_holds {Q : List Instr} (s : State) (op : FlashOp) (hq : s.Holds Q) :
    ((State.flashThen s op)).Holds Q := by
  unfold State.flashThen
  try dsimp only
  repeat' first
    | with_reducible assumption
    | intro _
    | with_reducible apply State.upMss_holds
    | with_reducible apply State.w_holds
    | with_reducible apply State.persist_holds
    | with_reducible apply State.updateDone_holds
    | with_reducible apply State.updateVerify_holds
    | with_reducible apply State.mssLog_holds
    | with_reducible apply State.ite_holds
    | split

theorem State.flashRefused_holds {Q : List Instr} (s : State) (op : FlashOp) (hq : s.Holds Q) :
    ((State.flashRefused s op)).Holds Q := by
  unfold State.flashRefused
  try dsimp only
  repeat' first
    | with_reducible assumption
    | intro _
    | with_reducible apply State.updateFail_holds
    | with_reducible apply State.upMss_holds
    | with_reducible apply State.persist_holds
    | with_reducible apply State.w_holds
    | with_reducible apply State.ite_holds
    | split

theorem State.holdupLog_holds {Q : List Instr} (s : State) (e kind result : Nat) (hq : s.Holds Q) :
    ((State.holdupLog s e kind result)).Holds Q := by
  unfold State.holdupLog
  try dsimp only
  repeat' first
    | with_reducible assumption
    | intro _
    | with_reducible apply State.mssLog_holds
    | with_reducible apply State.upMss_holds
    | with_reducible apply State.ite_holds
    | split

theorem State.holdupShow_holds {Q : List Instr} (s : State) (e : Option Nat) (hq : s.Holds Q) :
    ((State.holdupShow s e)).Holds Q := by
  unfold State.holdupShow
  try dsimp only
  repeat' first
    | with_reducible assumption
    | intro _
    | with_reducible apply State.wreg_holds
    | with_reducible apply State.upMss_holds
    | with_reducible apply State.sensorRead_holds
    | with_reducible apply State.ite_holds
    | split

theorem State.flashStart_holds {Q : List Instr} (s : State) (f : FlashOp) (hq : s.Holds Q) :
    ((State.flashStart s f)).Holds Q := by
  unfold State.flashStart
  try dsimp only
  repeat' first
    | with_reducible assumption
    | intro _
    | with_reducible apply State.upMss_holds
    | with_reducible apply State.mssLog_holds
    | with_reducible apply State.ite_holds
    | split

theorem State.flashDenied_holds {Q : List Instr} (s : State) (f : FlashOp) (v op : Nat) (failed : Bool) (hq : s.Holds Q) :
    ((State.flashDenied s f v op failed)).Holds Q := by
  unfold State.flashDenied
  try dsimp only
  repeat' first
    | with_reducible assumption
    | with_reducible apply State.inc_holds
    | with_reducible apply State.w_holds
    | with_reducible apply State.holdupLog_holds
    | with_reducible apply State.flashRefused_holds
    | with_reducible apply State.ite_holds
    | split

theorem State.flashTry_holds {Q : List Instr} (s : State) (e : Option Nat) (op : Nat) (hq : s.Holds Q) :
    ((State.flashTry s e op)).Holds Q := by
  unfold State.flashTry
  try dsimp only
  repeat' first
    | with_reducible assumption
    | intro _
    | with_reducible apply State.holdupLog_holds
    | with_reducible apply State.flashStart_holds
    | with_reducible apply State.flashDenied_holds
    | with_reducible apply State.ite_holds
    | split

theorem State.resetPartRegs_holds {Q : List Instr} (s : State) (p : Nat) (sp : Bool) (hq : s.Holds Q) :
    ((State.resetPartRegs s p sp)).Holds Q := by
  unfold State.resetPartRegs
  try dsimp only
  iterate 30 try any_goals first
    | with_reducible assumption
    | intro _
    | with_reducible apply State.wreg_holds
    | with_reducible apply State.ite_holds
    | with_reducible apply State.foldl_holds
    | with_reducible apply State.foldl_holds_fst
    | split
    | with_reducible apply State.holds_mk

theorem State.resetAdopted_holds {Q : List Instr} (s : State) (p : Nat) (hq : s.Holds Q) :
    ((State.resetAdopted s p)).Holds Q := by
  unfold State.resetAdopted
  try dsimp only
  repeat' first
    | with_reducible assumption
    | intro _
    | with_reducible apply State.wreg_holds
    | with_reducible apply State.foldl_holds
    | with_reducible apply State.foldl_holds_fst

theorem State.partOn_holds {Q : List Instr} (s : State) (p quota : Nat) (halls : List Nat) (adopted : Bool) (hq : s.Holds Q) :
    ((State.partOn s p quota halls adopted)).Holds Q := by
  unfold State.partOn
  try dsimp only
  iterate 30 try any_goals first
    | with_reducible assumption
    | intro _
    | with_reducible apply State.resetPartRegs_holds
    | with_reducible apply State.resetAdopted_holds
    | with_reducible apply State.resetHall_holds
    | with_reducible apply State.w_holds
    | with_reducible apply State.alcSet_holds
    | with_reducible apply State.ite_holds
    | with_reducible apply State.foldl_holds
    | with_reducible apply State.foldl_holds_fst
    | split
    | with_reducible apply State.holds_mk

theorem State.captureTile_holds {Q : List Instr} (s : State) (n a : Nat) (hq : s.Holds Q) :
    ((State.captureTile s n a)).Holds Q := by
  unfold State.captureTile
  try dsimp only
  repeat' first
    | with_reducible assumption
    | intro _
    | with_reducible apply State.writeLines_holds
    | with_reducible apply State.ctlRead_holds
    | with_reducible apply State.foldl_holds
    | with_reducible apply State.foldl_holds_fst

theorem State.hallStop_holds {Q : List Instr} (s : State) (h : Nat) (hq : s.Holds Q) :
    ((State.hallStop s h)).Holds Q := by
  unfold State.hallStop
  try dsimp only
  iterate 30 try any_goals first
    | with_reducible assumption
    | intro _
    | with_reducible apply State.upTile_holds
    | with_reducible apply State.upHall_holds
    | with_reducible apply State.w_holds
    | with_reducible apply State.foldl_holds
    | with_reducible apply State.foldl_holds_fst
    | with_reducible apply State.holds_mk

theorem State.capture_holds {Q : List Instr} (s : State) (p base : Nat) (hq : s.Holds Q) :
    ((State.capture s p base).1).Holds Q := by
  unfold State.capture
  try dsimp only
  repeat' first
    | with_reducible assumption
    | intro _
    | with_reducible apply State.captureTile_holds
    | with_reducible apply State.hallStop_holds
    | with_reducible apply State.ite_holds
    | with_reducible apply State.foldl_holds
    | with_reducible apply State.foldl_holds_fst
    | split

theorem State.abortCommands_holds {Q : List Instr} (s : State) (p : Nat) (hq : s.Holds Q) :
    ((State.abortCommands s p)).Holds Q := by
  unfold State.abortCommands
  try dsimp only
  repeat' first
    | with_reducible assumption
    | intro _
    | with_reducible apply State.upFoyer_holds
    | with_reducible apply State.cmdDone_holds
    | with_reducible apply State.upPart_holds
    | with_reducible apply State.upProt_holds
    | with_reducible apply State.foldl_holds
    | with_reducible apply State.foldl_holds_fst
    | split

theorem State.dropPeers_holds {Q : List Instr} (s : State) (p : Nat) (hq : s.Holds Q) :
    ((State.dropPeers s p)).Holds Q := by
  unfold State.dropPeers
  try dsimp only
  iterate 30 try any_goals first
    | with_reducible assumption
    | intro _
    | with_reducible apply State.sendCtrl_holds
    | with_reducible apply State.w_holds
    | with_reducible apply State.foldl_holds
    | with_reducible apply State.foldl_holds_fst
    | with_reducible apply State.holds_mk

theorem State.hallOff_holds {Q : List Instr} (s : State) (h : Nat) (hq : s.Holds Q) :
    ((State.hallOff s h)).Holds Q := by
  unfold State.hallOff
  try dsimp only
  iterate 30 try any_goals first
    | with_reducible assumption
    | intro _
    | with_reducible apply State.w_holds
    | with_reducible apply State.upTile_holds
    | with_reducible apply State.upHall_holds
    | with_reducible apply State.evict_holds
    | with_reducible apply State.foldl_holds
    | with_reducible apply State.foldl_holds_fst
    | with_reducible apply State.holds_mk

theorem State.beginEnd_holds {Q : List Instr} (s : State) (c : RunCmd) (p : Nat) (kill : Bool) (cap : Option Nat) (hq : s.Holds Q) :
    ((State.beginEnd s c p kill cap)).Holds Q := by
  unfold State.beginEnd
  try dsimp only
  iterate 30 try any_goals first
    | with_reducible assumption
    | intro _
    | with_reducible apply State.upPart_holds
    | with_reducible apply State.abortCommands_holds
    | with_reducible apply State.snapFail_holds
    | with_reducible apply State.catchStop_holds
    | with_reducible apply State.digestDrop_holds
    | with_reducible apply State.dropPeers_holds
    | with_reducible apply State.capture_holds
    | with_reducible apply State.hallOff_holds
    | with_reducible apply State.upFoyer_holds
    | with_reducible apply State.foldl_holds
    | with_reducible apply State.foldl_holds_fst
    | split
    | with_reducible apply State.holds_mk

theorem State.endRelease_holds {Q : List Instr} (s : State) (x : Release) (hq : s.Holds Q) :
    ((State.endRelease s x)).Holds Q := by
  unfold State.endRelease
  try dsimp only
  iterate 30 try any_goals first
    | with_reducible assumption
    | intro _
    | with_reducible apply State.upFoyer_holds
    | with_reducible apply State.mssLog_holds
    | with_reducible apply State.cmdDone_holds
    | with_reducible apply State.destroyQueue_holds
    | with_reducible apply State.qpStop_holds
    | with_reducible apply State.event_holds
    | with_reducible apply State.resetPartRegs_holds
    | with_reducible apply State.wreg_holds
    | with_reducible apply State.ite_holds
    | with_reducible apply State.foldl_holds
    | with_reducible apply State.foldl_holds_fst
    | split
    | with_reducible apply State.holds_mk

theorem openAll_holds {Q : List Instr} {α : Type} (r : State → α → Bool) (o : State → α → State) (ho : ∀ s a, s.Holds Q → (o s a).Holds Q) (L : List α) (s t : State)
    (hq : s.Holds Q) (h : openAll r o s L = some t) : t.Holds Q := by
  induction L generalizing s with
  | nil => cases h; exact hq
  | cons d l ih =>
    unfold openAll at h
    split at h
    · cases h
    · exact ih _ (ho _ _ hq) h

theorem State.launchOpens_holds {Q : List Instr} (s : State) (n : Nat) (x : TileImage) (hq : s.Holds Q) (t : State) (h : s.launchOpens n x = some t) : t.Holds Q := by
  unfold State.launchOpens at h
  obtain ⟨b, hb, h3⟩ := Option.bind_eq_some_iff.1 h
  obtain ⟨a, ha, h2⟩ := Option.bind_eq_some_iff.1 hb
  have h0 := State.w_holds _ F.SEQ_CODE_LIMIT n 0 x.codeLimit (State.w_holds s F.SEQ_CODE_BASE n 0 x.codeBase hq)
  have h1 : a.Holds Q := openAll_holds _ _ (fun u y hu => State.alcSet_holds _ _ _ _ hu) _ _ _ (ite_ind (P := fun x : State => x.Holds Q) (State.alcShut_holds _ _ _ h0) h0) ha
  have h4 : b.Holds Q := openAll_holds _ _ (fun u y hu => State.openIn_holds _ _ _ hu) _ _ _ h1 h2
  exact openAll_holds _ _ (fun u y hu => State.openOut_holds _ _ _ hu) _ _ _ h4 h3

theorem State.opensFrom_holds {Q : List Instr} (g : Image) (L : List (Nat × Nat)) (s t : State) (hq : s.Holds Q) (h : s.opensFrom g L = some t) : t.Holds Q := by
  induction L generalizing s with
  | nil => cases h; exact hq
  | cons x l ih =>
    unfold State.opensFrom at h
    split at h
    · next u e => exact ih u (State.launchOpens_holds _ _ _ hq _ e) h
    · cases h
theorem State.imageOpens_holds {Q : List Instr} (s : State) (p : Nat) (g : Image) (hq : s.Holds Q) (t : State) (h : s.imageOpens p g = some t) : t.Holds Q :=
  State.opensFrom_holds g _ s t hq h

theorem State.loadRouter_holds {Q : List Instr} (s : State) (h : Nat) (r : HallImage) (hq : s.Holds Q) :
    ((State.loadRouter s h r)).Holds Q := by
  unfold State.loadRouter
  try dsimp only
  iterate 30 try any_goals first
    | with_reducible assumption
    | intro _
    | with_reducible apply State.upHall_holds
    | with_reducible apply State.deliver_holds
    | with_reducible apply State.foldl_holds
    | with_reducible apply State.foldl_holds_fst
    | with_reducible apply State.holds_mk

theorem State.copyHtab_holds {Q : List Instr} (s : State) (n base : Nat) (hq : s.Holds Q) :
    ((State.copyHtab s n base)).Holds Q := by
  unfold State.copyHtab
  try dsimp only
  repeat' first
    | with_reducible assumption
    | intro _
    | with_reducible apply State.readWords_holds
    | with_reducible apply State.w_holds
    | with_reducible apply State.upTile_holds
    | with_reducible apply State.ite_holds
    | with_reducible apply State.foldl_holds
    | with_reducible apply State.foldl_holds_fst
    | split

theorem State.launchTile_holds {Q : List Instr} (s : State) (n : Nat) (t : TileImage) (hq : s.Holds Q) :
    ((State.launchTile s n t)).Holds Q := by
  unfold State.launchTile
  try dsimp only
  repeat' first
    | with_reducible assumption
    | intro _
    | with_reducible apply State.copyHtab_holds
    | with_reducible apply State.w_holds
    | with_reducible apply State.upTile_holds
    | with_reducible apply State.ite_holds
    | split

theorem State.blank_holds {Q : List Instr} (s : State) (phase : Phase) (cause : Nat) (hq : s.Holds Q) :
    ((State.blank s phase cause)).Holds Q := ⟨hq.1, rfl⟩

theorem State.coldReset_holds {Q : List Instr} (s : State) (cause : Nat) (hq : s.Holds Q) :
    ((State.coldReset s cause)).Holds Q := by
  unfold State.coldReset
  try dsimp only
  repeat' first
    | with_reducible assumption
    | with_reducible apply State.flashFinish_holds
    | with_reducible apply State.blank_holds

theorem State.powerDown_holds {Q : List Instr} (s : State) (hq : s.Holds Q) :
    ((State.powerDown s)).Holds Q := by
  unfold State.powerDown
  try dsimp only
  iterate 30 try any_goals first
    | with_reducible assumption
    | with_reducible apply State.blank_holds
    | with_reducible apply State.holds_mk

theorem State.warmReset_holds {Q : List Instr} (s : State) (cause : Nat) (hq : s.Holds Q) :
    ((State.warmReset s cause)).Holds Q := by
  unfold State.warmReset
  try dsimp only
  iterate 30 try any_goals first
    | with_reducible assumption
    | intro _
    | with_reducible apply State.dropPeers_holds
    | with_reducible apply State.writeBackHall_holds
    | with_reducible apply State.flashFinish_holds
    | with_reducible apply State.inc_holds
    | with_reducible apply State.w_holds
    | with_reducible apply State.wreg_holds
    | with_reducible apply State.ite_holds
    | with_reducible apply State.foldl_holds
    | with_reducible apply State.foldl_holds_fst
    | split
    | with_reducible apply State.holds_mk

theorem State.activateNow_holds {Q : List Instr} (s : State) (hq : s.Holds Q) :
    ((State.activateNow s)).Holds Q := by
  unfold State.activateNow
  try dsimp only
  repeat' first
    | with_reducible assumption
    | with_reducible apply State.warmReset_holds
    | with_reducible apply State.ite_holds
    | split

theorem State.throttleOn_holds {Q : List Instr} (s : State) (hq : s.Holds Q) :
    ((State.throttleOn s)).Holds Q := by
  unfold State.throttleOn
  try dsimp only
  iterate 30 try any_goals first
    | with_reducible assumption
    | intro _
    | with_reducible apply State.w_holds
    | with_reducible apply State.showCapped_holds
    | with_reducible apply State.event_holds
    | with_reducible apply State.ite_holds
    | with_reducible apply State.foldl_holds
    | with_reducible apply State.foldl_holds_fst
    | split
    | with_reducible apply State.holds_mk

theorem State.bootUnits_holds {Q : List Instr} (s : State) (warm : Bool) (fails : List Nat) (hq : s.Holds Q) :
    ((State.bootUnits s warm fails)).Holds Q := by
  unfold State.bootUnits
  try dsimp only
  iterate 30 try any_goals first
    | with_reducible assumption
    | intro _
    | with_reducible apply State.w_holds
    | with_reducible apply State.wreg_holds
    | with_reducible apply State.markHall_holds
    | with_reducible apply State.ite_holds
    | with_reducible apply State.foldl_holds
    | with_reducible apply State.foldl_holds_fst
    | split
    | with_reducible apply State.holds_mk

theorem State.bootUpdate_holds {Q : List Instr} (s : State) (k : Nat) (refused spent : Bool) (hq : s.Holds Q) :
    ((State.bootUpdate s k refused spent)).Holds Q := by
  unfold State.bootUpdate
  try dsimp only
  repeat' first
    | with_reducible assumption
    | intro _
    | with_reducible apply State.upMss_holds
    | with_reducible apply State.inc_holds
    | with_reducible apply State.w_holds
    | with_reducible apply State.event_holds
    | with_reducible apply State.ite_holds
    | split

theorem State.tceilStep_holds {Q : List Instr} (s : State) (h : Nat) (hq : s.Holds Q) :
    ((State.tceilStep s h)).Holds Q := by
  unfold State.tceilStep
  try dsimp only
  repeat' first
    | with_reducible assumption
    | with_reducible apply State.w_holds
    | with_reducible apply State.ite_holds
    | split

theorem State.powerUp_holds {Q : List Instr} (s : State) (hq : s.Holds Q) :
    ((State.powerUp s)).Holds Q := by
  unfold State.powerUp
  try dsimp only
  iterate 30 try any_goals first
    | with_reducible assumption
    | with_reducible apply State.holds_mk

theorem State.tapTo_holds {Q : List Instr} (s : State) (k : Nat) (hq : s.Holds Q) :
    ((State.tapTo s k)).Holds Q := by
  unfold State.tapTo
  try dsimp only
  iterate 30 try any_goals first
    | with_reducible assumption
    | with_reducible apply State.ite_holds
    | split
    | with_reducible apply State.holds_mk

theorem State.tapDrive_holds {Q : List Instr} (s : State) (k : Nat) (hq : s.Holds Q) :
    ((State.tapDrive s k)).Holds Q := by
  unfold State.tapDrive
  try dsimp only
  repeat' first
    | with_reducible assumption
    | with_reducible apply State.tapTo_holds
    | with_reducible apply State.emit_holds
    | with_reducible apply State.ite_holds
    | split

theorem State.setKey_holds {Q : List Instr} (s : State) (ctx slot dir : Nat) (v : Option (Nat × Nat)) (hq : s.Holds Q) :
    ((State.setKey s ctx slot dir v)).Holds Q := by
  unfold State.setKey
  try dsimp only
  repeat' first
    | with_reducible assumption
    | intro _
    | with_reducible apply State.upPeer_holds

theorem State.clearIn_holds {Q : List Instr} (s : State) (p k : Nat) (hq : s.Holds Q) :
    ((State.clearIn s p k)).Holds Q := by
  unfold State.clearIn
  try dsimp only
  repeat' first
    | with_reducible assumption
    | with_reducible apply State.wreg_holds

theorem State.restoreRead_holds {Q : List Instr} (s : State) (p hb off size : Nat) (hq : s.Holds Q) :
    ((State.restoreRead s p hb off size)).Holds Q := by
  unfold State.restoreRead
  try dsimp only
  repeat' first
    | with_reducible assumption
    | with_reducible apply State.hostOp_holds

theorem State.restorePages_holds {Q : List Instr} (s : State) (p : Nat) (c : RunCmd) (b : List Nat) (ids : Option (List Nat)) (hq : s.Holds Q) :
    ((State.restorePages s p c b ids)).Holds Q := by
  unfold State.restorePages
  try dsimp only
  repeat' first
    | with_reducible assumption
    | intro _
    | with_reducible apply State.cmdDone_holds
    | with_reducible apply State.writeFrame_holds
    | with_reducible apply State.dropPage_holds
    | with_reducible apply State.clearFrame_holds
    | with_reducible apply State.upPages_holds
    | with_reducible apply State.event_holds
    | with_reducible apply State.foldl_holds
    | with_reducible apply State.foldl_holds_fst
    | split

theorem State.restoreImage_holds {Q : List Instr} (s : State) (p : Nat) (c : RunCmd) (b : List Nat) (hq : s.Holds Q) :
    ((State.restoreImage s p c b)).Holds Q := by
  unfold State.restoreImage
  try dsimp only
  repeat' first
    | with_reducible assumption
    | intro _
    | with_reducible apply State.upProt_holds
    | with_reducible apply State.restorePages_holds

theorem State.restoreData_holds {Q : List Instr} (s : State) (p hb : Nat) (b : List Nat) (hq : s.Holds Q) :
    ((State.restoreData s p hb b)).Holds Q := by
  unfold State.restoreData
  try dsimp only
  repeat' first
    | with_reducible assumption
    | intro _
    | with_reducible apply State.upProt_holds
    | with_reducible apply State.restoreRead_holds
    | with_reducible apply State.restoreImage_holds
    | with_reducible apply State.ite_holds
    | split

theorem State.updateStart_holds {Q : List Instr} (s : State) (c : Option RunCmd) (total : Nat) (hq : s.Holds Q) :
    ((State.updateStart s c total)).Holds Q := by
  unfold State.updateStart
  try dsimp only
  repeat' first
    | with_reducible assumption
    | intro _
    | with_reducible apply State.w_holds
    | with_reducible apply State.upMss_holds
    | with_reducible apply State.freeSlot_holds

theorem State.updateData_holds {Q : List Instr} (s : State) (b : List Nat) (hq : s.Holds Q) :
    ((State.updateData s b)).Holds Q := by
  unfold State.updateData
  try dsimp only
  repeat' first
    | with_reducible assumption
    | intro _
    | with_reducible apply State.updateFail_holds
    | with_reducible apply State.upMss_holds
    | with_reducible apply State.ite_holds
    | split

theorem State.mctpControl_holds {Q : List Instr} (s : State) (code : Nat) (b : List Nat) (hq : s.Holds Q) :
    ((State.mctpControl s code b).1).Holds Q := by
  unfold State.mctpControl
  try dsimp only
  repeat' first
    | with_reducible assumption
    | intro _
    | with_reducible apply State.upMss_holds
    | with_reducible apply State.ite_holds
    | split

theorem State.pldmAsk_holds {Q : List Instr} (s : State) (hq : s.Holds Q) :
    ((State.pldmAsk s)).Holds Q := by
  unfold State.pldmAsk
  try dsimp only
  repeat' first
    | with_reducible assumption
    | with_reducible apply State.emit_holds
    | split

theorem State.updateCancel_holds {Q : List Instr} (s : State) (hq : s.Holds Q) :
    ((State.updateCancel s)).Holds Q := by
  unfold State.updateCancel
  try dsimp only
  repeat' first
    | with_reducible assumption
    | with_reducible apply State.undef_holds
    | with_reducible apply State.updateFail_holds

theorem State.pldmData_holds {Q : List Instr} (s : State) (cc : Nat) (b : List Nat) (hq : s.Holds Q) :
    ((State.pldmData s cc b)).Holds Q := by
  unfold State.pldmData
  try dsimp only
  repeat' first
    | with_reducible assumption
    | intro _
    | with_reducible apply State.pldmAsk_holds
    | with_reducible apply State.upMss_holds
    | with_reducible apply State.updateData_holds
    | with_reducible apply State.emit_holds
    | with_reducible apply State.ite_holds
    | split

theorem State.pldmUpdate_holds {Q : List Instr} (s : State) (cmd : Nat) (b : List Nat) (hq : s.Holds Q) :
    ((State.pldmUpdate s cmd b).1).Holds Q := by
  unfold State.pldmUpdate
  try dsimp only
  repeat' first
    | with_reducible assumption
    | intro _
    | with_reducible apply State.upMss_holds
    | with_reducible apply State.updateStart_holds
    | with_reducible apply State.pldmAsk_holds
    | with_reducible apply State.updateCancel_holds
    | with_reducible apply State.ite_holds
    | split

theorem State.pldmAnswer_holds {Q : List Instr} (s : State) (ty cmd : Nat) (b : List Nat) (hq : s.Holds Q) :
    ((State.pldmAnswer s ty cmd b).1).Holds Q := by
  unfold State.pldmAnswer
  try dsimp only
  repeat' first
    | with_reducible assumption
    | intro _
    | with_reducible apply State.upMss_holds
    | with_reducible apply State.pldmUpdate_holds
    | with_reducible apply State.ite_holds
    | with_reducible apply State.foldl_holds
    | with_reducible apply State.foldl_holds_fst
    | split

theorem State.upSpdm_holds {Q : List Instr} (s : State) (inBand : Bool) (f : Spdm → Spdm) (hq : s.Holds Q) :
    ((State.upSpdm s inBand f)).Holds Q := by
  unfold State.upSpdm
  try dsimp only
  repeat' first
    | with_reducible assumption
    | intro _
    | with_reducible apply State.upMss_holds
    | with_reducible apply State.ite_holds
    | split

theorem State.spdmAnswer_holds {Q : List Instr} (s : State) (band : Bool) (b : List Nat) (hq : s.Holds Q) :
    ((State.spdmAnswer s band b).1).Holds Q := by
  unfold State.spdmAnswer
  try dsimp only
  repeat' first
    | with_reducible assumption
    | intro _
    | with_reducible apply State.upSpdm_holds
    | with_reducible apply State.replicate_holds
    | with_reducible apply State.undef_holds
    | with_reducible apply State.ite_holds
    | split

theorem State.inBand_holds {Q : List Instr} (s : State) (b : List Nat) (hq : s.Holds Q) (t : State × List Nat) (h : s.inBand b = some t) : t.1.Holds Q := by
  unfold State.inBand at h
  dsimp only at h
  repeat' split at h
  all_goals first
    | (cases h; first
        | exact State.pldmAnswer_holds _ _ _ _ hq
        | exact State.pldmData_holds _ _ _ hq
        | exact State.spdmAnswer_holds _ _ _ hq)
    | exact nomatch h

theorem State.writeCorrection_holds {Q : List Instr} (s : State) (n a : Nat) (hq : s.Holds Q) :
    ((State.writeCorrection s n a)).Holds Q := by
  unfold State.writeCorrection
  try dsimp only
  repeat' first
    | with_reducible assumption
    | intro _
    | with_reducible apply State.upTile_holds
    | split

theorem State.landIssue_holds {Q : List Instr} (s : State) (n c kind sd : Nat) (hq : s.Holds Q) :
    ((State.landIssue s n c kind sd)).Holds Q := by
  unfold State.landIssue
  try dsimp only
  repeat' first
    | with_reducible assumption
    | with_reducible apply State.tileFault_holds
    | with_reducible apply State.setWait_holds
    | with_reducible apply State.ite_holds
    | split

theorem State.redispatch_holds {Q : List Instr} (s : State) (n c w : Nat) (hq : s.Holds Q) :
    ((State.redispatch s n c w)).Holds Q := by
  unfold State.redispatch
  try dsimp only
  repeat' first
    | with_reducible assumption
    | with_reducible apply State.w_holds
    | with_reducible apply State.dispatch_holds
    | with_reducible apply State.xcRecvCheck_holds
    | with_reducible apply State.alcOpenIssue_holds
    | with_reducible apply State.msgIssue_holds
    | split

theorem State.tick_holds {Q : List Instr} (s : State) (hq : s.Holds Q) :
    ((State.tick s)).Holds Q := by
  unfold State.tick
  try dsimp only
  iterate 30 try any_goals first
    | with_reducible assumption
    | with_reducible apply State.w_holds
    | with_reducible apply State.ite_holds
    | split
    | with_reducible apply State.holds_mk

theorem State.idle_holds {Q : List Instr} (s : State) (hq : s.Holds Q) :
    ((State.idle s)).Holds Q := by
  unfold State.idle
  try dsimp only
  repeat' first
    | with_reducible assumption
    | intro _
    | with_reducible apply State.tick_holds
    | with_reducible apply State.activateNow_holds
    | with_reducible apply State.ite_holds
    | split

end Sys2Proof.Machine
end

