-- ==== Sys2Proof/Laws/HoldsRows.lean ====
section
/-! SUPPORT. What the shapes that the rows share (tile rows, command rows, received frames, requests of the sideband) do to the queue and to frame memory. -/

namespace Sys2Proof.Machine

/-- An outcome whose next state, if there is one, has the queue `l` and canonical frame memory. -/
def Res.Holds (l : List Instr) (r : Res) : Prop := ∀ t, r = .next t → t.Holds l

theorem next_holds {l : List Instr} {s : State} (h : s.Holds l) : Res.Holds l (.next s) := fun _ e => by cases e; exact h
theorem fault_holds {l : List Instr} (f : Fault) : Res.Holds l (.fault f) := fun _ e => nomatch e
theorem onTile_holds {l : List Instr} {s : State} (n c : Nat) (h : s.Holds l) : Res.Holds l (onTile n c s) :=
  ite_ind (P := Res.Holds l) (next_holds h) (fault_holds _)
theorem res_ite {l : List Instr} {c : Prop} [Decidable c] {a b : Res} (ha : Res.Holds l a) (hb : Res.Holds l b) : Res.Holds l (if c then a else b) := ite_ind ha hb

/-- What a command's body leaves: every state in it has the queue `l` and canonical frame memory. -/
def CmdOut.Holds (l : List Instr) : CmdOut → Prop
  | .done s _ _ => s.Holds l
  | .later s => s.Holds l
  | .wait => True

theorem refuse_holds {l : List Instr} {s : State} (st : Nat) (h : s.Holds l) : CmdOut.Holds l (refuseCmd s st) := h
theorem done_holds {l : List Instr} {s : State} (st : Nat) (r : List (Nat × Nat)) (h : s.Holds l) : CmdOut.Holds l (.done s st r) := h
theorem later_holds {l : List Instr} {s : State} (h : s.Holds l) : CmdOut.Holds l (.later s) := h
theorem wait_holds {l : List Instr} : CmdOut.Holds l .wait := trivial
theorem out_ite {l : List Instr} {c : Prop} [Decidable c] {a b : CmdOut} (ha : CmdOut.Holds l a) (hb : CmdOut.Holds l b) : CmdOut.Holds l (if c then a else b) := ite_ind ha hb

theorem hostReply_holds {l : List Instr} {s : State} (c : RunCmd) (p hb off : Nat) (b : List Nat) (h : s.Holds l) : CmdOut.Holds l (s.hostReply c p hb off b) := by
  unfold State.hostReply
  split
  · exact h
  · exact out_ite h (out_ite h (State.hostOp_holds _ _ _ _ _ h))

/-- A command's row (R340). -/
theorem command_holds {l : List Instr} {s : State} (h : CmdHdr) (op perm need : Nat) (pars : List Par) (body : State → RunCmd → Nat → CmdOut)
    (hq : s.Holds l) (hb : ∀ s c p, s.Holds l → CmdOut.Holds l (body s c p)) : Res.Holds l (s.command h op perm need pars body) := by
  unfold State.command
  refine res_ite (fault_holds _) (res_ite (next_holds hq) ?_)
  extract_lets c bad s1
  have h1 : s1.Holds l := State.upFoyer_holds _ _ hq
  have h2 := hb s1 c (min 8 (s.cmdPart h)) h1
  clear_value s1 bad c
  refine res_ite (next_holds (State.cmdDone_holds _ _ _ h1)) ?_
  split
  · next e => rw [e] at h2; exact next_holds (State.cmdDone_holds _ _ _ h2)
  · next e => rw [e] at h2; exact next_holds h2
  · exact next_holds hq

/-- A row that receives an SWT packet (R333). -/
theorem swtRow_holds {l : List Instr} {s : State} (f : SwtFrame) (typ : Nat) (sub : Option Nat) (user : State → PeerCtx → Nat → Nat → State × Bool)
    (hq : s.Holds l) (hu : ∀ s c q p, s.Holds l → (user s c q p).1.Holds l) : Res.Holds l (s.swtRow f typ sub user) := by
  unfold State.swtRow
  have hc := State.swtCheck_holds s f hq
  refine res_ite (fault_holds _) (res_ite (next_holds hq) ?_)
  split
  · next e => rw [e] at hc; exact next_holds hc
  · next s1 c q pay e =>
    rw [e] at hc
    have hr := hu s1 c q pay hc
    generalize user s1 c q pay = r at hr ⊢
    refine res_ite (next_holds (show State.Holds l _ from hq)) (next_holds ?_)
    have h2 := State.upPeer_holds _ f.dctx (fun c => c.took f.cls q) (State.inc_holds _ F.PT_RX_PKTS (f.sub / 2) 0 1 hr)
    exact ite_ind (P := fun x : State => x.Holds l) (State.ackArrival_holds _ _ _ _ h2) h2

theorem controlRow_holds {l : List Instr} {s : State} (code : Nat) (b : List Nat) (hq : s.Holds l) : Res.Holds l (s.controlRow code b) :=
  res_ite (next_holds hq) (next_holds (State.emit_holds _ _ (State.mctpControl_holds _ _ _ hq)))
theorem pldmRow_holds {l : List Instr} {s : State} (ty cmd : Nat) (b : List Nat) (hq : s.Holds l) : Res.Holds l (s.pldmRow ty cmd b) :=
  res_ite (next_holds hq) (next_holds (State.activateNow_holds _ (State.emit_holds _ _ (State.pldmAnswer_holds _ _ _ _ hq))))
theorem spdmRow_holds {l : List Instr} {s : State} (b : List Nat) (hq : s.Holds l) : Res.Holds l (s.spdmRow b) :=
  res_ite (next_holds hq) (next_holds (State.emit_holds _ _ (State.spdmAnswer_holds _ _ _ hq)))

theorem reqRow_holds {l : List Instr} {s : State} (n : Nat) (e : EthHead) (f : State → Qp → State) (hq : s.Holds l)
    (hf : ∀ s q, s.Holds l → (f s q).Holds l) : Res.Holds l (s.reqRow n e f) := by
  unfold State.reqRow
  refine res_ite (fault_holds _) (next_holds ?_)
  split
  · next q _ =>
    have hm := State.macIn_holds s (64 + 2 * q.port) e hq
    have h2 := ite_ind (P := fun x : State => x.Holds l) (c := e.ce = true) (State.ceSeen_holds _ n q hm) hm
    exact ite_ind (P := fun x : State => x.Holds l) hq (ite_ind (P := fun x : State => x.Holds l) hm (hf _ _ (State.roceTaken_holds _ _ h2)))
  · exact hq

theorem roceAppend_holds {l : List Instr} {s : State} (k : RocePkt) (hq : s.Holds l) : Res.Holds l (s.roceAppend k) := by
  unfold State.roceAppend
  have hc := State.roceCheck_holds s k true hq
  refine res_ite (fault_holds _) ?_
  split
  · next e => rw [e] at hc; exact next_holds hc
  · next e => rw [e] at hc; exact next_holds (State.roceSend_holds _ _ _ _ _ _ _ hc)
  · next s1 q e =>
    rw [e] at hc
    change s1.Holds l at hc
    refine next_holds (ite_ind (P := fun x : State => x.Holds l) (State.roceNak_holds _ _ _ _ _ hc) ?_)
    extract_lets n tail p s2
    have h2 : s2.Holds l := State.upQp_holds _ _ _ (State.setTail_holds _ _ _ (State.ringWrite_holds _ _ _ _ hc))
    clear_value s2 p tail n
    exact ite_ind (P := fun x : State => x.Holds l) (State.roceNak_holds _ _ _ _ _ hc) (State.roceSend_holds _ _ _ _ _ _ _ h2)

theorem roceWrite_holds {l : List Instr} {s : State} (k : RocePkt) (done : State → Qp → State) (hq : s.Holds l)
    (hd : ∀ s q, s.Holds l → (done s q).Holds l) : Res.Holds l (s.roceWrite k done) := by
  unfold State.roceWrite
  have hc := State.roceCheck_holds s k false hq
  refine res_ite (fault_holds _) ?_
  split
  · next e => rw [e] at hc; exact next_holds hc
  · next e => rw [e] at hc; exact next_holds (State.roceSend_holds _ _ _ _ _ _ _ hc)
  · next t q e =>
    rw [e] at hc
    change t.Holds l at hc
    extract_lets r st c mtu sized
    have hs : st.1.Holds l := by
      simp only [st]
      exact ite_ind (P := fun x : State × Nat × QpCur × Nat => x.1.Holds l) (State.regionCheck_holds _ _ _ _ _ _ hc) hc
    clear_value sized mtu
    refine res_ite (next_holds (State.roceNak_holds _ _ _ _ _ hs)) (res_ite (next_holds (State.roceNak_holds _ _ _ _ _ hc)) ?_)
    have hw := State.regionWrite_holds st.1 c k.data hs
    split
    · exact next_holds hq
    · next w part ok e =>
      have h1 : w.Holds l := hw.1 _ e
      clear_value c
      refine res_ite (next_holds (State.roceNak_holds _ _ _ _ _ (State.hostAccess_holds _ _ _ _ _ h1))) ?_
      extract_lets tl w1 w2 cur w3
      have h2 : w1.Holds l := ite_ind (P := fun x : State => x.Holds l) (State.hostAccess_holds _ _ _ _ _ h1) h1
      have h3 : w2.Holds l := ite_ind (P := fun x : State => x.Holds l) (State.hostAccess_holds _ _ _ _ _ h2) h2
      have h4 : w3.Holds l := State.upQp_holds _ _ _ h3
      exact next_holds (ite_ind (P := fun x : State => x.Holds l) (State.roceSend_holds _ _ _ _ _ _ _ (hd _ _ h4)) h4)

end Sys2Proof.Machine
end

