-- ==== Sys2Proof/Laws/Regs.lean ====
section
/-! SUPPORT. Laws of the register file: a field read after a field written, and what a write of one register leaves of the others. -/

namespace Sys2Proof.Machine

/-! Bit fields. -/

theorem setBits_nat (v lo w x : Nat) :
    v - v / 2 ^ lo % 2 ^ w * 2 ^ lo + x % 2 ^ w * 2 ^ lo = v % 2 ^ lo + (x % 2 ^ w + v / 2 ^ lo / 2 ^ w * 2 ^ w) * 2 ^ lo := by
  have h1 := Nat.div_add_mod v (2 ^ lo)
  have h2 := Nat.div_add_mod (v / 2 ^ lo) (2 ^ w)
  generalize v / 2 ^ lo / 2 ^ w = q at *
  generalize hm : v / 2 ^ lo % 2 ^ w = m at *
  generalize v / 2 ^ lo = p at *
  generalize v % 2 ^ lo = r at *
  generalize x % 2 ^ w = y at *
  subst h2; subst h1
  rw [Nat.add_mul y, Nat.mul_comm (2 ^ lo), Nat.add_mul, Nat.mul_comm (2 ^ w) q]
  omega

theorem setBits_lt (v lo w x n : Nat) (hv : v < 2 ^ n) (h : lo + w ≤ n) : v - v / 2 ^ lo % 2 ^ w * 2 ^ lo + x % 2 ^ w * 2 ^ lo < 2 ^ n := by
  rw [setBits_nat]
  have hq : v / 2 ^ lo / 2 ^ w < 2 ^ (n - lo - w) := by
    rw [Nat.div_div_eq_div_mul, ← Nat.pow_add]
    apply Nat.div_lt_of_lt_mul
    rw [← Nat.pow_add]
    rwa [show lo + w + (n - lo - w) = n by omega]
  have hx : x % 2 ^ w < 2 ^ w := Nat.mod_lt _ (Nat.two_pow_pos w)
  have hr : v % 2 ^ lo < 2 ^ lo := Nat.mod_lt _ (Nat.two_pow_pos lo)
  have e : 2 ^ n = 2 ^ (n - lo - w) * 2 ^ w * 2 ^ lo := by rw [← Nat.pow_add, ← Nat.pow_add]; congr 1; omega
  have hb : x % 2 ^ w + v / 2 ^ lo / 2 ^ w * 2 ^ w < 2 ^ (n - lo - w) * 2 ^ w := by
    calc _ < 2 ^ w + v / 2 ^ lo / 2 ^ w * 2 ^ w := by omega
      _ = (v / 2 ^ lo / 2 ^ w + 1) * 2 ^ w := by rw [Nat.add_mul, Nat.one_mul, Nat.add_comm]
      _ ≤ _ := Nat.mul_le_mul_right _ hq
  generalize x % 2 ^ w + v / 2 ^ lo / 2 ^ w * 2 ^ w = b at *
  generalize 2 ^ (n - lo - w) * 2 ^ w = a at *
  rw [e]
  calc _ < 2 ^ lo + b * 2 ^ lo := by omega
    _ = (b + 1) * 2 ^ lo := by rw [Nat.add_mul, Nat.one_mul, Nat.add_comm]
    _ ≤ _ := Nat.mul_le_mul_right _ hb

theorem setBitsAt_toNat (v : BitVec 64) (lo w x : Nat) (h : lo + w ≤ 64) :
    (setBitsAt v lo w x).toNat = v.toNat % 2 ^ lo + (x % 2 ^ w + v.toNat / 2 ^ lo / 2 ^ w * 2 ^ w) * 2 ^ lo := by
  rw [setBitsAt, BitVec.toNat_ofNat, bitsAt, Nat.mod_eq_of_lt (setBits_lt v.toNat lo w x 64 v.isLt h), setBits_nat]

/-- A field read after it was written. -/
theorem bitsAt_setBitsAt (v : BitVec 64) (lo w x : Nat) (h : lo + w ≤ 64) : bitsAt (setBitsAt v lo w x) lo w = x % 2 ^ w := by
  rw [bitsAt, setBitsAt_toNat v lo w x h, Nat.add_mul_div_right _ _ (Nat.two_pow_pos lo), Nat.div_eq_of_lt (Nat.mod_lt _ (Nat.two_pow_pos lo)),
    Nat.zero_add, Nat.add_mul_mod_self_right, Nat.mod_mod]

/-- Bit k of a register whose field [lo + w − 1 : lo] was written. -/
theorem setBitsAt_testBit (v : BitVec 64) (lo w x k : Nat) (h : lo + w ≤ 64) :
    (setBitsAt v lo w x).toNat.testBit k = if lo ≤ k ∧ k < lo + w then x.testBit (k - lo) else v.toNat.testBit k := by
  rw [setBitsAt_toNat v lo w x h]
  by_cases h1 : lo ≤ k
  · obtain ⟨j, rfl⟩ := Nat.exists_eq_add_of_le h1
    rw [Nat.testBit_eq_decide_div_mod_eq, Nat.pow_add, ← Nat.div_div_eq_div_mul, Nat.add_mul_div_right _ _ (Nat.two_pow_pos lo),
      Nat.div_eq_of_lt (Nat.mod_lt _ (Nat.two_pow_pos lo)), Nat.zero_add, ← Nat.testBit_eq_decide_div_mod_eq]
    by_cases h2 : j < w
    · have : lo ≤ lo + j ∧ lo + j < lo + w := by omega
      rw [if_pos this, Nat.add_sub_cancel_left, Nat.add_comm (x % 2 ^ w), Nat.mul_comm (v.toNat / 2 ^ lo / 2 ^ w),
        Nat.testBit_two_pow_mul_add _ (Nat.mod_lt _ (Nat.two_pow_pos w)), if_pos h2, Nat.testBit_mod_two_pow]
      simp [h2]
    · have : ¬ (lo ≤ lo + j ∧ lo + j < lo + w) := by omega
      rw [if_neg this, Nat.add_comm (x % 2 ^ w), Nat.mul_comm (v.toNat / 2 ^ lo / 2 ^ w),
        Nat.testBit_two_pow_mul_add _ (Nat.mod_lt _ (Nat.two_pow_pos w)), if_neg h2, Nat.testBit_div_two_pow, Nat.testBit_div_two_pow]
      congr 1; omega
  · have : ¬ (lo ≤ k ∧ k < lo + w) := by omega
    rw [if_neg this, Nat.add_comm, Nat.mul_comm, Nat.testBit_two_pow_mul_add _ (Nat.mod_lt _ (Nat.two_pow_pos lo)), if_pos (by omega), Nat.testBit_mod_two_pow]
    simp [Nat.lt_of_not_le h1]

theorem bitsAt_testBit (v : BitVec 64) (lo w k : Nat) : (bitsAt v lo w).testBit k = (decide (k < w) && v.toNat.testBit (k + lo)) := by
  rw [bitsAt, Nat.testBit_mod_two_pow, Nat.testBit_div_two_pow, Nat.add_comm]

/-- A field read after another field of the same register was written. -/
theorem bitsAt_setBitsAt_ne (v : BitVec 64) (lo w x lo' w' : Nat) (h : lo + w ≤ 64) (hd : lo' + w' ≤ lo ∨ lo + w ≤ lo') :
    bitsAt (setBitsAt v lo w x) lo' w' = bitsAt v lo' w' := by
  apply Nat.eq_of_testBit_eq
  intro k
  rw [bitsAt_testBit, bitsAt_testBit, setBitsAt_testBit v lo w x _ h]
  by_cases hk : k < w'
  · rw [if_neg (by omega)]
  · simp [hk]

/-! Keys. -/

/-- Registers of two kinds of block never share a key. -/
theorem key_ne_of_unit {r r' : Reg} (h : r.unit ≠ r'.unit) (u i u' i' : Nat) : r.key u i ≠ r'.key u' i' := by
  intro e
  have h1 : r.unit.tag < 16 ∧ r'.unit.tag < 16 := by constructor <;> (cases r.unit <;> cases r'.unit <;> decide)
  have h2 : r.unit.tag = r'.unit.tag := by simp only [Reg.key] at e; omega
  apply h
  revert h2
  cases r.unit <;> cases r'.unit <;> simp [RUnit.tag]

/-! The register file. -/

namespace RegFile

theorem rd_wr (m : RegFile) (r : Reg) (u i : Nat) (v : BitVec 64) (u' i' : Nat) :
    (m.wr r u i v).rd r u' i' = if r.key u' i' = r.key u i then v else m.rd r u' i' := by
  simp only [rd, wr, Sparse.get_put]
@[simp] theorem rd_wr_same (m : RegFile) (r : Reg) (u i : Nat) (v : BitVec 64) : (m.wr r u i v).rd r u i = v := by simp [rd, wr]
end RegFile

theorem sparse_get_put_ne' (d d' : BitVec 64) (m : RegFile) (k j : Nat) (v : BitVec 64) (h : j ≠ k) : Sparse.get d' (Sparse.put d m k v) j = Sparse.get d' m j := by
  unfold Sparse.put; split
  · rw [Sparse.get_erase, if_neg h]
  · rw [Sparse.get_insert, if_neg h]

namespace RegFile

/-- A register read after another was written. -/
theorem rd_wr_ne (m : RegFile) {r r' : Reg} {u i u' i' : Nat} (v : BitVec 64) (h : r'.key u' i' ≠ r.key u i) : (m.wr r u i v).rd r' u' i' = m.rd r' u' i' :=
  sparse_get_put_ne' _ _ _ _ _ _ h
theorem rd_set_ne (m : RegFile) {f : Fld} {r' : Reg} {u i u' i' : Nat} (x : Nat) (h : r'.key u' i' ≠ f.reg.key u i) : (m.set f u i x).rd r' u' i' = m.rd r' u' i' :=
  rd_wr_ne m _ h
theorem rd_bump_ne (m : RegFile) {f : Fld} {r' : Reg} {u i u' i' : Nat} (n : Nat) (h : r'.key u' i' ≠ f.reg.key u i) : (m.bump f u i n).rd r' u' i' = m.rd r' u' i' :=
  rd_set_ne m _ h

/-- A field read after it was written. -/
theorem get_set_same (m : RegFile) (f : Fld) (u i x : Nat) (h : f.lo + f.width ≤ 64) : (m.set f u i x).get f u i = x % 2 ^ f.width := by
  rw [get, set, rd_wr_same, bitsAt_setBitsAt _ _ _ _ h]
/-- A field of a register read after a field of another was written. -/
theorem get_set_key (m : RegFile) (f f' : Fld) (u i x u' i' : Nat) (h : f'.reg.key u' i' ≠ f.reg.key u i) : (m.set f u i x).get f' u' i' = m.get f' u' i' := by
  rw [get, get, rd_set_ne m x h]
/-- A field read after another field of the same register was written. -/
theorem get_set_field (m : RegFile) (f f' : Fld) (u i x : Nat) (hr : f'.reg = f.reg) (h : f.lo + f.width ≤ 64) (hd : f'.lo + f'.width ≤ f.lo ∨ f.lo + f.width ≤ f'.lo) :
    (m.set f u i x).get f' u i = m.get f' u i := by
  rw [get, get, hr, set, rd_wr_same, bitsAt_setBitsAt_ne _ _ _ _ _ _ h hd]
/-- A counter after it was raised. -/
theorem get_bump_same (m : RegFile) (f : Fld) (u i n : Nat) (h : f.lo + f.width ≤ 64) : (m.bump f u i n).get f u i = min (m.get f u i + n) (2 ^ f.width - 1) := by
  rw [bump, get_set_same _ _ _ _ _ h, Nat.mod_eq_of_lt]
  have := Nat.two_pow_pos f.width; omega
theorem get_bump_key (m : RegFile) (f f' : Fld) (u i n u' i' : Nat) (h : f'.reg.key u' i' ≠ f.reg.key u i) : (m.bump f u i n).get f' u' i' = m.get f' u' i' :=
  get_set_key m f f' u i _ u' i' h

end RegFile

/-! The same over states. -/

namespace State

theorem g_w_same (s : State) (f : Fld) (u i x : Nat) (h : f.lo + f.width ≤ 64) : (s.w f u i x).g f u i = x % 2 ^ f.width := RegFile.get_set_same _ f u i x h
theorem g_w_key (s : State) (f f' : Fld) (u i x u' i' : Nat) (h : f'.reg.key u' i' ≠ f.reg.key u i) : (s.w f u i x).g f' u' i' = s.g f' u' i' :=
  RegFile.get_set_key _ f f' u i x u' i' h
theorem g_w_unit (s : State) (f f' : Fld) (u i x u' i' : Nat) (h : f'.reg.unit ≠ f.reg.unit) : (s.w f u i x).g f' u' i' = s.g f' u' i' :=
  g_w_key s f f' u i x u' i' (key_ne_of_unit h u' i' u i)
theorem g_w_field (s : State) (f f' : Fld) (u i x : Nat) (hr : f'.reg = f.reg) (h : f.lo + f.width ≤ 64) (hd : f'.lo + f'.width ≤ f.lo ∨ f.lo + f.width ≤ f'.lo) :
    (s.w f u i x).g f' u i = s.g f' u i := RegFile.get_set_field _ f f' u i x hr h hd
theorem g_inc_same (s : State) (f : Fld) (u i n : Nat) (h : f.lo + f.width ≤ 64) : (s.inc f u i n).g f u i = min (s.g f u i + n) (2 ^ f.width - 1) :=
  RegFile.get_bump_same _ f u i n h
theorem g_inc_key (s : State) (f f' : Fld) (u i n u' i' : Nat) (h : f'.reg.key u' i' ≠ f.reg.key u i) : (s.inc f u i n).g f' u' i' = s.g f' u' i' :=
  RegFile.get_bump_key _ f f' u i n u' i' h
theorem g_inc_unit (s : State) (f f' : Fld) (u i n u' i' : Nat) (h : f'.reg.unit ≠ f.reg.unit) : (s.inc f u i n).g f' u' i' = s.g f' u' i' :=
  g_inc_key s f f' u i n u' i' (key_ne_of_unit h u' i' u i)
theorem g_wreg_key (s : State) (r : Reg) (f' : Fld) (u i : Nat) (v : BitVec 64) (u' i' : Nat) (h : f'.reg.key u' i' ≠ r.key u i) :
    (s.wreg r u i v).g f' u' i' = s.g f' u' i' := by simp only [g, wreg, RegFile.get, RegFile.rd_wr_ne _ v h]
theorem g_wreg_same (s : State) (r : Reg) (f' : Fld) (u i : Nat) (v : BitVec 64) (h : f'.reg = r) : (s.wreg r u i v).g f' u i = bitsAt v f'.lo f'.width := by
  simp only [g, wreg, RegFile.get, h, RegFile.rd_wr_same]

theorem rd_w_key (s : State) (f : Fld) (r' : Reg) (u i x u' i' : Nat) (h : r'.key u' i' ≠ f.reg.key u i) : (s.w f u i x).regs.rd r' u' i' = s.regs.rd r' u' i' :=
  RegFile.rd_set_ne _ x h
theorem rd_inc_key (s : State) (f : Fld) (r' : Reg) (u i n u' i' : Nat) (h : r'.key u' i' ≠ f.reg.key u i) : (s.inc f u i n).regs.rd r' u' i' = s.regs.rd r' u' i' :=
  RegFile.rd_bump_ne _ n h
theorem rd_wreg_key (s : State) (r r' : Reg) (u i : Nat) (v : BitVec 64) (u' i' : Nat) (h : r'.key u' i' ≠ r.key u i) :
    (s.wreg r u i v).regs.rd r' u' i' = s.regs.rd r' u' i' := RegFile.rd_wr_ne _ v h
@[simp] theorem rd_wreg_same (s : State) (r : Reg) (u i : Nat) (v : BitVec 64) : (s.wreg r u i v).regs.rd r u i = v := RegFile.rd_wr_same _ r u i v

end State

end Sys2Proof.Machine
end

