-- ==== Sys2Proof/Laws/State.lean ====
section
/-! SUPPORT. What each named update of State does to each field: the field it sets, and every other field as it was. All hold by computation; tagged simp, so that no proof
unfolds a record update. -/

namespace Sys2Proof.Machine.State

@[simp] theorem upColl_coll (s : State) (p : Nat) (f : Coll → Coll) : (s.upColl p f).coll = Sparse.upd Coll.empty s.coll p f := (rfl)
@[simp] theorem upColl_pending (s : State) (p : Nat) (f : Coll → Coll) : (s.upColl p f).pending = s.pending := (rfl)
@[simp] theorem upColl_regs (s : State) (p : Nat) (f : Coll → Coll) : (s.upColl p f).regs = s.regs := (rfl)
@[simp] theorem upColl_fresh (s : State) (p : Nat) (f : Coll → Coll) : (s.upColl p f).fresh = s.fresh := (rfl)
@[simp] theorem upColl_now (s : State) (p : Nat) (f : Coll → Coll) : (s.upColl p f).now = s.now := (rfl)
@[simp] theorem upColl_tiles (s : State) (p : Nat) (f : Coll → Coll) : (s.upColl p f).tiles = s.tiles := (rfl)
@[simp] theorem upColl_halls (s : State) (p : Nat) (f : Coll → Coll) : (s.upColl p f).halls = s.halls := (rfl)
@[simp] theorem upColl_parts (s : State) (p : Nat) (f : Coll → Coll) : (s.upColl p f).parts = s.parts := (rfl)
@[simp] theorem upColl_net (s : State) (p : Nat) (f : Coll → Coll) : (s.upColl p f).net = s.net := (rfl)
@[simp] theorem upColl_nextPkt (s : State) (p : Nat) (f : Coll → Coll) : (s.upColl p f).nextPkt = s.nextPkt := (rfl)
@[simp] theorem upColl_ban (s : State) (p : Nat) (f : Coll → Coll) : (s.upColl p f).ban = s.ban := (rfl)
@[simp] theorem upColl_shares (s : State) (p : Nat) (f : Coll → Coll) : (s.upColl p f).shares = s.shares := (rfl)
@[simp] theorem upColl_groups (s : State) (p : Nat) (f : Coll → Coll) : (s.upColl p f).groups = s.groups := (rfl)
@[simp] theorem upColl_peers (s : State) (p : Nat) (f : Coll → Coll) : (s.upColl p f).peers = s.peers := (rfl)
@[simp] theorem upColl_pageMap (s : State) (p : Nat) (f : Coll → Coll) : (s.upColl p f).pageMap = s.pageMap := (rfl)
@[simp] theorem upColl_frames (s : State) (p : Nat) (f : Coll → Coll) : (s.upColl p f).frames = s.frames := (rfl)
@[simp] theorem upColl_cuts (s : State) (p : Nat) (f : Coll → Coll) : (s.upColl p f).cuts = s.cuts := (rfl)
@[simp] theorem upColl_retired (s : State) (p : Nat) (f : Coll → Coll) : (s.upColl p f).retired = s.retired := (rfl)
@[simp] theorem upColl_poolSize (s : State) (p : Nat) (f : Coll → Coll) : (s.upColl p f).poolSize = s.poolSize := (rfl)
@[simp] theorem upColl_pool (s : State) (p : Nat) (f : Coll → Coll) : (s.upColl p f).pool = s.pool := (rfl)
@[simp] theorem upColl_copies (s : State) (p : Nat) (f : Coll → Coll) : (s.upColl p f).copies = s.copies := (rfl)
@[simp] theorem upColl_repairs (s : State) (p : Nat) (f : Coll → Coll) : (s.upColl p f).repairs = s.repairs := (rfl)
@[simp] theorem upColl_flying (s : State) (p : Nat) (f : Coll → Coll) : (s.upColl p f).flying = s.flying := (rfl)
@[simp] theorem upColl_waits (s : State) (p : Nat) (f : Coll → Coll) : (s.upColl p f).waits = s.waits := (rfl)
@[simp] theorem upColl_peerReads (s : State) (p : Nat) (f : Coll → Coll) : (s.upColl p f).peerReads = s.peerReads := (rfl)
@[simp] theorem upColl_prefetch (s : State) (p : Nat) (f : Coll → Coll) : (s.upColl p f).prefetch = s.prefetch := (rfl)
@[simp] theorem upColl_chk (s : State) (p : Nat) (f : Coll → Coll) : (s.upColl p f).chk = s.chk := (rfl)
@[simp] theorem upColl_patrol (s : State) (p : Nat) (f : Coll → Coll) : (s.upColl p f).patrol = s.patrol := (rfl)
@[simp] theorem upColl_mr4 (s : State) (p : Nat) (f : Coll → Coll) : (s.upColl p f).mr4 = s.mr4 := (rfl)
@[simp] theorem upColl_useCtr (s : State) (p : Nat) (f : Coll → Coll) : (s.upColl p f).useCtr = s.useCtr := (rfl)
@[simp] theorem upColl_memUe (s : State) (p : Nat) (f : Coll → Coll) : (s.upColl p f).memUe = s.memUe := (rfl)
@[simp] theorem upColl_hostOut (s : State) (p : Nat) (f : Coll → Coll) : (s.upColl p f).hostOut = s.hostOut := (rfl)
@[simp] theorem upColl_prot (s : State) (p : Nat) (f : Coll → Coll) : (s.upColl p f).prot = s.prot := (rfl)
@[simp] theorem upColl_foyer (s : State) (p : Nat) (f : Coll → Coll) : (s.upColl p f).foyer = s.foyer := (rfl)
@[simp] theorem upColl_mss (s : State) (p : Nat) (f : Coll → Coll) : (s.upColl p f).mss = s.mss := (rfl)
@[simp] theorem upColl_power (s : State) (p : Nat) (f : Coll → Coll) : (s.upColl p f).power = s.power := (rfl)
@[simp] theorem upColl_ports (s : State) (p : Nat) (f : Coll → Coll) : (s.upColl p f).ports = s.ports := (rfl)
@[simp] theorem upColl_out (s : State) (p : Nat) (f : Coll → Coll) : (s.upColl p f).out = s.out := (rfl)
@[simp] theorem upColl_evLost (s : State) (p : Nat) (f : Coll → Coll) : (s.upColl p f).evLost = s.evLost := (rfl)

@[simp] theorem setFrameLine_frames (s : State) (f l : Nat) (v : FrameLine) : (s.setFrameLine f l v).frames = Sparse.put 0 s.frames (f * frameLines + l) v := (rfl)
@[simp] theorem setFrameLine_pending (s : State) (f l : Nat) (v : FrameLine) : (s.setFrameLine f l v).pending = s.pending := (rfl)
@[simp] theorem setFrameLine_regs (s : State) (f l : Nat) (v : FrameLine) : (s.setFrameLine f l v).regs = s.regs := (rfl)
@[simp] theorem setFrameLine_fresh (s : State) (f l : Nat) (v : FrameLine) : (s.setFrameLine f l v).fresh = s.fresh := (rfl)
@[simp] theorem setFrameLine_now (s : State) (f l : Nat) (v : FrameLine) : (s.setFrameLine f l v).now = s.now := (rfl)
@[simp] theorem setFrameLine_tiles (s : State) (f l : Nat) (v : FrameLine) : (s.setFrameLine f l v).tiles = s.tiles := (rfl)
@[simp] theorem setFrameLine_halls (s : State) (f l : Nat) (v : FrameLine) : (s.setFrameLine f l v).halls = s.halls := (rfl)
@[simp] theorem setFrameLine_parts (s : State) (f l : Nat) (v : FrameLine) : (s.setFrameLine f l v).parts = s.parts := (rfl)
@[simp] theorem setFrameLine_net (s : State) (f l : Nat) (v : FrameLine) : (s.setFrameLine f l v).net = s.net := (rfl)
@[simp] theorem setFrameLine_nextPkt (s : State) (f l : Nat) (v : FrameLine) : (s.setFrameLine f l v).nextPkt = s.nextPkt := (rfl)
@[simp] theorem setFrameLine_ban (s : State) (f l : Nat) (v : FrameLine) : (s.setFrameLine f l v).ban = s.ban := (rfl)
@[simp] theorem setFrameLine_shares (s : State) (f l : Nat) (v : FrameLine) : (s.setFrameLine f l v).shares = s.shares := (rfl)
@[simp] theorem setFrameLine_groups (s : State) (f l : Nat) (v : FrameLine) : (s.setFrameLine f l v).groups = s.groups := (rfl)
@[simp] theorem setFrameLine_peers (s : State) (f l : Nat) (v : FrameLine) : (s.setFrameLine f l v).peers = s.peers := (rfl)
@[simp] theorem setFrameLine_pageMap (s : State) (f l : Nat) (v : FrameLine) : (s.setFrameLine f l v).pageMap = s.pageMap := (rfl)
@[simp] theorem setFrameLine_cuts (s : State) (f l : Nat) (v : FrameLine) : (s.setFrameLine f l v).cuts = s.cuts := (rfl)
@[simp] theorem setFrameLine_retired (s : State) (f l : Nat) (v : FrameLine) : (s.setFrameLine f l v).retired = s.retired := (rfl)
@[simp] theorem setFrameLine_poolSize (s : State) (f l : Nat) (v : FrameLine) : (s.setFrameLine f l v).poolSize = s.poolSize := (rfl)
@[simp] theorem setFrameLine_pool (s : State) (f l : Nat) (v : FrameLine) : (s.setFrameLine f l v).pool = s.pool := (rfl)
@[simp] theorem setFrameLine_copies (s : State) (f l : Nat) (v : FrameLine) : (s.setFrameLine f l v).copies = s.copies := (rfl)
@[simp] theorem setFrameLine_repairs (s : State) (f l : Nat) (v : FrameLine) : (s.setFrameLine f l v).repairs = s.repairs := (rfl)
@[simp] theorem setFrameLine_flying (s : State) (f l : Nat) (v : FrameLine) : (s.setFrameLine f l v).flying = s.flying := (rfl)
@[simp] theorem setFrameLine_waits (s : State) (f l : Nat) (v : FrameLine) : (s.setFrameLine f l v).waits = s.waits := (rfl)
@[simp] theorem setFrameLine_peerReads (s : State) (f l : Nat) (v : FrameLine) : (s.setFrameLine f l v).peerReads = s.peerReads := (rfl)
@[simp] theorem setFrameLine_prefetch (s : State) (f l : Nat) (v : FrameLine) : (s.setFrameLine f l v).prefetch = s.prefetch := (rfl)
@[simp] theorem setFrameLine_chk (s : State) (f l : Nat) (v : FrameLine) : (s.setFrameLine f l v).chk = s.chk := (rfl)
@[simp] theorem setFrameLine_patrol (s : State) (f l : Nat) (v : FrameLine) : (s.setFrameLine f l v).patrol = s.patrol := (rfl)
@[simp] theorem setFrameLine_mr4 (s : State) (f l : Nat) (v : FrameLine) : (s.setFrameLine f l v).mr4 = s.mr4 := (rfl)
@[simp] theorem setFrameLine_useCtr (s : State) (f l : Nat) (v : FrameLine) : (s.setFrameLine f l v).useCtr = s.useCtr := (rfl)
@[simp] theorem setFrameLine_memUe (s : State) (f l : Nat) (v : FrameLine) : (s.setFrameLine f l v).memUe = s.memUe := (rfl)
@[simp] theorem setFrameLine_hostOut (s : State) (f l : Nat) (v : FrameLine) : (s.setFrameLine f l v).hostOut = s.hostOut := (rfl)
@[simp] theorem setFrameLine_coll (s : State) (f l : Nat) (v : FrameLine) : (s.setFrameLine f l v).coll = s.coll := (rfl)
@[simp] theorem setFrameLine_prot (s : State) (f l : Nat) (v : FrameLine) : (s.setFrameLine f l v).prot = s.prot := (rfl)
@[simp] theorem setFrameLine_foyer (s : State) (f l : Nat) (v : FrameLine) : (s.setFrameLine f l v).foyer = s.foyer := (rfl)
@[simp] theorem setFrameLine_mss (s : State) (f l : Nat) (v : FrameLine) : (s.setFrameLine f l v).mss = s.mss := (rfl)
@[simp] theorem setFrameLine_power (s : State) (f l : Nat) (v : FrameLine) : (s.setFrameLine f l v).power = s.power := (rfl)
@[simp] theorem setFrameLine_ports (s : State) (f l : Nat) (v : FrameLine) : (s.setFrameLine f l v).ports = s.ports := (rfl)
@[simp] theorem setFrameLine_out (s : State) (f l : Nat) (v : FrameLine) : (s.setFrameLine f l v).out = s.out := (rfl)
@[simp] theorem setFrameLine_evLost (s : State) (f l : Nat) (v : FrameLine) : (s.setFrameLine f l v).evLost = s.evLost := (rfl)

@[simp] theorem dropPkt_net (s : State) (id : Nat) : (s.dropPkt id).net = s.net.filter (fun p => p.id != id) := (rfl)
@[simp] theorem dropPkt_pending (s : State) (id : Nat) : (s.dropPkt id).pending = s.pending := (rfl)
@[simp] theorem dropPkt_regs (s : State) (id : Nat) : (s.dropPkt id).regs = s.regs := (rfl)
@[simp] theorem dropPkt_fresh (s : State) (id : Nat) : (s.dropPkt id).fresh = s.fresh := (rfl)
@[simp] theorem dropPkt_now (s : State) (id : Nat) : (s.dropPkt id).now = s.now := (rfl)
@[simp] theorem dropPkt_tiles (s : State) (id : Nat) : (s.dropPkt id).tiles = s.tiles := (rfl)
@[simp] theorem dropPkt_halls (s : State) (id : Nat) : (s.dropPkt id).halls = s.halls := (rfl)
@[simp] theorem dropPkt_parts (s : State) (id : Nat) : (s.dropPkt id).parts = s.parts := (rfl)
@[simp] theorem dropPkt_nextPkt (s : State) (id : Nat) : (s.dropPkt id).nextPkt = s.nextPkt := (rfl)
@[simp] theorem dropPkt_ban (s : State) (id : Nat) : (s.dropPkt id).ban = s.ban := (rfl)
@[simp] theorem dropPkt_shares (s : State) (id : Nat) : (s.dropPkt id).shares = s.shares := (rfl)
@[simp] theorem dropPkt_groups (s : State) (id : Nat) : (s.dropPkt id).groups = s.groups := (rfl)
@[simp] theorem dropPkt_peers (s : State) (id : Nat) : (s.dropPkt id).peers = s.peers := (rfl)
@[simp] theorem dropPkt_pageMap (s : State) (id : Nat) : (s.dropPkt id).pageMap = s.pageMap := (rfl)
@[simp] theorem dropPkt_frames (s : State) (id : Nat) : (s.dropPkt id).frames = s.frames := (rfl)
@[simp] theorem dropPkt_cuts (s : State) (id : Nat) : (s.dropPkt id).cuts = s.cuts := (rfl)
@[simp] theorem dropPkt_retired (s : State) (id : Nat) : (s.dropPkt id).retired = s.retired := (rfl)
@[simp] theorem dropPkt_poolSize (s : State) (id : Nat) : (s.dropPkt id).poolSize = s.poolSize := (rfl)
@[simp] theorem dropPkt_pool (s : State) (id : Nat) : (s.dropPkt id).pool = s.pool := (rfl)
@[simp] theorem dropPkt_copies (s : State) (id : Nat) : (s.dropPkt id).copies = s.copies := (rfl)
@[simp] theorem dropPkt_repairs (s : State) (id : Nat) : (s.dropPkt id).repairs = s.repairs := (rfl)
@[simp] theorem dropPkt_flying (s : State) (id : Nat) : (s.dropPkt id).flying = s.flying := (rfl)
@[simp] theorem dropPkt_waits (s : State) (id : Nat) : (s.dropPkt id).waits = s.waits := (rfl)
@[simp] theorem dropPkt_peerReads (s : State) (id : Nat) : (s.dropPkt id).peerReads = s.peerReads := (rfl)
@[simp] theorem dropPkt_prefetch (s : State) (id : Nat) : (s.dropPkt id).prefetch = s.prefetch := (rfl)
@[simp] theorem dropPkt_chk (s : State) (id : Nat) : (s.dropPkt id).chk = s.chk := (rfl)
@[simp] theorem dropPkt_patrol (s : State) (id : Nat) : (s.dropPkt id).patrol = s.patrol := (rfl)
@[simp] theorem dropPkt_mr4 (s : State) (id : Nat) : (s.dropPkt id).mr4 = s.mr4 := (rfl)
@[simp] theorem dropPkt_useCtr (s : State) (id : Nat) : (s.dropPkt id).useCtr = s.useCtr := (rfl)
@[simp] theorem dropPkt_memUe (s : State) (id : Nat) : (s.dropPkt id).memUe = s.memUe := (rfl)
@[simp] theorem dropPkt_hostOut (s : State) (id : Nat) : (s.dropPkt id).hostOut = s.hostOut := (rfl)
@[simp] theorem dropPkt_coll (s : State) (id : Nat) : (s.dropPkt id).coll = s.coll := (rfl)
@[simp] theorem dropPkt_prot (s : State) (id : Nat) : (s.dropPkt id).prot = s.prot := (rfl)
@[simp] theorem dropPkt_foyer (s : State) (id : Nat) : (s.dropPkt id).foyer = s.foyer := (rfl)
@[simp] theorem dropPkt_mss (s : State) (id : Nat) : (s.dropPkt id).mss = s.mss := (rfl)
@[simp] theorem dropPkt_power (s : State) (id : Nat) : (s.dropPkt id).power = s.power := (rfl)
@[simp] theorem dropPkt_ports (s : State) (id : Nat) : (s.dropPkt id).ports = s.ports := (rfl)
@[simp] theorem dropPkt_out (s : State) (id : Nat) : (s.dropPkt id).out = s.out := (rfl)
@[simp] theorem dropPkt_evLost (s : State) (id : Nat) : (s.dropPkt id).evLost = s.evLost := (rfl)

@[simp] theorem upPkt_net (s : State) (id : Nat) (f : Packet → Packet) : (s.upPkt id f).net = s.net.map (fun p => if p.id = id then f p else p) := (rfl)
@[simp] theorem upPkt_pending (s : State) (id : Nat) (f : Packet → Packet) : (s.upPkt id f).pending = s.pending := (rfl)
@[simp] theorem upPkt_regs (s : State) (id : Nat) (f : Packet → Packet) : (s.upPkt id f).regs = s.regs := (rfl)
@[simp] theorem upPkt_fresh (s : State) (id : Nat) (f : Packet → Packet) : (s.upPkt id f).fresh = s.fresh := (rfl)
@[simp] theorem upPkt_now (s : State) (id : Nat) (f : Packet → Packet) : (s.upPkt id f).now = s.now := (rfl)
@[simp] theorem upPkt_tiles (s : State) (id : Nat) (f : Packet → Packet) : (s.upPkt id f).tiles = s.tiles := (rfl)
@[simp] theorem upPkt_halls (s : State) (id : Nat) (f : Packet → Packet) : (s.upPkt id f).halls = s.halls := (rfl)
@[simp] theorem upPkt_parts (s : State) (id : Nat) (f : Packet → Packet) : (s.upPkt id f).parts = s.parts := (rfl)
@[simp] theorem upPkt_nextPkt (s : State) (id : Nat) (f : Packet → Packet) : (s.upPkt id f).nextPkt = s.nextPkt := (rfl)
@[simp] theorem upPkt_ban (s : State) (id : Nat) (f : Packet → Packet) : (s.upPkt id f).ban = s.ban := (rfl)
@[simp] theorem upPkt_shares (s : State) (id : Nat) (f : Packet → Packet) : (s.upPkt id f).shares = s.shares := (rfl)
@[simp] theorem upPkt_groups (s : State) (id : Nat) (f : Packet → Packet) : (s.upPkt id f).groups = s.groups := (rfl)
@[simp] theorem upPkt_peers (s : State) (id : Nat) (f : Packet → Packet) : (s.upPkt id f).peers = s.peers := (rfl)
@[simp] theorem upPkt_pageMap (s : State) (id : Nat) (f : Packet → Packet) : (s.upPkt id f).pageMap = s.pageMap := (rfl)
@[simp] theorem upPkt_frames (s : State) (id : Nat) (f : Packet → Packet) : (s.upPkt id f).frames = s.frames := (rfl)
@[simp] theorem upPkt_cuts (s : State) (id : Nat) (f : Packet → Packet) : (s.upPkt id f).cuts = s.cuts := (rfl)
@[simp] theorem upPkt_retired (s : State) (id : Nat) (f : Packet → Packet) : (s.upPkt id f).retired = s.retired := (rfl)
@[simp] theorem upPkt_poolSize (s : State) (id : Nat) (f : Packet → Packet) : (s.upPkt id f).poolSize = s.poolSize := (rfl)
@[simp] theorem upPkt_pool (s : State) (id : Nat) (f : Packet → Packet) : (s.upPkt id f).pool = s.pool := (rfl)
@[simp] theorem upPkt_copies (s : State) (id : Nat) (f : Packet → Packet) : (s.upPkt id f).copies = s.copies := (rfl)
@[simp] theorem upPkt_repairs (s : State) (id : Nat) (f : Packet → Packet) : (s.upPkt id f).repairs = s.repairs := (rfl)
@[simp] theorem upPkt_flying (s : State) (id : Nat) (f : Packet → Packet) : (s.upPkt id f).flying = s.flying := (rfl)
@[simp] theorem upPkt_waits (s : State) (id : Nat) (f : Packet → Packet) : (s.upPkt id f).waits = s.waits := (rfl)
@[simp] theorem upPkt_peerReads (s : State) (id : Nat) (f : Packet → Packet) : (s.upPkt id f).peerReads = s.peerReads := (rfl)
@[simp] theorem upPkt_prefetch (s : State) (id : Nat) (f : Packet → Packet) : (s.upPkt id f).prefetch = s.prefetch := (rfl)
@[simp] theorem upPkt_chk (s : State) (id : Nat) (f : Packet → Packet) : (s.upPkt id f).chk = s.chk := (rfl)
@[simp] theorem upPkt_patrol (s : State) (id : Nat) (f : Packet → Packet) : (s.upPkt id f).patrol = s.patrol := (rfl)
@[simp] theorem upPkt_mr4 (s : State) (id : Nat) (f : Packet → Packet) : (s.upPkt id f).mr4 = s.mr4 := (rfl)
@[simp] theorem upPkt_useCtr (s : State) (id : Nat) (f : Packet → Packet) : (s.upPkt id f).useCtr = s.useCtr := (rfl)
@[simp] theorem upPkt_memUe (s : State) (id : Nat) (f : Packet → Packet) : (s.upPkt id f).memUe = s.memUe := (rfl)
@[simp] theorem upPkt_hostOut (s : State) (id : Nat) (f : Packet → Packet) : (s.upPkt id f).hostOut = s.hostOut := (rfl)
@[simp] theorem upPkt_coll (s : State) (id : Nat) (f : Packet → Packet) : (s.upPkt id f).coll = s.coll := (rfl)
@[simp] theorem upPkt_prot (s : State) (id : Nat) (f : Packet → Packet) : (s.upPkt id f).prot = s.prot := (rfl)
@[simp] theorem upPkt_foyer (s : State) (id : Nat) (f : Packet → Packet) : (s.upPkt id f).foyer = s.foyer := (rfl)
@[simp] theorem upPkt_mss (s : State) (id : Nat) (f : Packet → Packet) : (s.upPkt id f).mss = s.mss := (rfl)
@[simp] theorem upPkt_power (s : State) (id : Nat) (f : Packet → Packet) : (s.upPkt id f).power = s.power := (rfl)
@[simp] theorem upPkt_ports (s : State) (id : Nat) (f : Packet → Packet) : (s.upPkt id f).ports = s.ports := (rfl)
@[simp] theorem upPkt_out (s : State) (id : Nat) (f : Packet → Packet) : (s.upPkt id f).out = s.out := (rfl)
@[simp] theorem upPkt_evLost (s : State) (id : Nat) (f : Packet → Packet) : (s.upPkt id f).evLost = s.evLost := (rfl)

@[simp] theorem sendBan_ban (s : State) (src dst : Nat) (m : BanMsg) : (s.sendBan src dst m).ban = s.ban ++ [⟨src, dst, m⟩] := (rfl)
@[simp] theorem sendBan_pending (s : State) (src dst : Nat) (m : BanMsg) : (s.sendBan src dst m).pending = s.pending := (rfl)
@[simp] theorem sendBan_regs (s : State) (src dst : Nat) (m : BanMsg) : (s.sendBan src dst m).regs = s.regs := (rfl)
@[simp] theorem sendBan_fresh (s : State) (src dst : Nat) (m : BanMsg) : (s.sendBan src dst m).fresh = s.fresh := (rfl)
@[simp] theorem sendBan_now (s : State) (src dst : Nat) (m : BanMsg) : (s.sendBan src dst m).now = s.now := (rfl)
@[simp] theorem sendBan_tiles (s : State) (src dst : Nat) (m : BanMsg) : (s.sendBan src dst m).tiles = s.tiles := (rfl)
@[simp] theorem sendBan_halls (s : State) (src dst : Nat) (m : BanMsg) : (s.sendBan src dst m).halls = s.halls := (rfl)
@[simp] theorem sendBan_parts (s : State) (src dst : Nat) (m : BanMsg) : (s.sendBan src dst m).parts = s.parts := (rfl)
@[simp] theorem sendBan_net (s : State) (src dst : Nat) (m : BanMsg) : (s.sendBan src dst m).net = s.net := (rfl)
@[simp] theorem sendBan_nextPkt (s : State) (src dst : Nat) (m : BanMsg) : (s.sendBan src dst m).nextPkt = s.nextPkt := (rfl)
@[simp] theorem sendBan_shares (s : State) (src dst : Nat) (m : BanMsg) : (s.sendBan src dst m).shares = s.shares := (rfl)
@[simp] theorem sendBan_groups (s : State) (src dst : Nat) (m : BanMsg) : (s.sendBan src dst m).groups = s.groups := (rfl)
@[simp] theorem sendBan_peers (s : State) (src dst : Nat) (m : BanMsg) : (s.sendBan src dst m).peers = s.peers := (rfl)
@[simp] theorem sendBan_pageMap (s : State) (src dst : Nat) (m : BanMsg) : (s.sendBan src dst m).pageMap = s.pageMap := (rfl)
@[simp] theorem sendBan_frames (s : State) (src dst : Nat) (m : BanMsg) : (s.sendBan src dst m).frames = s.frames := (rfl)
@[simp] theorem sendBan_cuts (s : State) (src dst : Nat) (m : BanMsg) : (s.sendBan src dst m).cuts = s.cuts := (rfl)
@[simp] theorem sendBan_retired (s : State) (src dst : Nat) (m : BanMsg) : (s.sendBan src dst m).retired = s.retired := (rfl)
@[simp] theorem sendBan_poolSize (s : State) (src dst : Nat) (m : BanMsg) : (s.sendBan src dst m).poolSize = s.poolSize := (rfl)
@[simp] theorem sendBan_pool (s : State) (src dst : Nat) (m : BanMsg) : (s.sendBan src dst m).pool = s.pool := (rfl)
@[simp] theorem sendBan_copies (s : State) (src dst : Nat) (m : BanMsg) : (s.sendBan src dst m).copies = s.copies := (rfl)
@[simp] theorem sendBan_repairs (s : State) (src dst : Nat) (m : BanMsg) : (s.sendBan src dst m).repairs = s.repairs := (rfl)
@[simp] theorem sendBan_flying (s : State) (src dst : Nat) (m : BanMsg) : (s.sendBan src dst m).flying = s.flying := (rfl)
@[simp] theorem sendBan_waits (s : State) (src dst : Nat) (m : BanMsg) : (s.sendBan src dst m).waits = s.waits := (rfl)
@[simp] theorem sendBan_peerReads (s : State) (src dst : Nat) (m : BanMsg) : (s.sendBan src dst m).peerReads = s.peerReads := (rfl)
@[simp] theorem sendBan_prefetch (s : State) (src dst : Nat) (m : BanMsg) : (s.sendBan src dst m).prefetch = s.prefetch := (rfl)
@[simp] theorem sendBan_chk (s : State) (src dst : Nat) (m : BanMsg) : (s.sendBan src dst m).chk = s.chk := (rfl)
@[simp] theorem sendBan_patrol (s : State) (src dst : Nat) (m : BanMsg) : (s.sendBan src dst m).patrol = s.patrol := (rfl)
@[simp] theorem sendBan_mr4 (s : State) (src dst : Nat) (m : BanMsg) : (s.sendBan src dst m).mr4 = s.mr4 := (rfl)
@[simp] theorem sendBan_useCtr (s : State) (src dst : Nat) (m : BanMsg) : (s.sendBan src dst m).useCtr = s.useCtr := (rfl)
@[simp] theorem sendBan_memUe (s : State) (src dst : Nat) (m : BanMsg) : (s.sendBan src dst m).memUe = s.memUe := (rfl)
@[simp] theorem sendBan_hostOut (s : State) (src dst : Nat) (m : BanMsg) : (s.sendBan src dst m).hostOut = s.hostOut := (rfl)
@[simp] theorem sendBan_coll (s : State) (src dst : Nat) (m : BanMsg) : (s.sendBan src dst m).coll = s.coll := (rfl)
@[simp] theorem sendBan_prot (s : State) (src dst : Nat) (m : BanMsg) : (s.sendBan src dst m).prot = s.prot := (rfl)
@[simp] theorem sendBan_foyer (s : State) (src dst : Nat) (m : BanMsg) : (s.sendBan src dst m).foyer = s.foyer := (rfl)
@[simp] theorem sendBan_mss (s : State) (src dst : Nat) (m : BanMsg) : (s.sendBan src dst m).mss = s.mss := (rfl)
@[simp] theorem sendBan_power (s : State) (src dst : Nat) (m : BanMsg) : (s.sendBan src dst m).power = s.power := (rfl)
@[simp] theorem sendBan_ports (s : State) (src dst : Nat) (m : BanMsg) : (s.sendBan src dst m).ports = s.ports := (rfl)
@[simp] theorem sendBan_out (s : State) (src dst : Nat) (m : BanMsg) : (s.sendBan src dst m).out = s.out := (rfl)
@[simp] theorem sendBan_evLost (s : State) (src dst : Nat) (m : BanMsg) : (s.sendBan src dst m).evLost = s.evLost := (rfl)

@[simp] theorem dropBan_ban (s : State) (idx : Nat) : (s.dropBan idx).ban = s.ban.eraseIdx idx := (rfl)
@[simp] theorem dropBan_pending (s : State) (idx : Nat) : (s.dropBan idx).pending = s.pending := (rfl)
@[simp] theorem dropBan_regs (s : State) (idx : Nat) : (s.dropBan idx).regs = s.regs := (rfl)
@[simp] theorem dropBan_fresh (s : State) (idx : Nat) : (s.dropBan idx).fresh = s.fresh := (rfl)
@[simp] theorem dropBan_now (s : State) (idx : Nat) : (s.dropBan idx).now = s.now := (rfl)
@[simp] theorem dropBan_tiles (s : State) (idx : Nat) : (s.dropBan idx).tiles = s.tiles := (rfl)
@[simp] theorem dropBan_halls (s : State) (idx : Nat) : (s.dropBan idx).halls = s.halls := (rfl)
@[simp] theorem dropBan_parts (s : State) (idx : Nat) : (s.dropBan idx).parts = s.parts := (rfl)
@[simp] theorem dropBan_net (s : State) (idx : Nat) : (s.dropBan idx).net = s.net := (rfl)
@[simp] theorem dropBan_nextPkt (s : State) (idx : Nat) : (s.dropBan idx).nextPkt = s.nextPkt := (rfl)
@[simp] theorem dropBan_shares (s : State) (idx : Nat) : (s.dropBan idx).shares = s.shares := (rfl)
@[simp] theorem dropBan_groups (s : State) (idx : Nat) : (s.dropBan idx).groups = s.groups := (rfl)
@[simp] theorem dropBan_peers (s : State) (idx : Nat) : (s.dropBan idx).peers = s.peers := (rfl)
@[simp] theorem dropBan_pageMap (s : State) (idx : Nat) : (s.dropBan idx).pageMap = s.pageMap := (rfl)
@[simp] theorem dropBan_frames (s : State) (idx : Nat) : (s.dropBan idx).frames = s.frames := (rfl)
@[simp] theorem dropBan_cuts (s : State) (idx : Nat) : (s.dropBan idx).cuts = s.cuts := (rfl)
@[simp] theorem dropBan_retired (s : State) (idx : Nat) : (s.dropBan idx).retired = s.retired := (rfl)
@[simp] theorem dropBan_poolSize (s : State) (idx : Nat) : (s.dropBan idx).poolSize = s.poolSize := (rfl)
@[simp] theorem dropBan_pool (s : State) (idx : Nat) : (s.dropBan idx).pool = s.pool := (rfl)
@[simp] theorem dropBan_copies (s : State) (idx : Nat) : (s.dropBan idx).copies = s.copies := (rfl)
@[simp] theorem dropBan_repairs (s : State) (idx : Nat) : (s.dropBan idx).repairs = s.repairs := (rfl)
@[simp] theorem dropBan_flying (s : State) (idx : Nat) : (s.dropBan idx).flying = s.flying := (rfl)
@[simp] theorem dropBan_waits (s : State) (idx : Nat) : (s.dropBan idx).waits = s.waits := (rfl)
@[simp] theorem dropBan_peerReads (s : State) (idx : Nat) : (s.dropBan idx).peerReads = s.peerReads := (rfl)
@[simp] theorem dropBan_prefetch (s : State) (idx : Nat) : (s.dropBan idx).prefetch = s.prefetch := (rfl)
@[simp] theorem dropBan_chk (s : State) (idx : Nat) : (s.dropBan idx).chk = s.chk := (rfl)
@[simp] theorem dropBan_patrol (s : State) (idx : Nat) : (s.dropBan idx).patrol = s.patrol := (rfl)
@[simp] theorem dropBan_mr4 (s : State) (idx : Nat) : (s.dropBan idx).mr4 = s.mr4 := (rfl)
@[simp] theorem dropBan_useCtr (s : State) (idx : Nat) : (s.dropBan idx).useCtr = s.useCtr := (rfl)
@[simp] theorem dropBan_memUe (s : State) (idx : Nat) : (s.dropBan idx).memUe = s.memUe := (rfl)
@[simp] theorem dropBan_hostOut (s : State) (idx : Nat) : (s.dropBan idx).hostOut = s.hostOut := (rfl)
@[simp] theorem dropBan_coll (s : State) (idx : Nat) : (s.dropBan idx).coll = s.coll := (rfl)
@[simp] theorem dropBan_prot (s : State) (idx : Nat) : (s.dropBan idx).prot = s.prot := (rfl)
@[simp] theorem dropBan_foyer (s : State) (idx : Nat) : (s.dropBan idx).foyer = s.foyer := (rfl)
@[simp] theorem dropBan_mss (s : State) (idx : Nat) : (s.dropBan idx).mss = s.mss := (rfl)
@[simp] theorem dropBan_power (s : State) (idx : Nat) : (s.dropBan idx).power = s.power := (rfl)
@[simp] theorem dropBan_ports (s : State) (idx : Nat) : (s.dropBan idx).ports = s.ports := (rfl)
@[simp] theorem dropBan_out (s : State) (idx : Nat) : (s.dropBan idx).out = s.out := (rfl)
@[simp] theorem dropBan_evLost (s : State) (idx : Nat) : (s.dropBan idx).evLost = s.evLost := (rfl)

@[simp] theorem w_regs (s : State) (f : Fld) (u i x : Nat) : (s.w f u i x).regs = s.regs.set f u i x := (rfl)
@[simp] theorem w_pending (s : State) (f : Fld) (u i x : Nat) : (s.w f u i x).pending = s.pending := (rfl)
@[simp] theorem w_fresh (s : State) (f : Fld) (u i x : Nat) : (s.w f u i x).fresh = s.fresh := (rfl)
@[simp] theorem w_now (s : State) (f : Fld) (u i x : Nat) : (s.w f u i x).now = s.now := (rfl)
@[simp] theorem w_tiles (s : State) (f : Fld) (u i x : Nat) : (s.w f u i x).tiles = s.tiles := (rfl)
@[simp] theorem w_halls (s : State) (f : Fld) (u i x : Nat) : (s.w f u i x).halls = s.halls := (rfl)
@[simp] theorem w_parts (s : State) (f : Fld) (u i x : Nat) : (s.w f u i x).parts = s.parts := (rfl)
@[simp] theorem w_net (s : State) (f : Fld) (u i x : Nat) : (s.w f u i x).net = s.net := (rfl)
@[simp] theorem w_nextPkt (s : State) (f : Fld) (u i x : Nat) : (s.w f u i x).nextPkt = s.nextPkt := (rfl)
@[simp] theorem w_ban (s : State) (f : Fld) (u i x : Nat) : (s.w f u i x).ban = s.ban := (rfl)
@[simp] theorem w_shares (s : State) (f : Fld) (u i x : Nat) : (s.w f u i x).shares = s.shares := (rfl)
@[simp] theorem w_groups (s : State) (f : Fld) (u i x : Nat) : (s.w f u i x).groups = s.groups := (rfl)
@[simp] theorem w_peers (s : State) (f : Fld) (u i x : Nat) : (s.w f u i x).peers = s.peers := (rfl)
@[simp] theorem w_pageMap (s : State) (f : Fld) (u i x : Nat) : (s.w f u i x).pageMap = s.pageMap := (rfl)
@[simp] theorem w_frames (s : State) (f : Fld) (u i x : Nat) : (s.w f u i x).frames = s.frames := (rfl)
@[simp] theorem w_cuts (s : State) (f : Fld) (u i x : Nat) : (s.w f u i x).cuts = s.cuts := (rfl)
@[simp] theorem w_retired (s : State) (f : Fld) (u i x : Nat) : (s.w f u i x).retired = s.retired := (rfl)
@[simp] theorem w_poolSize (s : State) (f : Fld) (u i x : Nat) : (s.w f u i x).poolSize = s.poolSize := (rfl)
@[simp] theorem w_pool (s : State) (f : Fld) (u i x : Nat) : (s.w f u i x).pool = s.pool := (rfl)
@[simp] theorem w_copies (s : State) (f : Fld) (u i x : Nat) : (s.w f u i x).copies = s.copies := (rfl)
@[simp] theorem w_repairs (s : State) (f : Fld) (u i x : Nat) : (s.w f u i x).repairs = s.repairs := (rfl)
@[simp] theorem w_flying (s : State) (f : Fld) (u i x : Nat) : (s.w f u i x).flying = s.flying := (rfl)
@[simp] theorem w_waits (s : State) (f : Fld) (u i x : Nat) : (s.w f u i x).waits = s.waits := (rfl)
@[simp] theorem w_peerReads (s : State) (f : Fld) (u i x : Nat) : (s.w f u i x).peerReads = s.peerReads := (rfl)
@[simp] theorem w_prefetch (s : State) (f : Fld) (u i x : Nat) : (s.w f u i x).prefetch = s.prefetch := (rfl)
@[simp] theorem w_chk (s : State) (f : Fld) (u i x : Nat) : (s.w f u i x).chk = s.chk := (rfl)
@[simp] theorem w_patrol (s : State) (f : Fld) (u i x : Nat) : (s.w f u i x).patrol = s.patrol := (rfl)
@[simp] theorem w_mr4 (s : State) (f : Fld) (u i x : Nat) : (s.w f u i x).mr4 = s.mr4 := (rfl)
@[simp] theorem w_useCtr (s : State) (f : Fld) (u i x : Nat) : (s.w f u i x).useCtr = s.useCtr := (rfl)
@[simp] theorem w_memUe (s : State) (f : Fld) (u i x : Nat) : (s.w f u i x).memUe = s.memUe := (rfl)
@[simp] theorem w_hostOut (s : State) (f : Fld) (u i x : Nat) : (s.w f u i x).hostOut = s.hostOut := (rfl)
@[simp] theorem w_coll (s : State) (f : Fld) (u i x : Nat) : (s.w f u i x).coll = s.coll := (rfl)
@[simp] theorem w_prot (s : State) (f : Fld) (u i x : Nat) : (s.w f u i x).prot = s.prot := (rfl)
@[simp] theorem w_foyer (s : State) (f : Fld) (u i x : Nat) : (s.w f u i x).foyer = s.foyer := (rfl)
@[simp] theorem w_mss (s : State) (f : Fld) (u i x : Nat) : (s.w f u i x).mss = s.mss := (rfl)
@[simp] theorem w_power (s : State) (f : Fld) (u i x : Nat) : (s.w f u i x).power = s.power := (rfl)
@[simp] theorem w_ports (s : State) (f : Fld) (u i x : Nat) : (s.w f u i x).ports = s.ports := (rfl)
@[simp] theorem w_out (s : State) (f : Fld) (u i x : Nat) : (s.w f u i x).out = s.out := (rfl)
@[simp] theorem w_evLost (s : State) (f : Fld) (u i x : Nat) : (s.w f u i x).evLost = s.evLost := (rfl)

@[simp] theorem inc_regs (s : State) (f : Fld) (u i n : Nat) : (s.inc f u i n).regs = s.regs.bump f u i n := (rfl)
@[simp] theorem inc_pending (s : State) (f : Fld) (u i n : Nat) : (s.inc f u i n).pending = s.pending := (rfl)
@[simp] theorem inc_fresh (s : State) (f : Fld) (u i n : Nat) : (s.inc f u i n).fresh = s.fresh := (rfl)
@[simp] theorem inc_now (s : State) (f : Fld) (u i n : Nat) : (s.inc f u i n).now = s.now := (rfl)
@[simp] theorem inc_tiles (s : State) (f : Fld) (u i n : Nat) : (s.inc f u i n).tiles = s.tiles := (rfl)
@[simp] theorem inc_halls (s : State) (f : Fld) (u i n : Nat) : (s.inc f u i n).halls = s.halls := (rfl)
@[simp] theorem inc_parts (s : State) (f : Fld) (u i n : Nat) : (s.inc f u i n).parts = s.parts := (rfl)
@[simp] theorem inc_net (s : State) (f : Fld) (u i n : Nat) : (s.inc f u i n).net = s.net := (rfl)
@[simp] theorem inc_nextPkt (s : State) (f : Fld) (u i n : Nat) : (s.inc f u i n).nextPkt = s.nextPkt := (rfl)
@[simp] theorem inc_ban (s : State) (f : Fld) (u i n : Nat) : (s.inc f u i n).ban = s.ban := (rfl)
@[simp] theorem inc_shares (s : State) (f : Fld) (u i n : Nat) : (s.inc f u i n).shares = s.shares := (rfl)
@[simp] theorem inc_groups (s : State) (f : Fld) (u i n : Nat) : (s.inc f u i n).groups = s.groups := (rfl)
@[simp] theorem inc_peers (s : State) (f : Fld) (u i n : Nat) : (s.inc f u i n).peers = s.peers := (rfl)
@[simp] theorem inc_pageMap (s : State) (f : Fld) (u i n : Nat) : (s.inc f u i n).pageMap = s.pageMap := (rfl)
@[simp] theorem inc_frames (s : State) (f : Fld) (u i n : Nat) : (s.inc f u i n).frames = s.frames := (rfl)
@[simp] theorem inc_cuts (s : State) (f : Fld) (u i n : Nat) : (s.inc f u i n).cuts = s.cuts := (rfl)
@[simp] theorem inc_retired (s : State) (f : Fld) (u i n : Nat) : (s.inc f u i n).retired = s.retired := (rfl)
@[simp] theorem inc_poolSize (s : State) (f : Fld) (u i n : Nat) : (s.inc f u i n).poolSize = s.poolSize := (rfl)
@[simp] theorem inc_pool (s : State) (f : Fld) (u i n : Nat) : (s.inc f u i n).pool = s.pool := (rfl)
@[simp] theorem inc_copies (s : State) (f : Fld) (u i n : Nat) : (s.inc f u i n).copies = s.copies := (rfl)
@[simp] theorem inc_repairs (s : State) (f : Fld) (u i n : Nat) : (s.inc f u i n).repairs = s.repairs := (rfl)
@[simp] theorem inc_flying (s : State) (f : Fld) (u i n : Nat) : (s.inc f u i n).flying = s.flying := (rfl)
@[simp] theorem inc_waits (s : State) (f : Fld) (u i n : Nat) : (s.inc f u i n).waits = s.waits := (rfl)
@[simp] theorem inc_peerReads (s : State) (f : Fld) (u i n : Nat) : (s.inc f u i n).peerReads = s.peerReads := (rfl)
@[simp] theorem inc_prefetch (s : State) (f : Fld) (u i n : Nat) : (s.inc f u i n).prefetch = s.prefetch := (rfl)
@[simp] theorem inc_chk (s : State) (f : Fld) (u i n : Nat) : (s.inc f u i n).chk = s.chk := (rfl)
@[simp] theorem inc_patrol (s : State) (f : Fld) (u i n : Nat) : (s.inc f u i n).patrol = s.patrol := (rfl)
@[simp] theorem inc_mr4 (s : State) (f : Fld) (u i n : Nat) : (s.inc f u i n).mr4 = s.mr4 := (rfl)
@[simp] theorem inc_useCtr (s : State) (f : Fld) (u i n : Nat) : (s.inc f u i n).useCtr = s.useCtr := (rfl)
@[simp] theorem inc_memUe (s : State) (f : Fld) (u i n : Nat) : (s.inc f u i n).memUe = s.memUe := (rfl)
@[simp] theorem inc_hostOut (s : State) (f : Fld) (u i n : Nat) : (s.inc f u i n).hostOut = s.hostOut := (rfl)
@[simp] theorem inc_coll (s : State) (f : Fld) (u i n : Nat) : (s.inc f u i n).coll = s.coll := (rfl)
@[simp] theorem inc_prot (s : State) (f : Fld) (u i n : Nat) : (s.inc f u i n).prot = s.prot := (rfl)
@[simp] theorem inc_foyer (s : State) (f : Fld) (u i n : Nat) : (s.inc f u i n).foyer = s.foyer := (rfl)
@[simp] theorem inc_mss (s : State) (f : Fld) (u i n : Nat) : (s.inc f u i n).mss = s.mss := (rfl)
@[simp] theorem inc_power (s : State) (f : Fld) (u i n : Nat) : (s.inc f u i n).power = s.power := (rfl)
@[simp] theorem inc_ports (s : State) (f : Fld) (u i n : Nat) : (s.inc f u i n).ports = s.ports := (rfl)
@[simp] theorem inc_out (s : State) (f : Fld) (u i n : Nat) : (s.inc f u i n).out = s.out := (rfl)
@[simp] theorem inc_evLost (s : State) (f : Fld) (u i n : Nat) : (s.inc f u i n).evLost = s.evLost := (rfl)

@[simp] theorem wreg_regs (s : State) (r : Reg) (u i : Nat) (v : BitVec 64) : (s.wreg r u i v).regs = s.regs.wr r u i v := (rfl)
@[simp] theorem wreg_pending (s : State) (r : Reg) (u i : Nat) (v : BitVec 64) : (s.wreg r u i v).pending = s.pending := (rfl)
@[simp] theorem wreg_fresh (s : State) (r : Reg) (u i : Nat) (v : BitVec 64) : (s.wreg r u i v).fresh = s.fresh := (rfl)
@[simp] theorem wreg_now (s : State) (r : Reg) (u i : Nat) (v : BitVec 64) : (s.wreg r u i v).now = s.now := (rfl)
@[simp] theorem wreg_tiles (s : State) (r : Reg) (u i : Nat) (v : BitVec 64) : (s.wreg r u i v).tiles = s.tiles := (rfl)
@[simp] theorem wreg_halls (s : State) (r : Reg) (u i : Nat) (v : BitVec 64) : (s.wreg r u i v).halls = s.halls := (rfl)
@[simp] theorem wreg_parts (s : State) (r : Reg) (u i : Nat) (v : BitVec 64) : (s.wreg r u i v).parts = s.parts := (rfl)
@[simp] theorem wreg_net (s : State) (r : Reg) (u i : Nat) (v : BitVec 64) : (s.wreg r u i v).net = s.net := (rfl)
@[simp] theorem wreg_nextPkt (s : State) (r : Reg) (u i : Nat) (v : BitVec 64) : (s.wreg r u i v).nextPkt = s.nextPkt := (rfl)
@[simp] theorem wreg_ban (s : State) (r : Reg) (u i : Nat) (v : BitVec 64) : (s.wreg r u i v).ban = s.ban := (rfl)
@[simp] theorem wreg_shares (s : State) (r : Reg) (u i : Nat) (v : BitVec 64) : (s.wreg r u i v).shares = s.shares := (rfl)
@[simp] theorem wreg_groups (s : State) (r : Reg) (u i : Nat) (v : BitVec 64) : (s.wreg r u i v).groups = s.groups := (rfl)
@[simp] theorem wreg_peers (s : State) (r : Reg) (u i : Nat) (v : BitVec 64) : (s.wreg r u i v).peers = s.peers := (rfl)
@[simp] theorem wreg_pageMap (s : State) (r : Reg) (u i : Nat) (v : BitVec 64) : (s.wreg r u i v).pageMap = s.pageMap := (rfl)
@[simp] theorem wreg_frames (s : State) (r : Reg) (u i : Nat) (v : BitVec 64) : (s.wreg r u i v).frames = s.frames := (rfl)
@[simp] theorem wreg_cuts (s : State) (r : Reg) (u i : Nat) (v : BitVec 64) : (s.wreg r u i v).cuts = s.cuts := (rfl)
@[simp] theorem wreg_retired (s : State) (r : Reg) (u i : Nat) (v : BitVec 64) : (s.wreg r u i v).retired = s.retired := (rfl)
@[simp] theorem wreg_poolSize (s : State) (r : Reg) (u i : Nat) (v : BitVec 64) : (s.wreg r u i v).poolSize = s.poolSize := (rfl)
@[simp] theorem wreg_pool (s : State) (r : Reg) (u i : Nat) (v : BitVec 64) : (s.wreg r u i v).pool = s.pool := (rfl)
@[simp] theorem wreg_copies (s : State) (r : Reg) (u i : Nat) (v : BitVec 64) : (s.wreg r u i v).copies = s.copies := (rfl)
@[simp] theorem wreg_repairs (s : State) (r : Reg) (u i : Nat) (v : BitVec 64) : (s.wreg r u i v).repairs = s.repairs := (rfl)
@[simp] theorem wreg_flying (s : State) (r : Reg) (u i : Nat) (v : BitVec 64) : (s.wreg r u i v).flying = s.flying := (rfl)
@[simp] theorem wreg_waits (s : State) (r : Reg) (u i : Nat) (v : BitVec 64) : (s.wreg r u i v).waits = s.waits := (rfl)
@[simp] theorem wreg_peerReads (s : State) (r : Reg) (u i : Nat) (v : BitVec 64) : (s.wreg r u i v).peerReads = s.peerReads := (rfl)
@[simp] theorem wreg_prefetch (s : State) (r : Reg) (u i : Nat) (v : BitVec 64) : (s.wreg r u i v).prefetch = s.prefetch := (rfl)
@[simp] theorem wreg_chk (s : State) (r : Reg) (u i : Nat) (v : BitVec 64) : (s.wreg r u i v).chk = s.chk := (rfl)
@[simp] theorem wreg_patrol (s : State) (r : Reg) (u i : Nat) (v : BitVec 64) : (s.wreg r u i v).patrol = s.patrol := (rfl)
@[simp] theorem wreg_mr4 (s : State) (r : Reg) (u i : Nat) (v : BitVec 64) : (s.wreg r u i v).mr4 = s.mr4 := (rfl)
@[simp] theorem wreg_useCtr (s : State) (r : Reg) (u i : Nat) (v : BitVec 64) : (s.wreg r u i v).useCtr = s.useCtr := (rfl)
@[simp] theorem wreg_memUe (s : State) (r : Reg) (u i : Nat) (v : BitVec 64) : (s.wreg r u i v).memUe = s.memUe := (rfl)
@[simp] theorem wreg_hostOut (s : State) (r : Reg) (u i : Nat) (v : BitVec 64) : (s.wreg r u i v).hostOut = s.hostOut := (rfl)
@[simp] theorem wreg_coll (s : State) (r : Reg) (u i : Nat) (v : BitVec 64) : (s.wreg r u i v).coll = s.coll := (rfl)
@[simp] theorem wreg_prot (s : State) (r : Reg) (u i : Nat) (v : BitVec 64) : (s.wreg r u i v).prot = s.prot := (rfl)
@[simp] theorem wreg_foyer (s : State) (r : Reg) (u i : Nat) (v : BitVec 64) : (s.wreg r u i v).foyer = s.foyer := (rfl)
@[simp] theorem wreg_mss (s : State) (r : Reg) (u i : Nat) (v : BitVec 64) : (s.wreg r u i v).mss = s.mss := (rfl)
@[simp] theorem wreg_power (s : State) (r : Reg) (u i : Nat) (v : BitVec 64) : (s.wreg r u i v).power = s.power := (rfl)
@[simp] theorem wreg_ports (s : State) (r : Reg) (u i : Nat) (v : BitVec 64) : (s.wreg r u i v).ports = s.ports := (rfl)
@[simp] theorem wreg_out (s : State) (r : Reg) (u i : Nat) (v : BitVec 64) : (s.wreg r u i v).out = s.out := (rfl)
@[simp] theorem wreg_evLost (s : State) (r : Reg) (u i : Nat) (v : BitVec 64) : (s.wreg r u i v).evLost = s.evLost := (rfl)

@[simp] theorem setTile_tiles (s : State) (n : Nat) (t : Tile) : (s.setTile n t).tiles = Sparse.put Tile.free s.tiles n t := (rfl)
@[simp] theorem setTile_pending (s : State) (n : Nat) (t : Tile) : (s.setTile n t).pending = s.pending := (rfl)
@[simp] theorem setTile_regs (s : State) (n : Nat) (t : Tile) : (s.setTile n t).regs = s.regs := (rfl)
@[simp] theorem setTile_fresh (s : State) (n : Nat) (t : Tile) : (s.setTile n t).fresh = s.fresh := (rfl)
@[simp] theorem setTile_now (s : State) (n : Nat) (t : Tile) : (s.setTile n t).now = s.now := (rfl)
@[simp] theorem setTile_halls (s : State) (n : Nat) (t : Tile) : (s.setTile n t).halls = s.halls := (rfl)
@[simp] theorem setTile_parts (s : State) (n : Nat) (t : Tile) : (s.setTile n t).parts = s.parts := (rfl)
@[simp] theorem setTile_net (s : State) (n : Nat) (t : Tile) : (s.setTile n t).net = s.net := (rfl)
@[simp] theorem setTile_nextPkt (s : State) (n : Nat) (t : Tile) : (s.setTile n t).nextPkt = s.nextPkt := (rfl)
@[simp] theorem setTile_ban (s : State) (n : Nat) (t : Tile) : (s.setTile n t).ban = s.ban := (rfl)
@[simp] theorem setTile_shares (s : State) (n : Nat) (t : Tile) : (s.setTile n t).shares = s.shares := (rfl)
@[simp] theorem setTile_groups (s : State) (n : Nat) (t : Tile) : (s.setTile n t).groups = s.groups := (rfl)
@[simp] theorem setTile_peers (s : State) (n : Nat) (t : Tile) : (s.setTile n t).peers = s.peers := (rfl)
@[simp] theorem setTile_pageMap (s : State) (n : Nat) (t : Tile) : (s.setTile n t).pageMap = s.pageMap := (rfl)
@[simp] theorem setTile_frames (s : State) (n : Nat) (t : Tile) : (s.setTile n t).frames = s.frames := (rfl)
@[simp] theorem setTile_cuts (s : State) (n : Nat) (t : Tile) : (s.setTile n t).cuts = s.cuts := (rfl)
@[simp] theorem setTile_retired (s : State) (n : Nat) (t : Tile) : (s.setTile n t).retired = s.retired := (rfl)
@[simp] theorem setTile_poolSize (s : State) (n : Nat) (t : Tile) : (s.setTile n t).poolSize = s.poolSize := (rfl)
@[simp] theorem setTile_pool (s : State) (n : Nat) (t : Tile) : (s.setTile n t).pool = s.pool := (rfl)
@[simp] theorem setTile_copies (s : State) (n : Nat) (t : Tile) : (s.setTile n t).copies = s.copies := (rfl)
@[simp] theorem setTile_repairs (s : State) (n : Nat) (t : Tile) : (s.setTile n t).repairs = s.repairs := (rfl)
@[simp] theorem setTile_flying (s : State) (n : Nat) (t : Tile) : (s.setTile n t).flying = s.flying := (rfl)
@[simp] theorem setTile_waits (s : State) (n : Nat) (t : Tile) : (s.setTile n t).waits = s.waits := (rfl)
@[simp] theorem setTile_peerReads (s : State) (n : Nat) (t : Tile) : (s.setTile n t).peerReads = s.peerReads := (rfl)
@[simp] theorem setTile_prefetch (s : State) (n : Nat) (t : Tile) : (s.setTile n t).prefetch = s.prefetch := (rfl)
@[simp] theorem setTile_chk (s : State) (n : Nat) (t : Tile) : (s.setTile n t).chk = s.chk := (rfl)
@[simp] theorem setTile_patrol (s : State) (n : Nat) (t : Tile) : (s.setTile n t).patrol = s.patrol := (rfl)
@[simp] theorem setTile_mr4 (s : State) (n : Nat) (t : Tile) : (s.setTile n t).mr4 = s.mr4 := (rfl)
@[simp] theorem setTile_useCtr (s : State) (n : Nat) (t : Tile) : (s.setTile n t).useCtr = s.useCtr := (rfl)
@[simp] theorem setTile_memUe (s : State) (n : Nat) (t : Tile) : (s.setTile n t).memUe = s.memUe := (rfl)
@[simp] theorem setTile_hostOut (s : State) (n : Nat) (t : Tile) : (s.setTile n t).hostOut = s.hostOut := (rfl)
@[simp] theorem setTile_coll (s : State) (n : Nat) (t : Tile) : (s.setTile n t).coll = s.coll := (rfl)
@[simp] theorem setTile_prot (s : State) (n : Nat) (t : Tile) : (s.setTile n t).prot = s.prot := (rfl)
@[simp] theorem setTile_foyer (s : State) (n : Nat) (t : Tile) : (s.setTile n t).foyer = s.foyer := (rfl)
@[simp] theorem setTile_mss (s : State) (n : Nat) (t : Tile) : (s.setTile n t).mss = s.mss := (rfl)
@[simp] theorem setTile_power (s : State) (n : Nat) (t : Tile) : (s.setTile n t).power = s.power := (rfl)
@[simp] theorem setTile_ports (s : State) (n : Nat) (t : Tile) : (s.setTile n t).ports = s.ports := (rfl)
@[simp] theorem setTile_out (s : State) (n : Nat) (t : Tile) : (s.setTile n t).out = s.out := (rfl)
@[simp] theorem setTile_evLost (s : State) (n : Nat) (t : Tile) : (s.setTile n t).evLost = s.evLost := (rfl)

@[simp] theorem setHall_halls (s : State) (h : Nat) (x : Hall) : (s.setHall h x).halls = Sparse.put Hall.free s.halls h x := (rfl)
@[simp] theorem setHall_pending (s : State) (h : Nat) (x : Hall) : (s.setHall h x).pending = s.pending := (rfl)
@[simp] theorem setHall_regs (s : State) (h : Nat) (x : Hall) : (s.setHall h x).regs = s.regs := (rfl)
@[simp] theorem setHall_fresh (s : State) (h : Nat) (x : Hall) : (s.setHall h x).fresh = s.fresh := (rfl)
@[simp] theorem setHall_now (s : State) (h : Nat) (x : Hall) : (s.setHall h x).now = s.now := (rfl)
@[simp] theorem setHall_tiles (s : State) (h : Nat) (x : Hall) : (s.setHall h x).tiles = s.tiles := (rfl)
@[simp] theorem setHall_parts (s : State) (h : Nat) (x : Hall) : (s.setHall h x).parts = s.parts := (rfl)
@[simp] theorem setHall_net (s : State) (h : Nat) (x : Hall) : (s.setHall h x).net = s.net := (rfl)
@[simp] theorem setHall_nextPkt (s : State) (h : Nat) (x : Hall) : (s.setHall h x).nextPkt = s.nextPkt := (rfl)
@[simp] theorem setHall_ban (s : State) (h : Nat) (x : Hall) : (s.setHall h x).ban = s.ban := (rfl)
@[simp] theorem setHall_shares (s : State) (h : Nat) (x : Hall) : (s.setHall h x).shares = s.shares := (rfl)
@[simp] theorem setHall_groups (s : State) (h : Nat) (x : Hall) : (s.setHall h x).groups = s.groups := (rfl)
@[simp] theorem setHall_peers (s : State) (h : Nat) (x : Hall) : (s.setHall h x).peers = s.peers := (rfl)
@[simp] theorem setHall_pageMap (s : State) (h : Nat) (x : Hall) : (s.setHall h x).pageMap = s.pageMap := (rfl)
@[simp] theorem setHall_frames (s : State) (h : Nat) (x : Hall) : (s.setHall h x).frames = s.frames := (rfl)
@[simp] theorem setHall_cuts (s : State) (h : Nat) (x : Hall) : (s.setHall h x).cuts = s.cuts := (rfl)
@[simp] theorem setHall_retired (s : State) (h : Nat) (x : Hall) : (s.setHall h x).retired = s.retired := (rfl)
@[simp] theorem setHall_poolSize (s : State) (h : Nat) (x : Hall) : (s.setHall h x).poolSize = s.poolSize := (rfl)
@[simp] theorem setHall_pool (s : State) (h : Nat) (x : Hall) : (s.setHall h x).pool = s.pool := (rfl)
@[simp] theorem setHall_copies (s : State) (h : Nat) (x : Hall) : (s.setHall h x).copies = s.copies := (rfl)
@[simp] theorem setHall_repairs (s : State) (h : Nat) (x : Hall) : (s.setHall h x).repairs = s.repairs := (rfl)
@[simp] theorem setHall_flying (s : State) (h : Nat) (x : Hall) : (s.setHall h x).flying = s.flying := (rfl)
@[simp] theorem setHall_waits (s : State) (h : Nat) (x : Hall) : (s.setHall h x).waits = s.waits := (rfl)
@[simp] theorem setHall_peerReads (s : State) (h : Nat) (x : Hall) : (s.setHall h x).peerReads = s.peerReads := (rfl)
@[simp] theorem setHall_prefetch (s : State) (h : Nat) (x : Hall) : (s.setHall h x).prefetch = s.prefetch := (rfl)
@[simp] theorem setHall_chk (s : State) (h : Nat) (x : Hall) : (s.setHall h x).chk = s.chk := (rfl)
@[simp] theorem setHall_patrol (s : State) (h : Nat) (x : Hall) : (s.setHall h x).patrol = s.patrol := (rfl)
@[simp] theorem setHall_mr4 (s : State) (h : Nat) (x : Hall) : (s.setHall h x).mr4 = s.mr4 := (rfl)
@[simp] theorem setHall_useCtr (s : State) (h : Nat) (x : Hall) : (s.setHall h x).useCtr = s.useCtr := (rfl)
@[simp] theorem setHall_memUe (s : State) (h : Nat) (x : Hall) : (s.setHall h x).memUe = s.memUe := (rfl)
@[simp] theorem setHall_hostOut (s : State) (h : Nat) (x : Hall) : (s.setHall h x).hostOut = s.hostOut := (rfl)
@[simp] theorem setHall_coll (s : State) (h : Nat) (x : Hall) : (s.setHall h x).coll = s.coll := (rfl)
@[simp] theorem setHall_prot (s : State) (h : Nat) (x : Hall) : (s.setHall h x).prot = s.prot := (rfl)
@[simp] theorem setHall_foyer (s : State) (h : Nat) (x : Hall) : (s.setHall h x).foyer = s.foyer := (rfl)
@[simp] theorem setHall_mss (s : State) (h : Nat) (x : Hall) : (s.setHall h x).mss = s.mss := (rfl)
@[simp] theorem setHall_power (s : State) (h : Nat) (x : Hall) : (s.setHall h x).power = s.power := (rfl)
@[simp] theorem setHall_ports (s : State) (h : Nat) (x : Hall) : (s.setHall h x).ports = s.ports := (rfl)
@[simp] theorem setHall_out (s : State) (h : Nat) (x : Hall) : (s.setHall h x).out = s.out := (rfl)
@[simp] theorem setHall_evLost (s : State) (h : Nat) (x : Hall) : (s.setHall h x).evLost = s.evLost := (rfl)

@[simp] theorem emit_out (s : State) (o : Output) : (s.emit o).out = o :: s.out := (rfl)
@[simp] theorem emit_pending (s : State) (o : Output) : (s.emit o).pending = s.pending := (rfl)
@[simp] theorem emit_regs (s : State) (o : Output) : (s.emit o).regs = s.regs := (rfl)
@[simp] theorem emit_fresh (s : State) (o : Output) : (s.emit o).fresh = s.fresh := (rfl)
@[simp] theorem emit_now (s : State) (o : Output) : (s.emit o).now = s.now := (rfl)
@[simp] theorem emit_tiles (s : State) (o : Output) : (s.emit o).tiles = s.tiles := (rfl)
@[simp] theorem emit_halls (s : State) (o : Output) : (s.emit o).halls = s.halls := (rfl)
@[simp] theorem emit_parts (s : State) (o : Output) : (s.emit o).parts = s.parts := (rfl)
@[simp] theorem emit_net (s : State) (o : Output) : (s.emit o).net = s.net := (rfl)
@[simp] theorem emit_nextPkt (s : State) (o : Output) : (s.emit o).nextPkt = s.nextPkt := (rfl)
@[simp] theorem emit_ban (s : State) (o : Output) : (s.emit o).ban = s.ban := (rfl)
@[simp] theorem emit_shares (s : State) (o : Output) : (s.emit o).shares = s.shares := (rfl)
@[simp] theorem emit_groups (s : State) (o : Output) : (s.emit o).groups = s.groups := (rfl)
@[simp] theorem emit_peers (s : State) (o : Output) : (s.emit o).peers = s.peers := (rfl)
@[simp] theorem emit_pageMap (s : State) (o : Output) : (s.emit o).pageMap = s.pageMap := (rfl)
@[simp] theorem emit_frames (s : State) (o : Output) : (s.emit o).frames = s.frames := (rfl)
@[simp] theorem emit_cuts (s : State) (o : Output) : (s.emit o).cuts = s.cuts := (rfl)
@[simp] theorem emit_retired (s : State) (o : Output) : (s.emit o).retired = s.retired := (rfl)
@[simp] theorem emit_poolSize (s : State) (o : Output) : (s.emit o).poolSize = s.poolSize := (rfl)
@[simp] theorem emit_pool (s : State) (o : Output) : (s.emit o).pool = s.pool := (rfl)
@[simp] theorem emit_copies (s : State) (o : Output) : (s.emit o).copies = s.copies := (rfl)
@[simp] theorem emit_repairs (s : State) (o : Output) : (s.emit o).repairs = s.repairs := (rfl)
@[simp] theorem emit_flying (s : State) (o : Output) : (s.emit o).flying = s.flying := (rfl)
@[simp] theorem emit_waits (s : State) (o : Output) : (s.emit o).waits = s.waits := (rfl)
@[simp] theorem emit_peerReads (s : State) (o : Output) : (s.emit o).peerReads = s.peerReads := (rfl)
@[simp] theorem emit_prefetch (s : State) (o : Output) : (s.emit o).prefetch = s.prefetch := (rfl)
@[simp] theorem emit_chk (s : State) (o : Output) : (s.emit o).chk = s.chk := (rfl)
@[simp] theorem emit_patrol (s : State) (o : Output) : (s.emit o).patrol = s.patrol := (rfl)
@[simp] theorem emit_mr4 (s : State) (o : Output) : (s.emit o).mr4 = s.mr4 := (rfl)
@[simp] theorem emit_useCtr (s : State) (o : Output) : (s.emit o).useCtr = s.useCtr := (rfl)
@[simp] theorem emit_memUe (s : State) (o : Output) : (s.emit o).memUe = s.memUe := (rfl)
@[simp] theorem emit_hostOut (s : State) (o : Output) : (s.emit o).hostOut = s.hostOut := (rfl)
@[simp] theorem emit_coll (s : State) (o : Output) : (s.emit o).coll = s.coll := (rfl)
@[simp] theorem emit_prot (s : State) (o : Output) : (s.emit o).prot = s.prot := (rfl)
@[simp] theorem emit_foyer (s : State) (o : Output) : (s.emit o).foyer = s.foyer := (rfl)
@[simp] theorem emit_mss (s : State) (o : Output) : (s.emit o).mss = s.mss := (rfl)
@[simp] theorem emit_power (s : State) (o : Output) : (s.emit o).power = s.power := (rfl)
@[simp] theorem emit_ports (s : State) (o : Output) : (s.emit o).ports = s.ports := (rfl)
@[simp] theorem emit_evLost (s : State) (o : Output) : (s.emit o).evLost = s.evLost := (rfl)

@[simp] theorem upFoyer_foyer (s : State) (f : Foyer → Foyer) : (s.upFoyer f).foyer = f s.foyer := (rfl)
@[simp] theorem upFoyer_pending (s : State) (f : Foyer → Foyer) : (s.upFoyer f).pending = s.pending := (rfl)
@[simp] theorem upFoyer_regs (s : State) (f : Foyer → Foyer) : (s.upFoyer f).regs = s.regs := (rfl)
@[simp] theorem upFoyer_fresh (s : State) (f : Foyer → Foyer) : (s.upFoyer f).fresh = s.fresh := (rfl)
@[simp] theorem upFoyer_now (s : State) (f : Foyer → Foyer) : (s.upFoyer f).now = s.now := (rfl)
@[simp] theorem upFoyer_tiles (s : State) (f : Foyer → Foyer) : (s.upFoyer f).tiles = s.tiles := (rfl)
@[simp] theorem upFoyer_halls (s : State) (f : Foyer → Foyer) : (s.upFoyer f).halls = s.halls := (rfl)
@[simp] theorem upFoyer_parts (s : State) (f : Foyer → Foyer) : (s.upFoyer f).parts = s.parts := (rfl)
@[simp] theorem upFoyer_net (s : State) (f : Foyer → Foyer) : (s.upFoyer f).net = s.net := (rfl)
@[simp] theorem upFoyer_nextPkt (s : State) (f : Foyer → Foyer) : (s.upFoyer f).nextPkt = s.nextPkt := (rfl)
@[simp] theorem upFoyer_ban (s : State) (f : Foyer → Foyer) : (s.upFoyer f).ban = s.ban := (rfl)
@[simp] theorem upFoyer_shares (s : State) (f : Foyer → Foyer) : (s.upFoyer f).shares = s.shares := (rfl)
@[simp] theorem upFoyer_groups (s : State) (f : Foyer → Foyer) : (s.upFoyer f).groups = s.groups := (rfl)
@[simp] theorem upFoyer_peers (s : State) (f : Foyer → Foyer) : (s.upFoyer f).peers = s.peers := (rfl)
@[simp] theorem upFoyer_pageMap (s : State) (f : Foyer → Foyer) : (s.upFoyer f).pageMap = s.pageMap := (rfl)
@[simp] theorem upFoyer_frames (s : State) (f : Foyer → Foyer) : (s.upFoyer f).frames = s.frames := (rfl)
@[simp] theorem upFoyer_cuts (s : State) (f : Foyer → Foyer) : (s.upFoyer f).cuts = s.cuts := (rfl)
@[simp] theorem upFoyer_retired (s : State) (f : Foyer → Foyer) : (s.upFoyer f).retired = s.retired := (rfl)
@[simp] theorem upFoyer_poolSize (s : State) (f : Foyer → Foyer) : (s.upFoyer f).poolSize = s.poolSize := (rfl)
@[simp] theorem upFoyer_pool (s : State) (f : Foyer → Foyer) : (s.upFoyer f).pool = s.pool := (rfl)
@[simp] theorem upFoyer_copies (s : State) (f : Foyer → Foyer) : (s.upFoyer f).copies = s.copies := (rfl)
@[simp] theorem upFoyer_repairs (s : State) (f : Foyer → Foyer) : (s.upFoyer f).repairs = s.repairs := (rfl)
@[simp] theorem upFoyer_flying (s : State) (f : Foyer → Foyer) : (s.upFoyer f).flying = s.flying := (rfl)
@[simp] theorem upFoyer_waits (s : State) (f : Foyer → Foyer) : (s.upFoyer f).waits = s.waits := (rfl)
@[simp] theorem upFoyer_peerReads (s : State) (f : Foyer → Foyer) : (s.upFoyer f).peerReads = s.peerReads := (rfl)
@[simp] theorem upFoyer_prefetch (s : State) (f : Foyer → Foyer) : (s.upFoyer f).prefetch = s.prefetch := (rfl)
@[simp] theorem upFoyer_chk (s : State) (f : Foyer → Foyer) : (s.upFoyer f).chk = s.chk := (rfl)
@[simp] theorem upFoyer_patrol (s : State) (f : Foyer → Foyer) : (s.upFoyer f).patrol = s.patrol := (rfl)
@[simp] theorem upFoyer_mr4 (s : State) (f : Foyer → Foyer) : (s.upFoyer f).mr4 = s.mr4 := (rfl)
@[simp] theorem upFoyer_useCtr (s : State) (f : Foyer → Foyer) : (s.upFoyer f).useCtr = s.useCtr := (rfl)
@[simp] theorem upFoyer_memUe (s : State) (f : Foyer → Foyer) : (s.upFoyer f).memUe = s.memUe := (rfl)
@[simp] theorem upFoyer_hostOut (s : State) (f : Foyer → Foyer) : (s.upFoyer f).hostOut = s.hostOut := (rfl)
@[simp] theorem upFoyer_coll (s : State) (f : Foyer → Foyer) : (s.upFoyer f).coll = s.coll := (rfl)
@[simp] theorem upFoyer_prot (s : State) (f : Foyer → Foyer) : (s.upFoyer f).prot = s.prot := (rfl)
@[simp] theorem upFoyer_mss (s : State) (f : Foyer → Foyer) : (s.upFoyer f).mss = s.mss := (rfl)
@[simp] theorem upFoyer_power (s : State) (f : Foyer → Foyer) : (s.upFoyer f).power = s.power := (rfl)
@[simp] theorem upFoyer_ports (s : State) (f : Foyer → Foyer) : (s.upFoyer f).ports = s.ports := (rfl)
@[simp] theorem upFoyer_out (s : State) (f : Foyer → Foyer) : (s.upFoyer f).out = s.out := (rfl)
@[simp] theorem upFoyer_evLost (s : State) (f : Foyer → Foyer) : (s.upFoyer f).evLost = s.evLost := (rfl)

@[simp] theorem upMss_mss (s : State) (f : Mss → Mss) : (s.upMss f).mss = f s.mss := (rfl)
@[simp] theorem upMss_pending (s : State) (f : Mss → Mss) : (s.upMss f).pending = s.pending := (rfl)
@[simp] theorem upMss_regs (s : State) (f : Mss → Mss) : (s.upMss f).regs = s.regs := (rfl)
@[simp] theorem upMss_fresh (s : State) (f : Mss → Mss) : (s.upMss f).fresh = s.fresh := (rfl)
@[simp] theorem upMss_now (s : State) (f : Mss → Mss) : (s.upMss f).now = s.now := (rfl)
@[simp] theorem upMss_tiles (s : State) (f : Mss → Mss) : (s.upMss f).tiles = s.tiles := (rfl)
@[simp] theorem upMss_halls (s : State) (f : Mss → Mss) : (s.upMss f).halls = s.halls := (rfl)
@[simp] theorem upMss_parts (s : State) (f : Mss → Mss) : (s.upMss f).parts = s.parts := (rfl)
@[simp] theorem upMss_net (s : State) (f : Mss → Mss) : (s.upMss f).net = s.net := (rfl)
@[simp] theorem upMss_nextPkt (s : State) (f : Mss → Mss) : (s.upMss f).nextPkt = s.nextPkt := (rfl)
@[simp] theorem upMss_ban (s : State) (f : Mss → Mss) : (s.upMss f).ban = s.ban := (rfl)
@[simp] theorem upMss_shares (s : State) (f : Mss → Mss) : (s.upMss f).shares = s.shares := (rfl)
@[simp] theorem upMss_groups (s : State) (f : Mss → Mss) : (s.upMss f).groups = s.groups := (rfl)
@[simp] theorem upMss_peers (s : State) (f : Mss → Mss) : (s.upMss f).peers = s.peers := (rfl)
@[simp] theorem upMss_pageMap (s : State) (f : Mss → Mss) : (s.upMss f).pageMap = s.pageMap := (rfl)
@[simp] theorem upMss_frames (s : State) (f : Mss → Mss) : (s.upMss f).frames = s.frames := (rfl)
@[simp] theorem upMss_cuts (s : State) (f : Mss → Mss) : (s.upMss f).cuts = s.cuts := (rfl)
@[simp] theorem upMss_retired (s : State) (f : Mss → Mss) : (s.upMss f).retired = s.retired := (rfl)
@[simp] theorem upMss_poolSize (s : State) (f : Mss → Mss) : (s.upMss f).poolSize = s.poolSize := (rfl)
@[simp] theorem upMss_pool (s : State) (f : Mss → Mss) : (s.upMss f).pool = s.pool := (rfl)
@[simp] theorem upMss_copies (s : State) (f : Mss → Mss) : (s.upMss f).copies = s.copies := (rfl)
@[simp] theorem upMss_repairs (s : State) (f : Mss → Mss) : (s.upMss f).repairs = s.repairs := (rfl)
@[simp] theorem upMss_flying (s : State) (f : Mss → Mss) : (s.upMss f).flying = s.flying := (rfl)
@[simp] theorem upMss_waits (s : State) (f : Mss → Mss) : (s.upMss f).waits = s.waits := (rfl)
@[simp] theorem upMss_peerReads (s : State) (f : Mss → Mss) : (s.upMss f).peerReads = s.peerReads := (rfl)
@[simp] theorem upMss_prefetch (s : State) (f : Mss → Mss) : (s.upMss f).prefetch = s.prefetch := (rfl)
@[simp] theorem upMss_chk (s : State) (f : Mss → Mss) : (s.upMss f).chk = s.chk := (rfl)
@[simp] theorem upMss_patrol (s : State) (f : Mss → Mss) : (s.upMss f).patrol = s.patrol := (rfl)
@[simp] theorem upMss_mr4 (s : State) (f : Mss → Mss) : (s.upMss f).mr4 = s.mr4 := (rfl)
@[simp] theorem upMss_useCtr (s : State) (f : Mss → Mss) : (s.upMss f).useCtr = s.useCtr := (rfl)
@[simp] theorem upMss_memUe (s : State) (f : Mss → Mss) : (s.upMss f).memUe = s.memUe := (rfl)
@[simp] theorem upMss_hostOut (s : State) (f : Mss → Mss) : (s.upMss f).hostOut = s.hostOut := (rfl)
@[simp] theorem upMss_coll (s : State) (f : Mss → Mss) : (s.upMss f).coll = s.coll := (rfl)
@[simp] theorem upMss_prot (s : State) (f : Mss → Mss) : (s.upMss f).prot = s.prot := (rfl)
@[simp] theorem upMss_foyer (s : State) (f : Mss → Mss) : (s.upMss f).foyer = s.foyer := (rfl)
@[simp] theorem upMss_power (s : State) (f : Mss → Mss) : (s.upMss f).power = s.power := (rfl)
@[simp] theorem upMss_ports (s : State) (f : Mss → Mss) : (s.upMss f).ports = s.ports := (rfl)
@[simp] theorem upMss_out (s : State) (f : Mss → Mss) : (s.upMss f).out = s.out := (rfl)
@[simp] theorem upMss_evLost (s : State) (f : Mss → Mss) : (s.upMss f).evLost = s.evLost := (rfl)

@[simp] theorem setPage_pageMap (s : State) (e : Nat) (v : BitVec 64) : (s.setPage e v).pageMap = Sparse.put 0 s.pageMap e v := (rfl)
@[simp] theorem setPage_pending (s : State) (e : Nat) (v : BitVec 64) : (s.setPage e v).pending = s.pending := (rfl)
@[simp] theorem setPage_regs (s : State) (e : Nat) (v : BitVec 64) : (s.setPage e v).regs = s.regs := (rfl)
@[simp] theorem setPage_fresh (s : State) (e : Nat) (v : BitVec 64) : (s.setPage e v).fresh = s.fresh := (rfl)
@[simp] theorem setPage_now (s : State) (e : Nat) (v : BitVec 64) : (s.setPage e v).now = s.now := (rfl)
@[simp] theorem setPage_tiles (s : State) (e : Nat) (v : BitVec 64) : (s.setPage e v).tiles = s.tiles := (rfl)
@[simp] theorem setPage_halls (s : State) (e : Nat) (v : BitVec 64) : (s.setPage e v).halls = s.halls := (rfl)
@[simp] theorem setPage_parts (s : State) (e : Nat) (v : BitVec 64) : (s.setPage e v).parts = s.parts := (rfl)
@[simp] theorem setPage_net (s : State) (e : Nat) (v : BitVec 64) : (s.setPage e v).net = s.net := (rfl)
@[simp] theorem setPage_nextPkt (s : State) (e : Nat) (v : BitVec 64) : (s.setPage e v).nextPkt = s.nextPkt := (rfl)
@[simp] theorem setPage_ban (s : State) (e : Nat) (v : BitVec 64) : (s.setPage e v).ban = s.ban := (rfl)
@[simp] theorem setPage_shares (s : State) (e : Nat) (v : BitVec 64) : (s.setPage e v).shares = s.shares := (rfl)
@[simp] theorem setPage_groups (s : State) (e : Nat) (v : BitVec 64) : (s.setPage e v).groups = s.groups := (rfl)
@[simp] theorem setPage_peers (s : State) (e : Nat) (v : BitVec 64) : (s.setPage e v).peers = s.peers := (rfl)
@[simp] theorem setPage_frames (s : State) (e : Nat) (v : BitVec 64) : (s.setPage e v).frames = s.frames := (rfl)
@[simp] theorem setPage_cuts (s : State) (e : Nat) (v : BitVec 64) : (s.setPage e v).cuts = s.cuts := (rfl)
@[simp] theorem setPage_retired (s : State) (e : Nat) (v : BitVec 64) : (s.setPage e v).retired = s.retired := (rfl)
@[simp] theorem setPage_poolSize (s : State) (e : Nat) (v : BitVec 64) : (s.setPage e v).poolSize = s.poolSize := (rfl)
@[simp] theorem setPage_pool (s : State) (e : Nat) (v : BitVec 64) : (s.setPage e v).pool = s.pool := (rfl)
@[simp] theorem setPage_copies (s : State) (e : Nat) (v : BitVec 64) : (s.setPage e v).copies = s.copies := (rfl)
@[simp] theorem setPage_repairs (s : State) (e : Nat) (v : BitVec 64) : (s.setPage e v).repairs = s.repairs := (rfl)
@[simp] theorem setPage_flying (s : State) (e : Nat) (v : BitVec 64) : (s.setPage e v).flying = s.flying := (rfl)
@[simp] theorem setPage_waits (s : State) (e : Nat) (v : BitVec 64) : (s.setPage e v).waits = s.waits := (rfl)
@[simp] theorem setPage_peerReads (s : State) (e : Nat) (v : BitVec 64) : (s.setPage e v).peerReads = s.peerReads := (rfl)
@[simp] theorem setPage_prefetch (s : State) (e : Nat) (v : BitVec 64) : (s.setPage e v).prefetch = s.prefetch := (rfl)
@[simp] theorem setPage_chk (s : State) (e : Nat) (v : BitVec 64) : (s.setPage e v).chk = s.chk := (rfl)
@[simp] theorem setPage_patrol (s : State) (e : Nat) (v : BitVec 64) : (s.setPage e v).patrol = s.patrol := (rfl)
@[simp] theorem setPage_mr4 (s : State) (e : Nat) (v : BitVec 64) : (s.setPage e v).mr4 = s.mr4 := (rfl)
@[simp] theorem setPage_useCtr (s : State) (e : Nat) (v : BitVec 64) : (s.setPage e v).useCtr = s.useCtr := (rfl)
@[simp] theorem setPage_memUe (s : State) (e : Nat) (v : BitVec 64) : (s.setPage e v).memUe = s.memUe := (rfl)
@[simp] theorem setPage_hostOut (s : State) (e : Nat) (v : BitVec 64) : (s.setPage e v).hostOut = s.hostOut := (rfl)
@[simp] theorem setPage_coll (s : State) (e : Nat) (v : BitVec 64) : (s.setPage e v).coll = s.coll := (rfl)
@[simp] theorem setPage_prot (s : State) (e : Nat) (v : BitVec 64) : (s.setPage e v).prot = s.prot := (rfl)
@[simp] theorem setPage_foyer (s : State) (e : Nat) (v : BitVec 64) : (s.setPage e v).foyer = s.foyer := (rfl)
@[simp] theorem setPage_mss (s : State) (e : Nat) (v : BitVec 64) : (s.setPage e v).mss = s.mss := (rfl)
@[simp] theorem setPage_power (s : State) (e : Nat) (v : BitVec 64) : (s.setPage e v).power = s.power := (rfl)
@[simp] theorem setPage_ports (s : State) (e : Nat) (v : BitVec 64) : (s.setPage e v).ports = s.ports := (rfl)
@[simp] theorem setPage_out (s : State) (e : Nat) (v : BitVec 64) : (s.setPage e v).out = s.out := (rfl)
@[simp] theorem setPage_evLost (s : State) (e : Nat) (v : BitVec 64) : (s.setPage e v).evLost = s.evLost := (rfl)

@[simp] theorem upPeer_peers (s : State) (ctx : Nat) (f : PeerCtx → PeerCtx) : (s.upPeer ctx f).peers = Sparse.modify s.peers ctx f := (rfl)
@[simp] theorem upPeer_pending (s : State) (ctx : Nat) (f : PeerCtx → PeerCtx) : (s.upPeer ctx f).pending = s.pending := (rfl)
@[simp] theorem upPeer_regs (s : State) (ctx : Nat) (f : PeerCtx → PeerCtx) : (s.upPeer ctx f).regs = s.regs := (rfl)
@[simp] theorem upPeer_fresh (s : State) (ctx : Nat) (f : PeerCtx → PeerCtx) : (s.upPeer ctx f).fresh = s.fresh := (rfl)
@[simp] theorem upPeer_now (s : State) (ctx : Nat) (f : PeerCtx → PeerCtx) : (s.upPeer ctx f).now = s.now := (rfl)
@[simp] theorem upPeer_tiles (s : State) (ctx : Nat) (f : PeerCtx → PeerCtx) : (s.upPeer ctx f).tiles = s.tiles := (rfl)
@[simp] theorem upPeer_halls (s : State) (ctx : Nat) (f : PeerCtx → PeerCtx) : (s.upPeer ctx f).halls = s.halls := (rfl)
@[simp] theorem upPeer_parts (s : State) (ctx : Nat) (f : PeerCtx → PeerCtx) : (s.upPeer ctx f).parts = s.parts := (rfl)
@[simp] theorem upPeer_net (s : State) (ctx : Nat) (f : PeerCtx → PeerCtx) : (s.upPeer ctx f).net = s.net := (rfl)
@[simp] theorem upPeer_nextPkt (s : State) (ctx : Nat) (f : PeerCtx → PeerCtx) : (s.upPeer ctx f).nextPkt = s.nextPkt := (rfl)
@[simp] theorem upPeer_ban (s : State) (ctx : Nat) (f : PeerCtx → PeerCtx) : (s.upPeer ctx f).ban = s.ban := (rfl)
@[simp] theorem upPeer_shares (s : State) (ctx : Nat) (f : PeerCtx → PeerCtx) : (s.upPeer ctx f).shares = s.shares := (rfl)
@[simp] theorem upPeer_groups (s : State) (ctx : Nat) (f : PeerCtx → PeerCtx) : (s.upPeer ctx f).groups = s.groups := (rfl)
@[simp] theorem upPeer_pageMap (s : State) (ctx : Nat) (f : PeerCtx → PeerCtx) : (s.upPeer ctx f).pageMap = s.pageMap := (rfl)
@[simp] theorem upPeer_frames (s : State) (ctx : Nat) (f : PeerCtx → PeerCtx) : (s.upPeer ctx f).frames = s.frames := (rfl)
@[simp] theorem upPeer_cuts (s : State) (ctx : Nat) (f : PeerCtx → PeerCtx) : (s.upPeer ctx f).cuts = s.cuts := (rfl)
@[simp] theorem upPeer_retired (s : State) (ctx : Nat) (f : PeerCtx → PeerCtx) : (s.upPeer ctx f).retired = s.retired := (rfl)
@[simp] theorem upPeer_poolSize (s : State) (ctx : Nat) (f : PeerCtx → PeerCtx) : (s.upPeer ctx f).poolSize = s.poolSize := (rfl)
@[simp] theorem upPeer_pool (s : State) (ctx : Nat) (f : PeerCtx → PeerCtx) : (s.upPeer ctx f).pool = s.pool := (rfl)
@[simp] theorem upPeer_copies (s : State) (ctx : Nat) (f : PeerCtx → PeerCtx) : (s.upPeer ctx f).copies = s.copies := (rfl)
@[simp] theorem upPeer_repairs (s : State) (ctx : Nat) (f : PeerCtx → PeerCtx) : (s.upPeer ctx f).repairs = s.repairs := (rfl)
@[simp] theorem upPeer_flying (s : State) (ctx : Nat) (f : PeerCtx → PeerCtx) : (s.upPeer ctx f).flying = s.flying := (rfl)
@[simp] theorem upPeer_waits (s : State) (ctx : Nat) (f : PeerCtx → PeerCtx) : (s.upPeer ctx f).waits = s.waits := (rfl)
@[simp] theorem upPeer_peerReads (s : State) (ctx : Nat) (f : PeerCtx → PeerCtx) : (s.upPeer ctx f).peerReads = s.peerReads := (rfl)
@[simp] theorem upPeer_prefetch (s : State) (ctx : Nat) (f : PeerCtx → PeerCtx) : (s.upPeer ctx f).prefetch = s.prefetch := (rfl)
@[simp] theorem upPeer_chk (s : State) (ctx : Nat) (f : PeerCtx → PeerCtx) : (s.upPeer ctx f).chk = s.chk := (rfl)
@[simp] theorem upPeer_patrol (s : State) (ctx : Nat) (f : PeerCtx → PeerCtx) : (s.upPeer ctx f).patrol = s.patrol := (rfl)
@[simp] theorem upPeer_mr4 (s : State) (ctx : Nat) (f : PeerCtx → PeerCtx) : (s.upPeer ctx f).mr4 = s.mr4 := (rfl)
@[simp] theorem upPeer_useCtr (s : State) (ctx : Nat) (f : PeerCtx → PeerCtx) : (s.upPeer ctx f).useCtr = s.useCtr := (rfl)
@[simp] theorem upPeer_memUe (s : State) (ctx : Nat) (f : PeerCtx → PeerCtx) : (s.upPeer ctx f).memUe = s.memUe := (rfl)
@[simp] theorem upPeer_hostOut (s : State) (ctx : Nat) (f : PeerCtx → PeerCtx) : (s.upPeer ctx f).hostOut = s.hostOut := (rfl)
@[simp] theorem upPeer_coll (s : State) (ctx : Nat) (f : PeerCtx → PeerCtx) : (s.upPeer ctx f).coll = s.coll := (rfl)
@[simp] theorem upPeer_prot (s : State) (ctx : Nat) (f : PeerCtx → PeerCtx) : (s.upPeer ctx f).prot = s.prot := (rfl)
@[simp] theorem upPeer_foyer (s : State) (ctx : Nat) (f : PeerCtx → PeerCtx) : (s.upPeer ctx f).foyer = s.foyer := (rfl)
@[simp] theorem upPeer_mss (s : State) (ctx : Nat) (f : PeerCtx → PeerCtx) : (s.upPeer ctx f).mss = s.mss := (rfl)
@[simp] theorem upPeer_power (s : State) (ctx : Nat) (f : PeerCtx → PeerCtx) : (s.upPeer ctx f).power = s.power := (rfl)
@[simp] theorem upPeer_ports (s : State) (ctx : Nat) (f : PeerCtx → PeerCtx) : (s.upPeer ctx f).ports = s.ports := (rfl)
@[simp] theorem upPeer_out (s : State) (ctx : Nat) (f : PeerCtx → PeerCtx) : (s.upPeer ctx f).out = s.out := (rfl)
@[simp] theorem upPeer_evLost (s : State) (ctx : Nat) (f : PeerCtx → PeerCtx) : (s.upPeer ctx f).evLost = s.evLost := (rfl)

@[simp] theorem upPf_prefetch (s : State) (p : Nat) (f : Prefetch → Prefetch) : (s.upPf p f).prefetch = Sparse.upd Prefetch.none_ s.prefetch p f := (rfl)
@[simp] theorem upPf_pending (s : State) (p : Nat) (f : Prefetch → Prefetch) : (s.upPf p f).pending = s.pending := (rfl)
@[simp] theorem upPf_regs (s : State) (p : Nat) (f : Prefetch → Prefetch) : (s.upPf p f).regs = s.regs := (rfl)
@[simp] theorem upPf_fresh (s : State) (p : Nat) (f : Prefetch → Prefetch) : (s.upPf p f).fresh = s.fresh := (rfl)
@[simp] theorem upPf_now (s : State) (p : Nat) (f : Prefetch → Prefetch) : (s.upPf p f).now = s.now := (rfl)
@[simp] theorem upPf_tiles (s : State) (p : Nat) (f : Prefetch → Prefetch) : (s.upPf p f).tiles = s.tiles := (rfl)
@[simp] theorem upPf_halls (s : State) (p : Nat) (f : Prefetch → Prefetch) : (s.upPf p f).halls = s.halls := (rfl)
@[simp] theorem upPf_parts (s : State) (p : Nat) (f : Prefetch → Prefetch) : (s.upPf p f).parts = s.parts := (rfl)
@[simp] theorem upPf_net (s : State) (p : Nat) (f : Prefetch → Prefetch) : (s.upPf p f).net = s.net := (rfl)
@[simp] theorem upPf_nextPkt (s : State) (p : Nat) (f : Prefetch → Prefetch) : (s.upPf p f).nextPkt = s.nextPkt := (rfl)
@[simp] theorem upPf_ban (s : State) (p : Nat) (f : Prefetch → Prefetch) : (s.upPf p f).ban = s.ban := (rfl)
@[simp] theorem upPf_shares (s : State) (p : Nat) (f : Prefetch → Prefetch) : (s.upPf p f).shares = s.shares := (rfl)
@[simp] theorem upPf_groups (s : State) (p : Nat) (f : Prefetch → Prefetch) : (s.upPf p f).groups = s.groups := (rfl)
@[simp] theorem upPf_peers (s : State) (p : Nat) (f : Prefetch → Prefetch) : (s.upPf p f).peers = s.peers := (rfl)
@[simp] theorem upPf_pageMap (s : State) (p : Nat) (f : Prefetch → Prefetch) : (s.upPf p f).pageMap = s.pageMap := (rfl)
@[simp] theorem upPf_frames (s : State) (p : Nat) (f : Prefetch → Prefetch) : (s.upPf p f).frames = s.frames := (rfl)
@[simp] theorem upPf_cuts (s : State) (p : Nat) (f : Prefetch → Prefetch) : (s.upPf p f).cuts = s.cuts := (rfl)
@[simp] theorem upPf_retired (s : State) (p : Nat) (f : Prefetch → Prefetch) : (s.upPf p f).retired = s.retired := (rfl)
@[simp] theorem upPf_poolSize (s : State) (p : Nat) (f : Prefetch → Prefetch) : (s.upPf p f).poolSize = s.poolSize := (rfl)
@[simp] theorem upPf_pool (s : State) (p : Nat) (f : Prefetch → Prefetch) : (s.upPf p f).pool = s.pool := (rfl)
@[simp] theorem upPf_copies (s : State) (p : Nat) (f : Prefetch → Prefetch) : (s.upPf p f).copies = s.copies := (rfl)
@[simp] theorem upPf_repairs (s : State) (p : Nat) (f : Prefetch → Prefetch) : (s.upPf p f).repairs = s.repairs := (rfl)
@[simp] theorem upPf_flying (s : State) (p : Nat) (f : Prefetch → Prefetch) : (s.upPf p f).flying = s.flying := (rfl)
@[simp] theorem upPf_waits (s : State) (p : Nat) (f : Prefetch → Prefetch) : (s.upPf p f).waits = s.waits := (rfl)
@[simp] theorem upPf_peerReads (s : State) (p : Nat) (f : Prefetch → Prefetch) : (s.upPf p f).peerReads = s.peerReads := (rfl)
@[simp] theorem upPf_chk (s : State) (p : Nat) (f : Prefetch → Prefetch) : (s.upPf p f).chk = s.chk := (rfl)
@[simp] theorem upPf_patrol (s : State) (p : Nat) (f : Prefetch → Prefetch) : (s.upPf p f).patrol = s.patrol := (rfl)
@[simp] theorem upPf_mr4 (s : State) (p : Nat) (f : Prefetch → Prefetch) : (s.upPf p f).mr4 = s.mr4 := (rfl)
@[simp] theorem upPf_useCtr (s : State) (p : Nat) (f : Prefetch → Prefetch) : (s.upPf p f).useCtr = s.useCtr := (rfl)
@[simp] theorem upPf_memUe (s : State) (p : Nat) (f : Prefetch → Prefetch) : (s.upPf p f).memUe = s.memUe := (rfl)
@[simp] theorem upPf_hostOut (s : State) (p : Nat) (f : Prefetch → Prefetch) : (s.upPf p f).hostOut = s.hostOut := (rfl)
@[simp] theorem upPf_coll (s : State) (p : Nat) (f : Prefetch → Prefetch) : (s.upPf p f).coll = s.coll := (rfl)
@[simp] theorem upPf_prot (s : State) (p : Nat) (f : Prefetch → Prefetch) : (s.upPf p f).prot = s.prot := (rfl)
@[simp] theorem upPf_foyer (s : State) (p : Nat) (f : Prefetch → Prefetch) : (s.upPf p f).foyer = s.foyer := (rfl)
@[simp] theorem upPf_mss (s : State) (p : Nat) (f : Prefetch → Prefetch) : (s.upPf p f).mss = s.mss := (rfl)
@[simp] theorem upPf_power (s : State) (p : Nat) (f : Prefetch → Prefetch) : (s.upPf p f).power = s.power := (rfl)
@[simp] theorem upPf_ports (s : State) (p : Nat) (f : Prefetch → Prefetch) : (s.upPf p f).ports = s.ports := (rfl)
@[simp] theorem upPf_out (s : State) (p : Nat) (f : Prefetch → Prefetch) : (s.upPf p f).out = s.out := (rfl)
@[simp] theorem upPf_evLost (s : State) (p : Nat) (f : Prefetch → Prefetch) : (s.upPf p f).evLost = s.evLost := (rfl)

@[simp] theorem upProt_prot (s : State) (p : Nat) (f : Prot → Prot) : (s.upProt p f).prot = Sparse.upd Prot.empty s.prot p f := (rfl)
@[simp] theorem upProt_pending (s : State) (p : Nat) (f : Prot → Prot) : (s.upProt p f).pending = s.pending := (rfl)
@[simp] theorem upProt_regs (s : State) (p : Nat) (f : Prot → Prot) : (s.upProt p f).regs = s.regs := (rfl)
@[simp] theorem upProt_fresh (s : State) (p : Nat) (f : Prot → Prot) : (s.upProt p f).fresh = s.fresh := (rfl)
@[simp] theorem upProt_now (s : State) (p : Nat) (f : Prot → Prot) : (s.upProt p f).now = s.now := (rfl)
@[simp] theorem upProt_tiles (s : State) (p : Nat) (f : Prot → Prot) : (s.upProt p f).tiles = s.tiles := (rfl)
@[simp] theorem upProt_halls (s : State) (p : Nat) (f : Prot → Prot) : (s.upProt p f).halls = s.halls := (rfl)
@[simp] theorem upProt_parts (s : State) (p : Nat) (f : Prot → Prot) : (s.upProt p f).parts = s.parts := (rfl)
@[simp] theorem upProt_net (s : State) (p : Nat) (f : Prot → Prot) : (s.upProt p f).net = s.net := (rfl)
@[simp] theorem upProt_nextPkt (s : State) (p : Nat) (f : Prot → Prot) : (s.upProt p f).nextPkt = s.nextPkt := (rfl)
@[simp] theorem upProt_ban (s : State) (p : Nat) (f : Prot → Prot) : (s.upProt p f).ban = s.ban := (rfl)
@[simp] theorem upProt_shares (s : State) (p : Nat) (f : Prot → Prot) : (s.upProt p f).shares = s.shares := (rfl)
@[simp] theorem upProt_groups (s : State) (p : Nat) (f : Prot → Prot) : (s.upProt p f).groups = s.groups := (rfl)
@[simp] theorem upProt_peers (s : State) (p : Nat) (f : Prot → Prot) : (s.upProt p f).peers = s.peers := (rfl)
@[simp] theorem upProt_pageMap (s : State) (p : Nat) (f : Prot → Prot) : (s.upProt p f).pageMap = s.pageMap := (rfl)
@[simp] theorem upProt_frames (s : State) (p : Nat) (f : Prot → Prot) : (s.upProt p f).frames = s.frames := (rfl)
@[simp] theorem upProt_cuts (s : State) (p : Nat) (f : Prot → Prot) : (s.upProt p f).cuts = s.cuts := (rfl)
@[simp] theorem upProt_retired (s : State) (p : Nat) (f : Prot → Prot) : (s.upProt p f).retired = s.retired := (rfl)
@[simp] theorem upProt_poolSize (s : State) (p : Nat) (f : Prot → Prot) : (s.upProt p f).poolSize = s.poolSize := (rfl)
@[simp] theorem upProt_pool (s : State) (p : Nat) (f : Prot → Prot) : (s.upProt p f).pool = s.pool := (rfl)
@[simp] theorem upProt_copies (s : State) (p : Nat) (f : Prot → Prot) : (s.upProt p f).copies = s.copies := (rfl)
@[simp] theorem upProt_repairs (s : State) (p : Nat) (f : Prot → Prot) : (s.upProt p f).repairs = s.repairs := (rfl)
@[simp] theorem upProt_flying (s : State) (p : Nat) (f : Prot → Prot) : (s.upProt p f).flying = s.flying := (rfl)
@[simp] theorem upProt_waits (s : State) (p : Nat) (f : Prot → Prot) : (s.upProt p f).waits = s.waits := (rfl)
@[simp] theorem upProt_peerReads (s : State) (p : Nat) (f : Prot → Prot) : (s.upProt p f).peerReads = s.peerReads := (rfl)
@[simp] theorem upProt_prefetch (s : State) (p : Nat) (f : Prot → Prot) : (s.upProt p f).prefetch = s.prefetch := (rfl)
@[simp] theorem upProt_chk (s : State) (p : Nat) (f : Prot → Prot) : (s.upProt p f).chk = s.chk := (rfl)
@[simp] theorem upProt_patrol (s : State) (p : Nat) (f : Prot → Prot) : (s.upProt p f).patrol = s.patrol := (rfl)
@[simp] theorem upProt_mr4 (s : State) (p : Nat) (f : Prot → Prot) : (s.upProt p f).mr4 = s.mr4 := (rfl)
@[simp] theorem upProt_useCtr (s : State) (p : Nat) (f : Prot → Prot) : (s.upProt p f).useCtr = s.useCtr := (rfl)
@[simp] theorem upProt_memUe (s : State) (p : Nat) (f : Prot → Prot) : (s.upProt p f).memUe = s.memUe := (rfl)
@[simp] theorem upProt_hostOut (s : State) (p : Nat) (f : Prot → Prot) : (s.upProt p f).hostOut = s.hostOut := (rfl)
@[simp] theorem upProt_coll (s : State) (p : Nat) (f : Prot → Prot) : (s.upProt p f).coll = s.coll := (rfl)
@[simp] theorem upProt_foyer (s : State) (p : Nat) (f : Prot → Prot) : (s.upProt p f).foyer = s.foyer := (rfl)
@[simp] theorem upProt_mss (s : State) (p : Nat) (f : Prot → Prot) : (s.upProt p f).mss = s.mss := (rfl)
@[simp] theorem upProt_power (s : State) (p : Nat) (f : Prot → Prot) : (s.upProt p f).power = s.power := (rfl)
@[simp] theorem upProt_ports (s : State) (p : Nat) (f : Prot → Prot) : (s.upProt p f).ports = s.ports := (rfl)
@[simp] theorem upProt_out (s : State) (p : Nat) (f : Prot → Prot) : (s.upProt p f).out = s.out := (rfl)
@[simp] theorem upProt_evLost (s : State) (p : Nat) (f : Prot → Prot) : (s.upProt p f).evLost = s.evLost := (rfl)

@[simp] theorem upTile_tiles (s : State) (n : Nat) (f : Tile → Tile) : (s.upTile n f).tiles = Sparse.put Tile.free s.tiles n (f (s.tile n)) := (rfl)
@[simp] theorem upTile_pending (s : State) (n : Nat) (f : Tile → Tile) : (s.upTile n f).pending = s.pending := (rfl)
@[simp] theorem upTile_regs (s : State) (n : Nat) (f : Tile → Tile) : (s.upTile n f).regs = s.regs := (rfl)
@[simp] theorem upTile_fresh (s : State) (n : Nat) (f : Tile → Tile) : (s.upTile n f).fresh = s.fresh := (rfl)
@[simp] theorem upTile_now (s : State) (n : Nat) (f : Tile → Tile) : (s.upTile n f).now = s.now := (rfl)
@[simp] theorem upTile_halls (s : State) (n : Nat) (f : Tile → Tile) : (s.upTile n f).halls = s.halls := (rfl)
@[simp] theorem upTile_parts (s : State) (n : Nat) (f : Tile → Tile) : (s.upTile n f).parts = s.parts := (rfl)
@[simp] theorem upTile_net (s : State) (n : Nat) (f : Tile → Tile) : (s.upTile n f).net = s.net := (rfl)
@[simp] theorem upTile_nextPkt (s : State) (n : Nat) (f : Tile → Tile) : (s.upTile n f).nextPkt = s.nextPkt := (rfl)
@[simp] theorem upTile_ban (s : State) (n : Nat) (f : Tile → Tile) : (s.upTile n f).ban = s.ban := (rfl)
@[simp] theorem upTile_shares (s : State) (n : Nat) (f : Tile → Tile) : (s.upTile n f).shares = s.shares := (rfl)
@[simp] theorem upTile_groups (s : State) (n : Nat) (f : Tile → Tile) : (s.upTile n f).groups = s.groups := (rfl)
@[simp] theorem upTile_peers (s : State) (n : Nat) (f : Tile → Tile) : (s.upTile n f).peers = s.peers := (rfl)
@[simp] theorem upTile_pageMap (s : State) (n : Nat) (f : Tile → Tile) : (s.upTile n f).pageMap = s.pageMap := (rfl)
@[simp] theorem upTile_frames (s : State) (n : Nat) (f : Tile → Tile) : (s.upTile n f).frames = s.frames := (rfl)
@[simp] theorem upTile_cuts (s : State) (n : Nat) (f : Tile → Tile) : (s.upTile n f).cuts = s.cuts := (rfl)
@[simp] theorem upTile_retired (s : State) (n : Nat) (f : Tile → Tile) : (s.upTile n f).retired = s.retired := (rfl)
@[simp] theorem upTile_poolSize (s : State) (n : Nat) (f : Tile → Tile) : (s.upTile n f).poolSize = s.poolSize := (rfl)
@[simp] theorem upTile_pool (s : State) (n : Nat) (f : Tile → Tile) : (s.upTile n f).pool = s.pool := (rfl)
@[simp] theorem upTile_copies (s : State) (n : Nat) (f : Tile → Tile) : (s.upTile n f).copies = s.copies := (rfl)
@[simp] theorem upTile_repairs (s : State) (n : Nat) (f : Tile → Tile) : (s.upTile n f).repairs = s.repairs := (rfl)
@[simp] theorem upTile_flying (s : State) (n : Nat) (f : Tile → Tile) : (s.upTile n f).flying = s.flying := (rfl)
@[simp] theorem upTile_waits (s : State) (n : Nat) (f : Tile → Tile) : (s.upTile n f).waits = s.waits := (rfl)
@[simp] theorem upTile_peerReads (s : State) (n : Nat) (f : Tile → Tile) : (s.upTile n f).peerReads = s.peerReads := (rfl)
@[simp] theorem upTile_prefetch (s : State) (n : Nat) (f : Tile → Tile) : (s.upTile n f).prefetch = s.prefetch := (rfl)
@[simp] theorem upTile_chk (s : State) (n : Nat) (f : Tile → Tile) : (s.upTile n f).chk = s.chk := (rfl)
@[simp] theorem upTile_patrol (s : State) (n : Nat) (f : Tile → Tile) : (s.upTile n f).patrol = s.patrol := (rfl)
@[simp] theorem upTile_mr4 (s : State) (n : Nat) (f : Tile → Tile) : (s.upTile n f).mr4 = s.mr4 := (rfl)
@[simp] theorem upTile_useCtr (s : State) (n : Nat) (f : Tile → Tile) : (s.upTile n f).useCtr = s.useCtr := (rfl)
@[simp] theorem upTile_memUe (s : State) (n : Nat) (f : Tile → Tile) : (s.upTile n f).memUe = s.memUe := (rfl)
@[simp] theorem upTile_hostOut (s : State) (n : Nat) (f : Tile → Tile) : (s.upTile n f).hostOut = s.hostOut := (rfl)
@[simp] theorem upTile_coll (s : State) (n : Nat) (f : Tile → Tile) : (s.upTile n f).coll = s.coll := (rfl)
@[simp] theorem upTile_prot (s : State) (n : Nat) (f : Tile → Tile) : (s.upTile n f).prot = s.prot := (rfl)
@[simp] theorem upTile_foyer (s : State) (n : Nat) (f : Tile → Tile) : (s.upTile n f).foyer = s.foyer := (rfl)
@[simp] theorem upTile_mss (s : State) (n : Nat) (f : Tile → Tile) : (s.upTile n f).mss = s.mss := (rfl)
@[simp] theorem upTile_power (s : State) (n : Nat) (f : Tile → Tile) : (s.upTile n f).power = s.power := (rfl)
@[simp] theorem upTile_ports (s : State) (n : Nat) (f : Tile → Tile) : (s.upTile n f).ports = s.ports := (rfl)
@[simp] theorem upTile_out (s : State) (n : Nat) (f : Tile → Tile) : (s.upTile n f).out = s.out := (rfl)
@[simp] theorem upTile_evLost (s : State) (n : Nat) (f : Tile → Tile) : (s.upTile n f).evLost = s.evLost := (rfl)

@[simp] theorem upHall_halls (s : State) (h : Nat) (f : Hall → Hall) : (s.upHall h f).halls = Sparse.put Hall.free s.halls h (f (s.hall h)) := (rfl)
@[simp] theorem upHall_pending (s : State) (h : Nat) (f : Hall → Hall) : (s.upHall h f).pending = s.pending := (rfl)
@[simp] theorem upHall_regs (s : State) (h : Nat) (f : Hall → Hall) : (s.upHall h f).regs = s.regs := (rfl)
@[simp] theorem upHall_fresh (s : State) (h : Nat) (f : Hall → Hall) : (s.upHall h f).fresh = s.fresh := (rfl)
@[simp] theorem upHall_now (s : State) (h : Nat) (f : Hall → Hall) : (s.upHall h f).now = s.now := (rfl)
@[simp] theorem upHall_tiles (s : State) (h : Nat) (f : Hall → Hall) : (s.upHall h f).tiles = s.tiles := (rfl)
@[simp] theorem upHall_parts (s : State) (h : Nat) (f : Hall → Hall) : (s.upHall h f).parts = s.parts := (rfl)
@[simp] theorem upHall_net (s : State) (h : Nat) (f : Hall → Hall) : (s.upHall h f).net = s.net := (rfl)
@[simp] theorem upHall_nextPkt (s : State) (h : Nat) (f : Hall → Hall) : (s.upHall h f).nextPkt = s.nextPkt := (rfl)
@[simp] theorem upHall_ban (s : State) (h : Nat) (f : Hall → Hall) : (s.upHall h f).ban = s.ban := (rfl)
@[simp] theorem upHall_shares (s : State) (h : Nat) (f : Hall → Hall) : (s.upHall h f).shares = s.shares := (rfl)
@[simp] theorem upHall_groups (s : State) (h : Nat) (f : Hall → Hall) : (s.upHall h f).groups = s.groups := (rfl)
@[simp] theorem upHall_peers (s : State) (h : Nat) (f : Hall → Hall) : (s.upHall h f).peers = s.peers := (rfl)
@[simp] theorem upHall_pageMap (s : State) (h : Nat) (f : Hall → Hall) : (s.upHall h f).pageMap = s.pageMap := (rfl)
@[simp] theorem upHall_frames (s : State) (h : Nat) (f : Hall → Hall) : (s.upHall h f).frames = s.frames := (rfl)
@[simp] theorem upHall_cuts (s : State) (h : Nat) (f : Hall → Hall) : (s.upHall h f).cuts = s.cuts := (rfl)
@[simp] theorem upHall_retired (s : State) (h : Nat) (f : Hall → Hall) : (s.upHall h f).retired = s.retired := (rfl)
@[simp] theorem upHall_poolSize (s : State) (h : Nat) (f : Hall → Hall) : (s.upHall h f).poolSize = s.poolSize := (rfl)
@[simp] theorem upHall_pool (s : State) (h : Nat) (f : Hall → Hall) : (s.upHall h f).pool = s.pool := (rfl)
@[simp] theorem upHall_copies (s : State) (h : Nat) (f : Hall → Hall) : (s.upHall h f).copies = s.copies := (rfl)
@[simp] theorem upHall_repairs (s : State) (h : Nat) (f : Hall → Hall) : (s.upHall h f).repairs = s.repairs := (rfl)
@[simp] theorem upHall_flying (s : State) (h : Nat) (f : Hall → Hall) : (s.upHall h f).flying = s.flying := (rfl)
@[simp] theorem upHall_waits (s : State) (h : Nat) (f : Hall → Hall) : (s.upHall h f).waits = s.waits := (rfl)
@[simp] theorem upHall_peerReads (s : State) (h : Nat) (f : Hall → Hall) : (s.upHall h f).peerReads = s.peerReads := (rfl)
@[simp] theorem upHall_prefetch (s : State) (h : Nat) (f : Hall → Hall) : (s.upHall h f).prefetch = s.prefetch := (rfl)
@[simp] theorem upHall_chk (s : State) (h : Nat) (f : Hall → Hall) : (s.upHall h f).chk = s.chk := (rfl)
@[simp] theorem upHall_patrol (s : State) (h : Nat) (f : Hall → Hall) : (s.upHall h f).patrol = s.patrol := (rfl)
@[simp] theorem upHall_mr4 (s : State) (h : Nat) (f : Hall → Hall) : (s.upHall h f).mr4 = s.mr4 := (rfl)
@[simp] theorem upHall_useCtr (s : State) (h : Nat) (f : Hall → Hall) : (s.upHall h f).useCtr = s.useCtr := (rfl)
@[simp] theorem upHall_memUe (s : State) (h : Nat) (f : Hall → Hall) : (s.upHall h f).memUe = s.memUe := (rfl)
@[simp] theorem upHall_hostOut (s : State) (h : Nat) (f : Hall → Hall) : (s.upHall h f).hostOut = s.hostOut := (rfl)
@[simp] theorem upHall_coll (s : State) (h : Nat) (f : Hall → Hall) : (s.upHall h f).coll = s.coll := (rfl)
@[simp] theorem upHall_prot (s : State) (h : Nat) (f : Hall → Hall) : (s.upHall h f).prot = s.prot := (rfl)
@[simp] theorem upHall_foyer (s : State) (h : Nat) (f : Hall → Hall) : (s.upHall h f).foyer = s.foyer := (rfl)
@[simp] theorem upHall_mss (s : State) (h : Nat) (f : Hall → Hall) : (s.upHall h f).mss = s.mss := (rfl)
@[simp] theorem upHall_power (s : State) (h : Nat) (f : Hall → Hall) : (s.upHall h f).power = s.power := (rfl)
@[simp] theorem upHall_ports (s : State) (h : Nat) (f : Hall → Hall) : (s.upHall h f).ports = s.ports := (rfl)
@[simp] theorem upHall_out (s : State) (h : Nat) (f : Hall → Hall) : (s.upHall h f).out = s.out := (rfl)
@[simp] theorem upHall_evLost (s : State) (h : Nat) (f : Hall → Hall) : (s.upHall h f).evLost = s.evLost := (rfl)

@[simp] theorem upQp_foyer (s : State) (q : Nat) (f : Qp → Qp) : (s.upQp q f).foyer = { s.foyer with qps := Sparse.modify s.foyer.qps q f } := (rfl)
@[simp] theorem upQp_pending (s : State) (q : Nat) (f : Qp → Qp) : (s.upQp q f).pending = s.pending := (rfl)
@[simp] theorem upQp_regs (s : State) (q : Nat) (f : Qp → Qp) : (s.upQp q f).regs = s.regs := (rfl)
@[simp] theorem upQp_fresh (s : State) (q : Nat) (f : Qp → Qp) : (s.upQp q f).fresh = s.fresh := (rfl)
@[simp] theorem upQp_now (s : State) (q : Nat) (f : Qp → Qp) : (s.upQp q f).now = s.now := (rfl)
@[simp] theorem upQp_tiles (s : State) (q : Nat) (f : Qp → Qp) : (s.upQp q f).tiles = s.tiles := (rfl)
@[simp] theorem upQp_halls (s : State) (q : Nat) (f : Qp → Qp) : (s.upQp q f).halls = s.halls := (rfl)
@[simp] theorem upQp_parts (s : State) (q : Nat) (f : Qp → Qp) : (s.upQp q f).parts = s.parts := (rfl)
@[simp] theorem upQp_net (s : State) (q : Nat) (f : Qp → Qp) : (s.upQp q f).net = s.net := (rfl)
@[simp] theorem upQp_nextPkt (s : State) (q : Nat) (f : Qp → Qp) : (s.upQp q f).nextPkt = s.nextPkt := (rfl)
@[simp] theorem upQp_ban (s : State) (q : Nat) (f : Qp → Qp) : (s.upQp q f).ban = s.ban := (rfl)
@[simp] theorem upQp_shares (s : State) (q : Nat) (f : Qp → Qp) : (s.upQp q f).shares = s.shares := (rfl)
@[simp] theorem upQp_groups (s : State) (q : Nat) (f : Qp → Qp) : (s.upQp q f).groups = s.groups := (rfl)
@[simp] theorem upQp_peers (s : State) (q : Nat) (f : Qp → Qp) : (s.upQp q f).peers = s.peers := (rfl)
@[simp] theorem upQp_pageMap (s : State) (q : Nat) (f : Qp → Qp) : (s.upQp q f).pageMap = s.pageMap := (rfl)
@[simp] theorem upQp_frames (s : State) (q : Nat) (f : Qp → Qp) : (s.upQp q f).frames = s.frames := (rfl)
@[simp] theorem upQp_cuts (s : State) (q : Nat) (f : Qp → Qp) : (s.upQp q f).cuts = s.cuts := (rfl)
@[simp] theorem upQp_retired (s : State) (q : Nat) (f : Qp → Qp) : (s.upQp q f).retired = s.retired := (rfl)
@[simp] theorem upQp_poolSize (s : State) (q : Nat) (f : Qp → Qp) : (s.upQp q f).poolSize = s.poolSize := (rfl)
@[simp] theorem upQp_pool (s : State) (q : Nat) (f : Qp → Qp) : (s.upQp q f).pool = s.pool := (rfl)
@[simp] theorem upQp_copies (s : State) (q : Nat) (f : Qp → Qp) : (s.upQp q f).copies = s.copies := (rfl)
@[simp] theorem upQp_repairs (s : State) (q : Nat) (f : Qp → Qp) : (s.upQp q f).repairs = s.repairs := (rfl)
@[simp] theorem upQp_flying (s : State) (q : Nat) (f : Qp → Qp) : (s.upQp q f).flying = s.flying := (rfl)
@[simp] theorem upQp_waits (s : State) (q : Nat) (f : Qp → Qp) : (s.upQp q f).waits = s.waits := (rfl)
@[simp] theorem upQp_peerReads (s : State) (q : Nat) (f : Qp → Qp) : (s.upQp q f).peerReads = s.peerReads := (rfl)
@[simp] theorem upQp_prefetch (s : State) (q : Nat) (f : Qp → Qp) : (s.upQp q f).prefetch = s.prefetch := (rfl)
@[simp] theorem upQp_chk (s : State) (q : Nat) (f : Qp → Qp) : (s.upQp q f).chk = s.chk := (rfl)
@[simp] theorem upQp_patrol (s : State) (q : Nat) (f : Qp → Qp) : (s.upQp q f).patrol = s.patrol := (rfl)
@[simp] theorem upQp_mr4 (s : State) (q : Nat) (f : Qp → Qp) : (s.upQp q f).mr4 = s.mr4 := (rfl)
@[simp] theorem upQp_useCtr (s : State) (q : Nat) (f : Qp → Qp) : (s.upQp q f).useCtr = s.useCtr := (rfl)
@[simp] theorem upQp_memUe (s : State) (q : Nat) (f : Qp → Qp) : (s.upQp q f).memUe = s.memUe := (rfl)
@[simp] theorem upQp_hostOut (s : State) (q : Nat) (f : Qp → Qp) : (s.upQp q f).hostOut = s.hostOut := (rfl)
@[simp] theorem upQp_coll (s : State) (q : Nat) (f : Qp → Qp) : (s.upQp q f).coll = s.coll := (rfl)
@[simp] theorem upQp_prot (s : State) (q : Nat) (f : Qp → Qp) : (s.upQp q f).prot = s.prot := (rfl)
@[simp] theorem upQp_mss (s : State) (q : Nat) (f : Qp → Qp) : (s.upQp q f).mss = s.mss := (rfl)
@[simp] theorem upQp_power (s : State) (q : Nat) (f : Qp → Qp) : (s.upQp q f).power = s.power := (rfl)
@[simp] theorem upQp_ports (s : State) (q : Nat) (f : Qp → Qp) : (s.upQp q f).ports = s.ports := (rfl)
@[simp] theorem upQp_out (s : State) (q : Nat) (f : Qp → Qp) : (s.upQp q f).out = s.out := (rfl)
@[simp] theorem upQp_evLost (s : State) (q : Nat) (f : Qp → Qp) : (s.upQp q f).evLost = s.evLost := (rfl)

end Sys2Proof.Machine.State
end

