-- ==== Sys2Proof/Laws/Tiles.lean ====
section
/-! SUPPORT. Tiles, halls and partitions through the shared operations: what an update changes, what it leaves, and which operations leave every tile as it was. -/

namespace Sys2Proof.Machine.State

/-! Updates. -/

theorem tile_upTile (s : State) (n : Nat) (f : Tile → Tile) (m : Nat) : (s.upTile n f).tile m = if m = n then f (s.tile n) else s.tile m := Sparse.get_put _ _ _ _ _
@[simp] theorem tile_upTile_same (s : State) (n : Nat) (f : Tile → Tile) : (s.upTile n f).tile n = f (s.tile n) := by simp [tile_upTile]
theorem tile_upTile_ne (s : State) {n m : Nat} (f : Tile → Tile) (h : m ≠ n) : (s.upTile n f).tile m = s.tile m := by simp [tile_upTile, h]
theorem hall_upHall (s : State) (n : Nat) (f : Hall → Hall) (m : Nat) : (s.upHall n f).hall m = if m = n then f (s.hall n) else s.hall m := Sparse.get_put _ _ _ _ _
@[simp] theorem hall_upHall_same (s : State) (n : Nat) (f : Hall → Hall) : (s.upHall n f).hall n = f (s.hall n) := by simp [hall_upHall]
theorem hall_upHall_ne (s : State) {n m : Nat} (f : Hall → Hall) (h : m ≠ n) : (s.upHall n f).hall m = s.hall m := by simp [hall_upHall, h]
@[simp] theorem g_upTile (s : State) (n : Nat) (f : Tile → Tile) (x : Fld) (u i : Nat) : (s.upTile n f).g x u i = s.g x u i := (rfl)
@[simp] theorem g_upHall (s : State) (n : Nat) (f : Hall → Hall) (x : Fld) (u i : Nat) : (s.upHall n f).g x u i = s.g x u i := (rfl)
@[simp] theorem g_upPart (s : State) (n : Nat) (f : Part → Part) (x : Fld) (u i : Nat) : (s.upPart n f).g x u i = s.g x u i := (rfl)
@[simp] theorem g_upFoyer (s : State) (f : Foyer → Foyer) (x : Fld) (u i : Nat) : (s.upFoyer f).g x u i = s.g x u i := (rfl)
@[simp] theorem g_upMss (s : State) (f : Mss → Mss) (x : Fld) (u i : Nat) : (s.upMss f).g x u i = s.g x u i := (rfl)
@[simp] theorem g_emit (s : State) (o : Output) (x : Fld) (u i : Nat) : (s.emit o).g x u i = s.g x u i := (rfl)
@[simp] theorem g_upQp (s : State) (q : Nat) (f : Qp → Qp) (x : Fld) (u i : Nat) : (s.upQp q f).g x u i = s.g x u i := (rfl)
@[simp] theorem g_upCtx (s : State) (n c : Nat) (f : Ctx → Ctx) (x : Fld) (u i : Nat) : (s.upCtx n c f).g x u i = s.g x u i := (rfl)
@[simp] theorem g_setPc (s : State) (n c pc : Nat) (x : Fld) (u i : Nat) : (s.setPc n c pc).g x u i = s.g x u i := (rfl)
@[simp] theorem g_setWait (s : State) (n c : Nat) (w : Wait) (x : Fld) (u i : Nat) : (s.setWait n c w).g x u i = s.g x u i := (rfl)
@[simp] theorem g_setSreg (s : State) (n c i : Nat) (v : Half) (x : Fld) (u k : Nat) : (s.setSreg n c i v).g x u k = s.g x u k := (rfl)
@[simp] theorem g_setPred (s : State) (n c i : Nat) (b : Bool) (x : Fld) (u k : Nat) : (s.setPred n c i b).g x u k = s.g x u k := (rfl)

/-! What leaves every tile as it was. -/

/-- Every tile is as it was: what an operation on other state leaves. -/
theorem tile_of_tiles {s t : State} (h : t.tiles = s.tiles) (n : Nat) : t.tile n = s.tile n := by simp [State.tile, h]
@[simp] theorem tile_w (s : State) (f : Fld) (u i x n : Nat) : (s.w f u i x).tile n = s.tile n := (rfl)
@[simp] theorem tile_inc (s : State) (f : Fld) (u i x n : Nat) : (s.inc f u i x).tile n = s.tile n := (rfl)
@[simp] theorem tile_wreg (s : State) (r : Reg) (u i : Nat) (v : BitVec 64) (n : Nat) : (s.wreg r u i v).tile n = s.tile n := (rfl)
@[simp] theorem tile_upHall (s : State) (h : Nat) (f : Hall → Hall) (n : Nat) : (s.upHall h f).tile n = s.tile n := (rfl)
@[simp] theorem tile_upPart (s : State) (p : Nat) (f : Part → Part) (n : Nat) : (s.upPart p f).tile n = s.tile n := (rfl)
@[simp] theorem tile_upFoyer (s : State) (f : Foyer → Foyer) (n : Nat) : (s.upFoyer f).tile n = s.tile n := (rfl)
@[simp] theorem tile_upMss (s : State) (f : Mss → Mss) (n : Nat) : (s.upMss f).tile n = s.tile n := (rfl)
@[simp] theorem tile_emit (s : State) (o : Output) (n : Nat) : (s.emit o).tile n = s.tile n := (rfl)
@[simp] theorem tile_upQp (s : State) (q : Nat) (f : Qp → Qp) (n : Nat) : (s.upQp q f).tile n = s.tile n := (rfl)

end Sys2Proof.Machine.State
end

