-- ==== Sys2Proof/Laws/Reports.lean ====
section
/-! SUPPORT. The shared operations that report (events, completions, log records, the ends of launches and programs) leave all but what `State.Reports` names. -/

namespace Sys2Proof.Machine

namespace State

theorem Reports.rfl {s : State} : Reports s s := ⟨Eq.refl _, fun _ _ _ _ => Eq.refl _⟩

/-- A change of the fields that reports may change. -/
theorem upMss_reports {s t : State} (f : Mss → Mss) (h : Reports s t) : Reports s (t.upMss f) := h
theorem upFoyer_reports {s t : State} (f : Foyer → Foyer) (h : Reports s t) : Reports s (t.upFoyer f) := h
theorem upQp_reports {s t : State} (q : Nat) (f : Qp → Qp) (h : Reports s t) : Reports s (t.upQp q f) := h
theorem upPart_reports {s t : State} (p : Nat) (f : Part → Part) (h : Reports s t) : Reports s (t.upPart p f) := h
theorem emit_reports {s t : State} (o : Output) (h : Reports s t) : Reports s (t.emit o) := h
theorem lost_reports {s t : State} (l : Sparse Nat) (h : Reports s t) : Reports s { t with evLost := l } := h
theorem w_reports {s t : State} (f : Fld) (u i x : Nat) (hu : f.reg.unit.reporting = true) (h : Reports s t) : Reports s (t.w f u i x) :=
  ⟨h.1, fun r v j hr => (rd_w_key t f r u i x v j (key_ne_of_unit (fun e => by rw [e, hu] at hr; cases hr) v j u i)).trans (h.2 r v j hr)⟩
theorem inc_reports {s t : State} (f : Fld) (u i x : Nat) (hu : f.reg.unit.reporting = true) (h : Reports s t) : Reports s (t.inc f u i x) :=
  ⟨h.1, fun r v j hr => (rd_inc_key t f r u i x v j (key_ne_of_unit (fun e => by rw [e, hu] at hr; cases hr) v j u i)).trans (h.2 r v j hr)⟩
theorem wreg_reports {s t : State} (r : Reg) (u i : Nat) (v : BitVec 64) (hu : r.unit.reporting = true) (h : Reports s t) : Reports s (t.wreg r u i v) :=
  ⟨h.1, fun r' v' j hr => (rd_wreg_key t r r' u i v v' j (key_ne_of_unit (fun e => by rw [e, hu] at hr; cases hr) v' j u i)).trans (h.2 r' v' j hr)⟩
theorem ite_reports {s a b : State} {c : Prop} [Decidable c] (ha : Reports s a) (hb : Reports s b) : Reports s (if c then a else b) := by
  split
  · exact ha
  · exact hb

theorem hostTx_reports {s t : State} (p k : Nat) (o : Output) (h : Reports s t) : Reports s (State.hostTx t p k o) := by
  unfold State.hostTx
  try dsimp only
  repeat' first
    | with_reducible assumption
    | rfl
    | with_reducible apply emit_reports
    | with_reducible apply inc_reports
    | with_reducible apply ite_reports
    | split

theorem foldl_reports {α : Type} {s : State} (f : State → α → State) (as : List α) (hf : ∀ t a, Reports s t → Reports s (f t a)) {t : State} (h : Reports s t) : Reports s (as.foldl f t) := by
  induction as generalizing t with
  | nil => exact h
  | cons a as ih => exact ih (hf t a h)
theorem qpPump_reports {s t : State} (n : Nat) (h : Reports s t) : Reports s (State.qpPump t n) := by
  unfold State.qpPump
  split
  · exact h
  · next q _ =>
    refine upQp_reports _ _ (foldl_reports _ _ (fun u x hu => ?_) (foldl_reports _ _ (fun u x hu => hostTx_reports _ _ _ hu) h))
    split
    · exact hu
    · exact hostTx_reports _ _ _ hu

theorem hostOp_reports {s t : State} (hb k : Nat) (o : Output) (why : OpWhy) (h : Reports s t) : Reports s (State.hostOp t hb k o why) := by
  unfold State.hostOp
  try dsimp only
  repeat' first
    | with_reducible assumption
    | rfl
    | with_reducible apply qpPump_reports
    | with_reducible apply upQp_reports
    | with_reducible apply ite_reports
    | split

theorem mssLog_reports {s t : State} (code : Nat) (part : Option Nat) (data : List (Nat × Nat)) (h : Reports s t) : Reports s (State.mssLog t code part data) := by
  unfold State.mssLog
  try dsimp only
  repeat' first
    | with_reducible assumption
    | rfl
    | with_reducible apply w_reports
    | with_reducible apply upMss_reports
    | with_reducible apply inc_reports
    | with_reducible apply ite_reports
    | split

theorem ceSram_reports {s t : State} (n : Nat) (h : Reports s t) : Reports s (State.ceSram t n) := by
  unfold State.ceSram
  try dsimp only
  repeat' first
    | with_reducible assumption
    | rfl
    | with_reducible apply upMss_reports
    | with_reducible apply ite_reports
    | split

theorem ceDram_reports {s t : State} (n : Nat) (h : Reports s t) : Reports s (State.ceDram t n) := by
  unfold State.ceDram
  try dsimp only
  repeat' first
    | with_reducible assumption
    | rfl
    | with_reducible apply upMss_reports
    | with_reducible apply ite_reports
    | split

theorem ringPut_reports {s t : State} (r : Nat) (e : EventRec) (h : Reports s t) : Reports s (State.ringPut t r e) := by
  unfold State.ringPut
  try dsimp only
  repeat' first
    | with_reducible assumption
    | rfl
    | with_reducible apply hostOp_reports
    | with_reducible apply event_reports
    | with_reducible apply w_reports
    | with_reducible apply ite_reports
    | split

theorem ringFlushLost_reports {s t : State} (r : Nat) (h : Reports s t) : Reports s (State.ringFlushLost t r) := by
  unfold State.ringFlushLost
  try dsimp only
  repeat' first
    | with_reducible assumption
    | rfl
    | with_reducible apply ringPut_reports
    | with_reducible apply ite_reports
    | with_reducible apply lost_reports
    | split

theorem ringEvent_reports {s t : State} (r : Nat) (e : EventRec) (h : Reports s t) : Reports s (State.ringEvent t r e) := by
  unfold State.ringEvent
  try dsimp only
  repeat' first
    | with_reducible assumption
    | rfl
    | with_reducible apply ringFlushLost_reports
    | with_reducible apply inc_reports
    | with_reducible apply ringPut_reports
    | with_reducible apply ite_reports
    | with_reducible apply lost_reports
    | split

theorem noteRisk_reports {s t : State} (code : Nat) (h : Reports s t) : Reports s (State.noteRisk t code) := by
  unfold State.noteRisk
  try dsimp only
  repeat' first
    | with_reducible assumption
    | rfl
    | with_reducible apply upMss_reports
    | with_reducible apply ite_reports
    | split

theorem event_reports {s t : State} (part : Option Nat) (code : Nat) (data : List (Nat × Nat)) (h : Reports s t) : Reports s (State.event t part code data) := by
  unfold State.event
  try dsimp only
  repeat' first
    | with_reducible assumption
    | rfl
    | with_reducible apply mssLog_reports
    | with_reducible apply noteRisk_reports
    | with_reducible apply ringEvent_reports
    | with_reducible apply ite_reports
    | split

theorem putDone_reports {s t : State} (c : RunCmd) (status : Nat) (h : Reports s t) : Reports s (State.putDone t c status) := by
  unfold State.putDone
  try dsimp only
  repeat' first
    | with_reducible assumption
    | rfl
    | with_reducible apply hostOp_reports
    | with_reducible apply upFoyer_reports
    | with_reducible apply ite_reports
    | split

theorem destroyQueue_reports {s t : State} (q : Nat) (h : Reports s t) : Reports s (State.destroyQueue t q) := by
  unfold State.destroyQueue
  dsimp only [List.foldl_cons, List.foldl_nil]
  apply upFoyer_reports
  repeat' first
    | with_reducible assumption
    | rfl
    | with_reducible apply wreg_reports

theorem cmdDone_reports {s t : State} (c : RunCmd) (status : Nat) (h : Reports s t) : Reports s (State.cmdDone t c status) := by
  unfold State.cmdDone
  try dsimp only
  repeat' first
    | with_reducible assumption
    | rfl
    | with_reducible apply inc_reports
    | with_reducible apply upFoyer_reports
    | with_reducible apply putDone_reports
    | with_reducible apply w_reports
    | with_reducible apply destroyQueue_reports
    | with_reducible apply ite_reports
    | split

theorem checkLaunch_reports {s t : State} (p : Nat) (h : Reports s t) : Reports s (State.checkLaunch t p) := by
  unfold State.checkLaunch
  try dsimp only
  repeat' first
    | with_reducible assumption
    | rfl
    | with_reducible apply upPart_reports
    | with_reducible apply cmdDone_reports
    | with_reducible apply ite_reports
    | split

theorem partFault_reports {s t : State} (p : Nat) (h : Reports s t) : Reports s (State.partFault t p) := by
  unfold State.partFault
  try dsimp only
  repeat' first
    | with_reducible assumption
    | rfl
    | with_reducible apply upPart_reports
    | with_reducible apply ite_reports
    | split

theorem checkEnd_reports {s t : State} (p : Nat) (h : Reports s t) : Reports s (State.checkEnd t p) := by
  unfold State.checkEnd
  try dsimp only
  repeat' first
    | with_reducible assumption
    | rfl
    | with_reducible apply event_reports
    | with_reducible apply upPart_reports
    | with_reducible apply ite_reports
    | split

/-! What follows from it. -/

theorem Reports.tile {s t : State} (h : Reports s t) (n : Nat) : t.tile n = s.tile n := tile_of_tiles (congrArg State.tiles h.1) n
theorem Reports.g {s t : State} (h : Reports s t) (f : Fld) (u i : Nat) (hu : f.reg.unit.reporting = false) : t.g f u i = s.g f u i := by
  simp only [State.g, RegFile.get, h.2 f.reg u i hu]
theorem Reports.trans {s t u : State} (h : Reports s t) (h' : Reports t u) : Reports s u := by
  refine ⟨?_, fun r v i hr => (h'.2 r v i hr).trans (h.2 r v i hr)⟩
  have h1 := h.1; have h2 := h'.1
  cases s; cases t; cases u
  simp only [State.mk.injEq] at h1 h2 ⊢
  simp_all

end State

end Sys2Proof.Machine
end

