-- ==== Sys2Proof/Laws/Issue.lean ====
section
/-! SUPPORT. The issue of a tile instruction (R70–R73): what is done before the row's own effect, and that the effect then follows. -/

namespace Sys2Proof.Machine

/-- The state in which the effect of an instruction begins: the stall counted, the wait ended, the instruction counted as issued. -/
def State.issued (s : State) (n c : Nat) : State :=
  (((if (s.ctx n c).wait == .data then s.inc F.SEQ_STALL_DATA_COUNT n 0 (s.cyclesSince (n / 64) (s.ctx n c).since) else s).setWait n c .run).upTile n
    (fun t => { t with bpPass := 0 })).countIssue n c

/-- A row that may issue, whose guard holds and that no hazard holds, has its own effect. -/
theorem State.issue_stands {s : State} {n c w : Nat} {k : Kind} (h : s.stands n c k w = true) (hg : s.guarded n c w = true)
    {ready : State → Nat → Bool} (hr : ready s w = true) (hk : (k == .illegal) = false) (body : State → Nat → State) :
    s.issue n c k ready body = (s.issued n c).perform n c (s.ctx n c).pc (fun s => body s w) := by
  simp only [State.stands, Bool.and_eq_true, decide_eq_true_eq, Bool.or_eq_true, Bool.not_eq_true', beq_iff_eq, bne_iff_ne, Option.isNone_iff_eq_none] at h
  obtain ⟨⟨⟨⟨⟨⟨⟨⟨hn, hc⟩, hi⟩, hcode⟩, hb⟩, hf⟩, hrow⟩, hbud⟩, hctx⟩ := h
  unfold State.issue State.issued
  rw [if_neg (by simp [hi])]
  simp only [hcode, Bool.not_true, Bool.false_eq_true, if_false]
  have hbp : (if (s.tile n).bpPass / 2 ^ c % 2 = 1 then none else s.breakpoint n c (s.ctx n c).pc) = none := by
    split
    · rfl
    · rcases hb with hb | hb
      · contradiction
      · exact hb
  have hbud' : (c == 1 && (s.tile n).budget == 0) = false := by
    rcases hbud with h | h
    · simp [h]
    · simp [h]
  rw [hbp]
  simp only [hf, hrow, bne_self_eq_false, Bool.false_eq_true, if_false, hbud', hk, hctx, hr, Bool.not_true, Bool.and_false, Bool.false_and]
  unfold State.guarded at hg
  simp only [hg, Bool.not_true, Bool.false_eq_true, if_false]

theorem State.issuePlain_stands {s : State} {n c w : Nat} {k : Kind} (h : s.stands n c k w = true) (hg : s.guarded n c w = true) (hk : (k == .illegal) = false)
    (body : State → Nat → State) : s.issuePlain n c k body = (s.issued n c).perform n c (s.ctx n c).pc (fun s => body s w) :=
  State.issue_stands h hg rfl hk body

theorem State.stands_onTile {s t : State} {n c w : Nat} {k : Kind} (h : s.stands n c k w = true) : onTile n c t = .next t := by
  simp only [State.stands, Bool.and_eq_true, decide_eq_true_eq] at h
  exact if_pos h.1.1.1.1.1.1.1

/-- A tile whose context may issue has not faulted. -/
theorem State.stands_fault {s : State} {n c w : Nat} {k : Kind} (h : s.stands n c k w = true) : s.g F.SEQ_FAULT_A_VALID n = 0 := by
  simp only [State.stands, State.canIssue, State.alive, Bool.and_eq_true, beq_iff_eq] at h
  exact h.1.1.1.1.1.1.2.1.1.1.2

/-- An effect that leaves the tile unfaulted is the whole effect, with the pc past the instruction. -/
theorem State.perform_next {s : State} {n c pc : Nat} {body : State → State} (h : (body (s.setPc n c (pc + 1))).g F.SEQ_FAULT_A_VALID n ≠ 1) :
    s.perform n c pc body = body (s.setPc n c (pc + 1)) := by
  unfold State.perform; dsimp only; rw [if_neg (fun h' => h h'.1)]

/-! What the issue itself changes. -/

theorem State.countIssue_tile (s : State) (n c m : Nat) :
    (s.countIssue n c).tile m = if m = n then (if c = 0 then { s.tile n with begun := true } else { s.tile n with budget := (s.tile n).budget - 1 }) else s.tile m := by
  unfold State.countIssue
  by_cases h : c = 0
  · rw [if_pos h, if_pos h]
    have hc : ∀ t : State, (match t.partOf n with | some p => t.checkLaunch p | none => t).tile m = t.tile m := by
      intro t
      split
      · exact (State.checkLaunch_reports _ State.Reports.rfl).tile m
      · rfl
    refine (hc _).trans ?_
    rw [tile_upTile]
    rfl
  · rw [if_neg h, if_neg h, tile_upTile]
    rfl

/-- The tile after its issue is counted. -/
theorem State.issued_tile (s : State) (n c m : Nat) :
    (s.issued n c).tile m = if m = n then
      (let t : Tile := { ((s.tile n).setCtx c { (s.tile n).ctx c with wait := .run, since := s.now }) with bpPass := 0 }
       if c = 0 then { t with begun := true } else { t with budget := t.budget - 1 }) else s.tile m := by
  have h1 : ∀ m, (if (s.ctx n c).wait == .data then s.inc F.SEQ_STALL_DATA_COUNT n 0 (s.cyclesSince (n / 64) (s.ctx n c).since) else s).tile m = s.tile m := by
    intro m; split <;> rfl
  have h2 : (if (s.ctx n c).wait == .data then s.inc F.SEQ_STALL_DATA_COUNT n 0 (s.cyclesSince (n / 64) (s.ctx n c).since) else s).now = s.now := by
    split <;> rfl
  unfold State.issued State.setWait State.upCtx
  generalize (if (s.ctx n c).wait == .data then s.inc F.SEQ_STALL_DATA_COUNT n 0 (s.cyclesSince (n / 64) (s.ctx n c).since) else s) = u at h1 h2 ⊢
  by_cases hm : m = n
  · subst hm
    simp only [countIssue_tile, tile_upTile_same, h1, h2, if_true]
  · simp only [countIssue_tile, tile_upTile, if_neg hm, h1]


theorem checkIf_reports {s t : State} (n : Nat) (h : State.Reports s t) : State.Reports s (match t.partOf n with | some p => t.checkLaunch p | none => t) := by
  split
  · exact State.checkLaunch_reports _ h
  · exact h

/-- Registers after an issue: the three counters apart, as they were. -/
theorem State.countIssue_rd (s : State) (n c : Nat) (r : Reg) (u i : Nat) (hr : r.unit.reporting = false)
    (h1 : r.key u i ≠ R.SEQ_ISSUED_M.key n 0) (h2 : r.key u i ≠ R.SEQ_ISSUED_H.key n 0) : (s.countIssue n c).regs.rd r u i = s.regs.rd r u i := by
  unfold State.countIssue
  split
  · refine ((checkIf_reports n State.Reports.rfl).2 r u i hr).trans ?_
    exact State.rd_inc_key s F.SEQ_ISSUED_M_COUNT r n 0 1 u i h1
  · exact State.rd_inc_key s F.SEQ_ISSUED_H_COUNT r n 0 1 u i h2

theorem State.issued_rd (s : State) (n c : Nat) (r : Reg) (u i : Nat) (hr : r.unit.reporting = false)
    (h1 : r.key u i ∉ issueKeys n) : (s.issued n c).regs.rd r u i = s.regs.rd r u i := by
  simp only [issueKeys, List.mem_cons, List.not_mem_nil, or_false, not_or] at h1
  unfold State.issued
  rw [countIssue_rd _ _ _ _ _ _ hr h1.1 h1.2.1]
  show (if (s.ctx n c).wait == .data then _ else s).regs.rd r u i = _
  split
  · exact State.rd_inc_key s F.SEQ_STALL_DATA_COUNT r n 0 _ u i h1.2.2
  · rfl

theorem State.Beside.rfl {s : State} {n : Nat} : s.Beside n s := ⟨Eq.refl _, fun _ _ => Eq.refl _, fun _ _ _ _ _ => Eq.refl _, fun _ _ _ _ _ _ => Eq.refl _⟩

theorem State.upTile_beside {s t : State} {n : Nat} (f : Tile → Tile) (h : s.Beside n t) : s.Beside n (t.upTile n f) :=
  ⟨h.1, fun m hm => (tile_upTile_ne t f hm).trans (h.2.1 m hm), h.2.2.1, h.2.2.2⟩

theorem State.Beside.trans {s t u : State} {n : Nat} (h : s.Beside n t) (h' : t.Beside n u) : s.Beside n u := by
  refine ⟨?_, fun m hm => (h'.2.1 m hm).trans (h.2.1 m hm), fun r v i hr hu => (h'.2.2.1 r v i hr hu).trans (h.2.2.1 r v i hr hu),
    fun r hr m i hm hi => (h'.2.2.2 r hr m i hm hi).trans (h.2.2.2 r hr m i hm hi)⟩
  have h1 := h.1; have h2 := h'.1
  cases s; cases t; cases u
  simp only [State.mk.injEq] at h1 h2 ⊢
  simp_all

/-- Registers of two tiles have different keys. -/
theorem tileKey_ne {r r' : Reg} (hr : r ∈ regsOf .tile) (hr' : r' ∈ regsOf .tile) {m n i j : Nat} (hi : i < r.count) (hj : j < r'.count) (h : m ≠ n) :
    r.key m i ≠ r'.key n j := by
  have hb : ∀ x ∈ regsOf .tile, x.off + x.stride * (x.count - 1) < 0x4000 ∧ x.unit = .tile := by decide
  obtain ⟨b1, u1⟩ := hb r hr
  obtain ⟨b2, u2⟩ := hb r' hr'
  have c1 : r.stride * i ≤ r.stride * (r.count - 1) := Nat.mul_le_mul_left _ (by omega)
  have c2 : r'.stride * j ≤ r'.stride * (r'.count - 1) := Nat.mul_le_mul_left _ (by omega)
  simp only [Reg.key, Reg.addr, u1, u2, RUnit.base, RUnit.tag]
  generalize r.stride * i = x at *
  generalize r'.stride * j = y at *
  omega

theorem State.Reports.beside {s t : State} (h : State.Reports s t) (n : Nat) : s.Beside n t := by
  refine ⟨?_, fun m _ => h.tile m, fun r u i hr _ => h.2 r u i hr, fun r hr m i _ _ => h.2 r m i ?_⟩
  · have h1 := h.1
    have h2 : t.tiles = s.tiles := by have e := congrArg State.tiles h1; exact e
    cases s; cases t
    simp only [State.mk.injEq] at h1 ⊢
    simp_all
  · have hb : ∀ x ∈ regsOf .tile, x.unit = .tile := by decide
    rw [hb r hr]; rfl

theorem State.inc_beside {s t : State} {n : Nat} (f : Fld) (i x : Nat) (hf : f.reg ∈ regsOf .tile) (hi : i < f.reg.count) (h : s.Beside n t) : s.Beside n (t.inc f n i x) := by
  have hb : ∀ x ∈ regsOf .tile, x.unit = .tile := by decide
  have hu := hb _ hf
  refine ⟨h.1, h.2.1, fun r u j hr hn => ?_, fun r hr m j hm hj => ?_⟩
  · exact (State.rd_inc_key t f r n i x u j (key_ne_of_unit (by rw [hu]; exact hn) u j n i)).trans (h.2.2.1 r u j hr hn)
  · exact (State.rd_inc_key t f r n i x m j (tileKey_ne hr hf hj hi hm)).trans (h.2.2.2 r hr m j hm hj)

theorem State.issued_beside (s : State) (n c : Nat) : s.Beside n (s.issued n c) := by
  unfold State.issued
  have h1 : s.Beside n (if (s.ctx n c).wait == .data then s.inc F.SEQ_STALL_DATA_COUNT n 0 (s.cyclesSince (n / 64) (s.ctx n c).since) else s) := by
    split
    · exact State.inc_beside _ _ _ (by decide) (by decide) .rfl
    · exact .rfl
  have h2 := State.upTile_beside (fun t => { t with bpPass := 0 }) (show s.Beside n (State.setWait _ n c .run) from State.upTile_beside _ h1)
  generalize State.upTile _ n (fun t => { t with bpPass := 0 }) = u at h2 ⊢
  unfold State.countIssue
  split
  · exact ((State.upTile_beside _ (State.inc_beside F.SEQ_ISSUED_M_COUNT 0 1 (by decide) (by decide) h2)).trans ((checkIf_reports n .rfl).beside n))
  · exact State.upTile_beside _ (State.inc_beside F.SEQ_ISSUED_H_COUNT 0 1 (by decide) (by decide) h2)


/-! Contexts, scalar registers and predicates of a tile. -/

theorem Tile.ctx_setCtx (t : Tile) (c : Nat) (x : Ctx) (c' : Nat) : (t.setCtx c x).ctx c' = if (c = 0) = (c' = 0) then x else t.ctx c' := by
  unfold Tile.ctx Tile.setCtx
  by_cases h : c = 0 <;> by_cases h' : c' = 0 <;> simp [h, h']
@[simp] theorem Tile.ctx_setCtx_same (t : Tile) (c : Nat) (x : Ctx) : (t.setCtx c x).ctx c = x := by simp [Tile.ctx_setCtx]
theorem Tile.ctx_setCtx_other (t : Tile) {c : Nat} (hc : c < 2) (x : Ctx) : (t.setCtx c x).ctx (1 - c) = t.ctx (1 - c) := by
  rw [Tile.ctx_setCtx, if_neg]
  intro h
  rcases (show c = 0 ∨ c = 1 by omega) with rfl | rfl <;> simp at h
@[simp] theorem Tile.sregs_setCtx (t : Tile) (c : Nat) (x : Ctx) : (t.setCtx c x).sregs = t.sregs := by unfold Tile.setCtx; split <;> rfl

theorem Tile.sreg_setSreg (t : Tile) (c d : Nat) (v : Half) (i : Nat) : (t.setSreg c d v).sreg c i = if i = d ∧ d ≠ 0 then v else t.sreg c i := by
  unfold Tile.setSreg Tile.sreg
  by_cases hd : d = 0
  · simp [hd]
  · by_cases h24 : d < 24
    · simp only [hd, h24, if_false, if_true, ne_eq, not_false_eq_true, and_true]
      by_cases hi : i = d
      · subst hi; simp [hd, h24]
      · simp only [hi, if_false, Sparse.get_put_ne _ _ _ hi]; rfl
    · simp only [hd, h24, if_false, ne_eq, not_false_eq_true, and_true, Tile.ctx_setCtx_same, Tile.sregs_setCtx]
      by_cases hi : i = d
      · subst hi; simp [hd, h24]
      · simp only [hi, if_false, Sparse.get_put_ne _ _ _ hi]

theorem Tile.pred_setSreg (t : Tile) (c d : Nat) (v : Half) (i : Nat) : (t.setSreg c d v).pred c i = t.pred c i := by
  unfold Tile.setSreg Tile.pred
  split
  · rfl
  · split
    · rfl
    · simp


theorem Tile.ctx_other_of (t : Tile) (c d : Nat) (hc : c < 2) (v : Half) : (t.setSreg c d v).ctx (1 - c) = t.ctx (1 - c) := by
  unfold Tile.setSreg
  split
  · rfl
  · split
    · rfl
    · exact Tile.ctx_setCtx_other t hc _

/-- What an update of tile n after its issue amounts to. -/
theorem State.scalar_of {s t : State} {n c : Nat} (hc : c < 2) (hb : (s.issued n c).Beside n t) (hd : t.regs = (s.issued n c).regs) (f : Tile → Tile)
    (ht : t.tile n = f ((s.issued n c).tile n)) (regs : Nat → Half) (preds : Nat → Bool) (vl pc : Nat)
    (hr : ∀ i, (t.tile n).sreg c i = regs i) (hp : ∀ i, (t.tile n).pred c i = preds i)
    (hx : ((t.tile n).ctx c).vl = vl ∧ ((t.tile n).ctx c).pc = pc ∧ ((t.tile n).ctx c).wait = .run ∧ ((t.tile n).ctx c).srq = (s.ctx n c).srq)
    (ho : ∀ t : Tile, (f t).ctx (1 - c) = t.ctx (1 - c))
    (hk : ∀ t : Tile, { f t with main := t.main, hand := t.hand, sregs := t.sregs } = t) :
    s.Scalar t n c regs preds vl pc := by
  refine ⟨(State.issued_beside s n c).trans hb, fun r i hu hk => ?_, hr, hp, hx.1, hx.2.1, hx.2.2.1, hx.2.2.2, ?_, ?_⟩
  · rw [hd]; exact State.issued_rd s n c r n i (by rw [hu]; rfl) hk
  · unfold State.ctx
    rw [ht, ho, State.issued_tile, if_pos rfl]
    rcases (show c = 0 ∨ c = 1 by omega) with rfl | rfl <;> rfl
  · rw [ht]
    have h1 := hk ((s.issued n c).tile n)
    generalize f ((s.issued n c).tile n) = t at h1 ⊢
    rw [State.issued_tile, if_pos rfl] at h1
    rcases (show c = 0 ∨ c = 1 by omega) with rfl | rfl
    · have h2 := congrArg (fun x : Tile => { x with main := (s.tile n).main, hand := (s.tile n).hand, sregs := (s.tile n).sregs, begun := (s.tile n).begun, budget := (s.tile n).budget, bpPass := (s.tile n).bpPass }) h1
      exact h2
    · have h2 := congrArg (fun x : Tile => { x with main := (s.tile n).main, hand := (s.tile n).hand, sregs := (s.tile n).sregs, begun := (s.tile n).begun, budget := (s.tile n).budget, bpPass := (s.tile n).bpPass }) h1
      exact h2

theorem State.issued_ctx (s : State) (n c : Nat) : (s.issued n c).ctx n c = { s.ctx n c with wait := .run, since := s.now } := by
  unfold State.ctx
  rw [State.issued_tile, if_pos rfl]
  by_cases h : c = 0
  · subst h; rfl
  · simp only [if_neg h]; unfold Tile.ctx Tile.setCtx; simp only [if_neg h]
theorem State.issued_sreg (s : State) (n c i : Nat) : (s.issued n c).sreg n c i = s.sreg n c i := by
  unfold State.sreg
  rw [State.issued_tile, if_pos rfl]
  by_cases h : c = 0
  · subst h; rfl
  · simp only [if_neg h]; unfold Tile.sreg Tile.ctx Tile.setCtx; simp only [if_neg h]
theorem State.issued_pred (s : State) (n c i : Nat) : ((s.issued n c).tile n).pred c i = (s.tile n).pred c i := by
  rw [State.issued_tile, if_pos rfl]
  by_cases h : c = 0
  · subst h; rfl
  · simp only [if_neg h]; unfold Tile.pred Tile.ctx Tile.setCtx; simp only [if_neg h]
theorem State.issued_fault (s : State) (n c : Nat) : (s.issued n c).g F.SEQ_FAULT_A_VALID n = s.g F.SEQ_FAULT_A_VALID n := by
  simp only [State.g, RegFile.get]
  rw [State.issued_rd s n c _ n 0 rfl]
  simp only [issueKeys, List.mem_cons, List.not_mem_nil, or_false, not_or, Reg.key, Reg.addr]
  refine ⟨?_, ?_, ?_⟩ <;> (intro h; simp only [F.SEQ_FAULT_A_VALID, R.SEQ_FAULT_A, R.SEQ_ISSUED_M, R.SEQ_ISSUED_H, R.SEQ_STALL_DATA, RUnit.tag] at h; omega)
theorem State.stands_ctx {s : State} {n c w : Nat} {k : Kind} (h : s.stands n c k w = true) : c < 2 := by
  simp only [State.stands, Bool.and_eq_true, decide_eq_true_eq] at h
  exact h.1.1.1.1.1.1.1.2

/-- The issue of a row whose effect updates tile n and no register. -/
theorem State.run_of {s : State} {n c w : Nat} {k : Kind} (h : s.stands n c k w = true) (hg : s.guarded n c w = true) (hk : (k == .illegal) = false)
    (body : State → Nat → State) (hb : ∀ u : State, (body u w).regs = u.regs) :
    s.issuePlain n c k body = body ((s.issued n c).setPc n c ((s.ctx n c).pc + 1)) w := by
  rw [State.issuePlain_stands h hg hk, State.perform_next]
  have e : (body ((s.issued n c).setPc n c ((s.ctx n c).pc + 1)) w).g F.SEQ_FAULT_A_VALID n = (s.issued n c).g F.SEQ_FAULT_A_VALID n := by
    simp only [State.g, hb]; rfl
  rw [e, State.issued_fault, State.stands_fault h]; decide

end Sys2Proof.Machine
end

