-- ==== Sys2Proof/Laws/Rows.lean ====
section
/-! SUPPORT. The issue of a row whose effect changes only the tile's own state (R66, R72–R78): the state in which the effect begins, and what the row comes to. -/

namespace Sys2Proof.Machine

/-- The state in which a row's own effect begins. -/
def State.begun (s : State) (n c : Nat) : State := (s.issued n c).setPc n c ((s.ctx n c).pc + 1)

theorem State.begun_tile (s : State) (n c : Nat) :
    (s.begun n c).tile n = ((s.issued n c).tile n).setCtx c { s.ctx n c with wait := .run, since := s.now, pc := s.nextPc n c } := by
  unfold State.begun State.setPc State.upCtx
  rw [State.tile_upTile_same]
  have h := State.issued_ctx s n c
  unfold State.ctx at h
  rw [h]; rfl
theorem State.begun_ctx (s : State) (n c : Nat) : (s.begun n c).ctx n c = { s.ctx n c with wait := .run, since := s.now, pc := s.nextPc n c } := by
  unfold State.ctx; rw [State.begun_tile]; simp [State.ctx]
theorem State.begun_sreg (s : State) (n c i : Nat) : (s.begun n c).sreg n c i = s.sreg n c i := by
  have h := State.issued_sreg s n c i
  have h2 := State.issued_ctx s n c
  unfold State.sreg State.ctx at *
  rw [State.begun_tile, ← h]
  unfold Tile.sreg
  simp [h2]; rfl
theorem State.begun_pred (s : State) (n c i : Nat) : ((s.begun n c).tile n).pred c i = (s.tile n).pred c i := by
  rw [State.begun_tile]
  unfold Tile.pred; simp; rfl
theorem State.begun_g (s : State) (n c : Nat) (f : Fld) (u i : Nat) (hr : f.reg.unit.reporting = false) (hk : f.reg.key u i ∉ issueKeys n) :
    (s.begun n c).g f u i = s.g f u i := by
  have h := State.issued_rd s n c f.reg u i hr hk
  simp only [State.g, RegFile.get]
  exact congrArg (fun v => bitsAt v f.lo f.width) h
theorem State.begun_fault {s : State} {n c w : Nat} {k : Kind} (h : s.stands n c k w = true) : (s.begun n c).g F.SEQ_FAULT_A_VALID n ≠ 1 := by
  show (s.issued n c).g _ _ ≠ 1
  rw [State.issued_fault, State.stands_fault h]; decide

/-- A row whose effect leaves the tile unfaulted: the effect, from where it begins. -/
theorem State.issue_begun {s : State} {n c w : Nat} {k : Kind} (h : s.stands n c k w = true) (hg : s.guarded n c w = true) (hk : (k == .illegal) = false)
    {ready : State → Nat → Bool} (hr : ready s w = true) (body : State → Nat → State) (hb : (body (s.begun n c) w).g F.SEQ_FAULT_A_VALID n ≠ 1) :
    onTile n c (s.issue n c k ready body) = .next (body (s.begun n c) w) := by
  rw [State.stands_onTile h, State.issue_stands h hg hr hk, State.perform_next]
  · rfl
  · exact hb

/-- A row whose effect is an update of its tile that keeps all but contexts and scalar registers. -/
theorem State.run_tile {s : State} {n c w : Nat} {k : Kind} (h : s.stands n c k w = true) (hg : s.guarded n c w = true) (hk : (k == .illegal) = false)
    (body : State → Nat → State) (f : Tile → Tile) (hb : body (s.begun n c) w = (s.begun n c).upTile n f)
    (regs : Nat → Half) (preds : Nat → Bool) (vl pc : Nat)
    (hr : ∀ i, (f ((s.begun n c).tile n)).sreg c i = regs i) (hp : ∀ i, (f ((s.begun n c).tile n)).pred c i = preds i)
    (hx : ((f ((s.begun n c).tile n)).ctx c).vl = vl ∧ ((f ((s.begun n c).tile n)).ctx c).pc = pc ∧ ((f ((s.begun n c).tile n)).ctx c).wait = .run ∧
      ((f ((s.begun n c).tile n)).ctx c).srq = (s.ctx n c).srq)
    (ho : ∀ t : Tile, (f t).ctx (1 - c) = t.ctx (1 - c))
    (hf : ∀ t : Tile, { f t with main := t.main, hand := t.hand, sregs := t.sregs } = t) :
    ∃ t, onTile n c (s.issuePlain n c k body) = .next t ∧ s.Scalar t n c regs preds vl pc := by
  have hc := State.stands_ctx h
  refine ⟨_, State.issue_begun h hg hk rfl body (by rw [hb]; exact State.begun_fault h), ?_⟩
  rw [hb]
  refine State.scalar_of (s := s) (t := (s.begun n c).upTile n f) hc ?_ rfl
    (fun t => f (t.setCtx c { s.ctx n c with wait := .run, since := s.now, pc := s.nextPc n c })) ?_ _ _ _ _ ?_ ?_ ?_ ?_ ?_
  · exact State.upTile_beside _ (State.upTile_beside _ .rfl)
  · rw [State.tile_upTile_same, State.begun_tile]
  · rw [State.tile_upTile_same]; exact hr
  · rw [State.tile_upTile_same]; exact hp
  · rw [State.tile_upTile_same]; exact hx
  · intro t
    show (f _).ctx _ = _
    rw [ho, Tile.ctx_setCtx_other t hc]
  · intro t
    have h1 := hf (t.setCtx c { s.ctx n c with wait := .run, since := s.now, pc := s.nextPc n c })
    have h2 := congrArg (fun x : Tile => { x with main := t.main, hand := t.hand, sregs := t.sregs }) h1
    refine h2.trans ?_
    unfold Tile.setCtx; split <;> rfl

theorem Tile.setCtx_frame (t : Tile) (c : Nat) (x : Ctx) : { t.setCtx c x with main := t.main, hand := t.hand, sregs := t.sregs } = t := by
  unfold Tile.setCtx; split <;> rfl
theorem Tile.setSreg_frame (t : Tile) (c d : Nat) (v : Half) : { t.setSreg c d v with main := t.main, hand := t.hand, sregs := t.sregs } = t := by
  unfold Tile.setSreg Tile.setCtx; repeat' split <;> try rfl
theorem Tile.ctx_setSreg (t : Tile) (c d : Nat) (v : Half) : ((t.setSreg c d v).ctx c).vl = (t.ctx c).vl ∧ ((t.setSreg c d v).ctx c).pc = (t.ctx c).pc ∧
    ((t.setSreg c d v).ctx c).wait = (t.ctx c).wait ∧ ((t.setSreg c d v).ctx c).srq = (t.ctx c).srq := by
  unfold Tile.setSreg; split
  · simp
  · split
    · refine ⟨rfl, rfl, rfl, rfl⟩
    · simp
theorem Tile.sreg_setCtx (t : Tile) (c : Nat) (x : Ctx) (i : Nat) (h : x.bank = (t.ctx c).bank) : (t.setCtx c x).sreg c i = t.sreg c i := by
  unfold Tile.sreg; simp [h]
theorem Tile.pred_setCtx (t : Tile) (c : Nat) (x : Ctx) (i : Nat) : (t.setCtx c x).pred c i = (i == 0 || x.preds.getLsbD i) := by
  unfold Tile.pred; simp

/-- Predicates 1 to 7 after a write of one. -/
theorem Tile.pred_setPred (t : Tile) (c d : Nat) (b : Bool) (hd : d < 8) (i : Nat) : (t.setPred c d b).pred c i = if i = d ∧ d ≠ 0 then b else t.pred c i := by
  unfold Tile.setPred
  by_cases h0 : d = 0
  · simp [h0]
  · simp only [h0, if_false, Tile.pred_setCtx, ne_eq, not_false_eq_true, and_true]
    unfold Tile.pred
    generalize (t.ctx c).preds = p
    by_cases hi : i < 8
    · have : ∀ (d : Fin 8) (i : Fin 8) (b : Bool) (p : BitVec 8), d.1 ≠ 0 →
          (i.1 == 0 || (if b = true then p ||| BitVec.ofNat 8 (2 ^ d.1) else p &&& ~~~BitVec.ofNat 8 (2 ^ d.1)).getLsbD i.1) =
            (if i.1 = d.1 then b else (i.1 == 0 || p.getLsbD i.1)) := by
        intro d i b p hd
        have e : (BitVec.ofNat 8 (2 ^ d.1)).getLsbD i.1 = decide (i.1 = d.1) := by revert d i; decide
        cases b
        · simp only [Bool.false_eq_true, if_false, BitVec.getLsbD_and, BitVec.getLsbD_not, e, i.2, decide_true, Bool.true_and]
          by_cases h : i.1 = d.1
          · simp [h, hd]
          · simp [h]
        · simp only [if_true, BitVec.getLsbD_or, e]
          by_cases h : i.1 = d.1
          · simp [h]
          · simp [h]
      exact this ⟨d, hd⟩ ⟨i, hi⟩ b p h0
    · have hne : i ≠ d := by omega
      rw [if_neg hne, BitVec.getLsbD_of_ge _ _ (by omega), BitVec.getLsbD_of_ge _ _ (by omega)]
theorem Tile.setPred_keeps (t : Tile) (c d : Nat) (b : Bool) : ((t.setPred c d b).ctx c).vl = (t.ctx c).vl ∧ ((t.setPred c d b).ctx c).pc = (t.ctx c).pc ∧
    ((t.setPred c d b).ctx c).wait = (t.ctx c).wait ∧ ((t.setPred c d b).ctx c).srq = (t.ctx c).srq ∧ ((t.setPred c d b).ctx c).bank = (t.ctx c).bank := by
  unfold Tile.setPred; split <;> simp
theorem Tile.setPred_frame (t : Tile) (c d : Nat) (b : Bool) : { t.setPred c d b with main := t.main, hand := t.hand, sregs := t.sregs } = t := by
  unfold Tile.setPred; split
  · rfl
  · exact Tile.setCtx_frame t c _

/-- A row that sets one scalar register. -/
theorem State.run_sreg {s : State} {n c w : Nat} {k : Kind} (h : s.stands n c k w = true) (hg : s.guarded n c w = true) (hk : (k == .illegal) = false)
    (body : State → Nat → State) (d : Nat) (v : Half) (hb : body (s.begun n c) w = (s.begun n c).setSreg n c d v) :
    ∃ t, onTile n c (s.issuePlain n c k body) = .next t ∧ s.Scalar t n c (s.regsWith n c d v) ((s.tile n).pred c) (s.ctx n c).vl (s.nextPc n c) := by
  have hc := State.stands_ctx h
  refine State.run_tile h hg hk body (fun t => t.setSreg c d v) hb _ _ _ _ ?_ ?_ ?_ ?_ ?_
  · intro i; rw [Tile.sreg_setSreg]; unfold State.regsWith; split
    · rfl
    · exact State.begun_sreg s n c i
  · intro i; rw [Tile.pred_setSreg]; exact State.begun_pred s n c i
  · have h1 := Tile.ctx_setSreg ((s.begun n c).tile n) c d v
    have h2 := State.begun_ctx s n c
    unfold State.ctx at h2
    rw [h2] at h1
    exact h1
  · intro t; exact Tile.ctx_other_of t c d hc v
  · intro t; exact Tile.setSreg_frame t c d v

/-- A row that sets one predicate. -/
theorem State.run_pred {s : State} {n c w : Nat} {k : Kind} (h : s.stands n c k w = true) (hg : s.guarded n c w = true) (hk : (k == .illegal) = false)
    (body : State → Nat → State) (d : Nat) (hd : d < 8) (b : Bool) (hb : body (s.begun n c) w = (s.begun n c).setPred n c d b) :
    ∃ t, onTile n c (s.issuePlain n c k body) = .next t ∧ s.Scalar t n c (s.sreg n c) (s.predsWith n c d b) (s.ctx n c).vl (s.nextPc n c) := by
  have hc := State.stands_ctx h
  refine State.run_tile h hg hk body (fun t => t.setPred c d b) hb _ _ _ _ ?_ ?_ ?_ ?_ ?_
  · intro i
    rw [← State.begun_sreg s n c i]
    have hs := Tile.setPred_keeps ((s.begun n c).tile n) c d b
    have hf := congrArg Tile.sregs (show (((s.begun n c).tile n).setPred c d b) = _ from Eq.refl _)
    unfold State.sreg Tile.sreg
    rw [hs.2.2.2.2]
    have : (((s.begun n c).tile n).setPred c d b).sregs = ((s.begun n c).tile n).sregs := by unfold Tile.setPred; split <;> simp
    rw [this]
  · intro i; rw [Tile.pred_setPred _ _ _ _ hd]; unfold State.predsWith; split
    · rfl
    · exact State.begun_pred s n c i
  · have h1 := Tile.setPred_keeps ((s.begun n c).tile n) c d b
    have h2 := State.begun_ctx s n c
    unfold State.ctx at h2
    rw [h2] at h1
    exact ⟨h1.1, h1.2.1, h1.2.2.1, h1.2.2.2.1⟩
  · intro t
    show (t.setPred c d b).ctx (1 - c) = _
    unfold Tile.setPred; split
    · rfl
    · exact Tile.ctx_setCtx_other t hc _
  · intro t; exact Tile.setPred_frame t c d b

/-- A row that sets a link register, or none (register 0), and then the pc. -/
theorem State.run_pc {s : State} {n c w : Nat} {k : Kind} (h : s.stands n c k w = true) (hg : s.guarded n c w = true) (hk : (k == .illegal) = false)
    (body : State → Nat → State) (d : Nat) (v : Half) (pc : Nat) (hb : body (s.begun n c) w = ((s.begun n c).setSreg n c d v).setPc n c pc) :
    ∃ t, onTile n c (s.issuePlain n c k body) = .next t ∧ s.Scalar t n c (s.regsWith n c d v) ((s.tile n).pred c) (s.ctx n c).vl (pc % 2 ^ 17) := by
  have hc := State.stands_ctx h
  refine ⟨_, State.issue_begun h hg hk rfl body (by rw [hb]; exact State.begun_fault h), ?_⟩
  rw [hb]
  have ht : (((s.begun n c).setSreg n c d v).setPc n c pc).tile n =
      (fun t : Tile => (t.setSreg c d v).setCtx c { (t.setSreg c d v).ctx c with pc := pc % 2 ^ 17 }) ((s.begun n c).tile n) := by
    unfold State.setPc State.upCtx State.setSreg
    rw [State.tile_upTile_same, State.tile_upTile_same]
  refine State.scalar_of (s := s) (t := ((s.begun n c).setSreg n c d v).setPc n c pc) hc ?_ rfl
    (fun t => (fun t : Tile => (t.setSreg c d v).setCtx c { (t.setSreg c d v).ctx c with pc := pc % 2 ^ 17 })
      (t.setCtx c { s.ctx n c with wait := .run, since := s.now, pc := s.nextPc n c })) ?_ _ _ _ _ ?_ ?_ ?_ ?_ ?_
  · exact State.upTile_beside _ (State.upTile_beside _ (State.upTile_beside _ .rfl))
  · rw [ht, State.begun_tile]
  · intro i; rw [ht]
    dsimp only
    refine (Tile.sreg_setCtx _ c _ i (by rfl)).trans ?_
    rw [Tile.sreg_setSreg]; unfold State.regsWith; split
    · rfl
    · exact State.begun_sreg s n c i
  · intro i; rw [ht]
    dsimp only
    rw [Tile.pred_setCtx]
    have h1 := Tile.pred_setSreg ((s.begun n c).tile n) c d v i
    rw [State.begun_pred] at h1
    rw [← h1]; rfl
  · rw [ht]
    dsimp only
    rw [Tile.ctx_setCtx_same]
    have h1 := Tile.ctx_setSreg ((s.begun n c).tile n) c d v
    have h2 := State.begun_ctx s n c
    unfold State.ctx at h2
    rw [h2] at h1
    exact ⟨h1.1, rfl, h1.2.2.1, h1.2.2.2⟩
  · intro t
    dsimp only
    rw [Tile.ctx_setCtx_other _ hc, Tile.ctx_other_of _ _ _ hc, Tile.ctx_setCtx_other t hc]
  · intro t
    have h1 := Tile.setCtx_frame (Tile.setSreg (t.setCtx c { s.ctx n c with wait := .run, since := s.now, pc := s.nextPc n c }) c d v) c
      { (Tile.setSreg (t.setCtx c { s.ctx n c with wait := .run, since := s.now, pc := s.nextPc n c }) c d v).ctx c with pc := pc % 2 ^ 17 }
    have h2 := Tile.setSreg_frame (t.setCtx c { s.ctx n c with wait := .run, since := s.now, pc := s.nextPc n c }) c d v
    have h3 := Tile.setCtx_frame t c { s.ctx n c with wait := .run, since := s.now, pc := s.nextPc n c }
    have e1 := congrArg (fun x : Tile => { x with main := t.main, hand := t.hand, sregs := t.sregs }) h1
    have e2 := congrArg (fun x : Tile => { x with main := t.main, hand := t.hand, sregs := t.sregs }) h2
    exact e1.trans (e2.trans h3)

end Sys2Proof.Machine
end

