-- ==== Sys2Proof/Tests/Slice0.lean ====
section
/-! SUPPORT. Tests of the model: small states, one step each. A theorem named witness_<statement> shows states and operands that meet the hypotheses of a
statement's clauses together; one named test_<what> shows what a step leaves. Expected values are worked by hand from the rules that the statements cite. -/

namespace Sys2Proof.Tests
set_option Elab.async false
set_option maxRecDepth 100000
set_option exponentiation.threshold 2048
set_option synthInstance.maxSize 4096
open Sys2Proof Sys2Proof.Machine

/-! Small states. -/

/-- Fields set: field, block, index, value. -/
def put (s : State) (l : List (Fld × Nat × Nat × Nat)) : State := l.foldl (fun (s : State) (e : Fld × Nat × Nat × Nat) => s.w e.1 e.2.1 e.2.2.1 e.2.2.2) s
/-- A power phase. -/
def phase (x : Phase) : State := { State.reset with power := { Power.reset with phase := x } }
/-- A module that runs, with partition 0 on hall 0: every segment of tile 0 up, its code the first 4,096 half-words. -/
def live : State :=
  { put (phase .running) [(F.PART_OWNER_OWNED, 0, 0, 1), (F.TILE_SEG_ON, 0, 0, 255), (F.SEQ_CODE_LIMIT, 0, 0, 4096), (F.DEV_STATUS_READY, 0, 0, 1)] with
    parts := [{ Part.fresh 0 [0] 16 false with loaded := true, launched := true }] }
/-- An instruction: OP, FN, SD, SA, SB and what lies below. -/
def ins (op fn sd sa sb low : Nat) : Nat := op * 2 ^ 42 + fn * 2 ^ 32 + sd * 2 ^ 27 + sa * 2 ^ 22 + sb * 2 ^ 17 + low
/-- Tile 0 stands at w in context c, at pc 64 with its line fetched. -/
def tileAt (c w : Nat) : Tile :=
  let x : Ctx := { Ctx.reset with pc := 64, vl := 8, wait := .run }
  { Tile.free with begun := true, budget := 1000, lines := [(2, (2, [BitVec.ofNat 48 w], []))], main := if c = 0 then x else { Ctx.reset with wait := .ended }, hand := if c = 1 then x else Ctx.reset }
/-- The module with tile 0 as given. -/
def withTile (t : Tile) : State := { live with tiles := [(0, t)] }
def stand (c w : Nat) : State := withTile (tileAt c w)
/-- The next state of a command. -/
def after (i : Instr) (s : State) : State := match exec i s with | .next t => t | _ => State.reset
/-- Whether a command answers a next state. -/
def goes (i : Instr) (s : State) : Bool := match exec i s with | .next _ => true | _ => false

/-! Tile rows. -/

theorem witness_ArithmeticRows :
    (∀ e ∈ [(Kind.alu, ins 1 0 1 2 3 0), (.alui, ins 8 0 1 2 0 5), (.li, ins 9 1 1 2 0 5), (.muldiv, ins 4 3 1 2 3 0), (.setvl, ins 0x12 0 1 2 0 7)],
      ((stand 0 e.2).guarded 0 0 e.2 && (stand 0 e.2).stands 0 0 e.1 e.2 && (stand 1 e.2).stands 0 1 e.1 e.2) = true) := by decide
theorem witness_PredicateRows :
    (∀ e ∈ [(Kind.cmp, ins 2 0 0 2 3 512), (.cmpi, ins 0xA 0 1 2 0 5), (.plog, ins 3 0 0 1 2 512)],
      ((stand 0 e.2).guarded 0 0 e.2 && (stand 0 e.2).stands 0 0 e.1 e.2) = true) := by decide
theorem witness_BranchRows :
    (∀ e ∈ [(Kind.br, ins 0x18 0 0 0 0 5), (.call, 0x18 * 2 ^ 42 + 2 ^ 35 + 2 ^ 25 + 5), (.jr, 0x18 * 2 ^ 42 + 2 * 2 ^ 35 + 2 ^ 30), (.loop, 0x18 * 2 ^ 42 + 3 * 2 ^ 35 + 2 ^ 30),
        (.callr, 0x18 * 2 ^ 42 + 4 * 2 ^ 35 + 2 ^ 30 + 2 ^ 25)],
      ((stand 0 e.2).guarded 0 0 e.2 && (stand 0 e.2).stands 0 0 e.1 e.2) = true) := by decide
theorem witness_GuardNotHolding : (stand 0 (ins 1 0 1 2 3 0 + 2 ^ 38)).stands 0 0 .alu (ins 1 0 1 2 3 0 + 2 ^ 38) = true ∧ (stand 0 (ins 1 0 1 2 3 0 + 2 ^ 38)).guarded 0 0 (ins 1 0 1 2 3 0 + 2 ^ 38) = false ∧
    (let w := ins 0x18 0 0 0 0 0 + 5 * 2 ^ 35 + 2 ^ 38
     Ins.op w = 0x18 ∧ (stand 0 w).stands 0 0 .illegal w = true ∧ (stand 0 w).guarded 0 0 w = false ∧ (after (.illegal 0 0) (stand 0 w)).g F.SEQ_FAULT_A_VALID 0 = 0) := by decide
theorem witness_IllegalRow : (stand 0 0).stands 0 0 .illegal 0 = true ∧ (stand 1 (ins 1 0x3F 0 0 0 0)).stands 0 1 .illegal (ins 1 0x3F 0 0 0 0) = true ∧
    (let w := ins 0x18 0 0 0 0 0 + 7 * 2 ^ 35
     (stand 0 w).stands 0 0 .illegal w = true ∧ (stand 0 w).guarded 0 0 w = true) := by decide
/-- Tile 0 with scalar registers and memory words. -/
def standWith (c w : Nat) (r : List (Nat × Nat)) (m : List (Nat × Nat)) : State :=
  withTile { tileAt c w with mem := m.map (fun (e : Nat × Nat) => (e.1, storeWord e.2)), sregs := r.map (fun (e : Nat × Nat) => (e.1, BitVec.ofNat 48 e.2)) }
/-- Tile 0 with its first word poisoned. -/
def poisoned (w : Nat) (r : List (Nat × Nat)) : State := withTile { tileAt 0 w with mem := [(5, poisonStored)], sregs := r.map (fun (e : Nat × Nat) => (e.1, BitVec.ofNat 48 e.2)) }

theorem test_add_wraps : ((after (.alu 0 0) (standWith 0 (ins 1 0 1 2 3 0) [(2, 2 ^ 48 - 1), (3, 5)] [])).sreg 0 0 1).toNat = 4 := by decide
theorem test_div_by_zero : ((after (.muldiv 0 0) (standWith 0 (ins 4 3 1 2 3 0) [(2, 7)] [])).sreg 0 0 1).toNat = 2 ^ 48 - 1 := by decide
theorem test_rem_overflow : ((after (.muldiv 0 0) (standWith 0 (ins 4 5 1 2 3 0) [(2, 2 ^ 47), (3, 2 ^ 48 - 1)] [])).sreg 0 0 1).toNat = 0 := by decide
theorem test_div_overflow : ((after (.muldiv 0 0) (standWith 0 (ins 4 3 1 2 3 0) [(2, 2 ^ 47), (3, 2 ^ 48 - 1)] [])).sreg 0 0 1).toNat = 2 ^ 47 := by decide
theorem test_addi_negative : ((after (.alui 0 0) (standWith 0 (ins 8 0 1 2 0 (2 ^ 22 - 3)) [(2, 1)] [])).sreg 0 0 1).toNat = 2 ^ 48 - 2 := by decide
theorem test_s0_stays : ((after (.alui 0 0) (standWith 0 (ins 8 0 0 2 0 9) [(2, 1)] [])).sreg 0 0 0).toNat = 0 := by decide
theorem test_li : ((after (.li 0 0) (stand 0 (ins 9 1 1 0x1F 0 0x3FFFFF))).sreg 0 0 1).toNat = 2 ^ 48 - 1 := by decide
theorem test_setvl : ((after (.setvl 0 0) (standWith 0 (ins 0x12 0 1 2 0 7) [(2, 4096)] [])).ctx 0 0).vl = 4096 := by decide
theorem test_cmp : ((after (.cmp 0 0) (standWith 0 (ins 2 2 0 2 3 512) [(2, 2 ^ 48 - 1), (3, 1)] [])).tile 0).pred 0 1 = true := by decide
theorem test_cmpi : ((after (.cmpi 0 0) (standWith 0 (ins 0xA 0 1 2 0 5) [(2, 5)] [])).tile 0).pred 0 1 = true := by decide
theorem test_plog : ((after (.plog 0 0) (stand 0 (ins 3 1 0 0 1 512))).tile 0).pred 0 1 = true := by decide
theorem test_br : ((after (.br 0 0) (stand 0 (ins 0x18 0 0 0 0 (2 ^ 18 - 4)))).ctx 0 0).pc = 60 := by decide
theorem test_call : ((after (.call 0 0) (stand 0 (0x18 * 2 ^ 42 + 2 ^ 35 + 2 ^ 25 + 5))).sreg 0 0 1).toNat = 65 := by decide
theorem test_jr : ((after (.jr 0 0) (standWith 0 (0x18 * 2 ^ 42 + 2 * 2 ^ 35 + 2 ^ 30 + 3) [(1, 70)] [])).ctx 0 0).pc = 73 := by decide
theorem test_loop_ends : ((after (.loop 0 0) (standWith 0 (0x18 * 2 ^ 42 + 3 * 2 ^ 35 + 2 ^ 30 + 9) [(1, 1)] [])).ctx 0 0).pc = 65 := by decide
theorem test_callr : ((after (.callr 0 0) (standWith 0 (0x18 * 2 ^ 42 + 4 * 2 ^ 35 + 2 ^ 30 + 2 * 2 ^ 25) [(1, 80)] [])).ctx 0 0).pc = 80 := by decide
theorem test_illegal_faults : (after (.illegal 0 0) (stand 0 0)).g F.SEQ_FAULT_A_CAUSE 0 = 1 := by decide

theorem witness_LoadRows :
    let h := ins 0xC 0 1 2 0 0 + 2 ^ 21
    let e := ins 0xE 0 1 2 0 0 + 3 * 2 ^ 19 + 2 * 2 ^ 15
    let s := fun (w : Nat) => standWith 0 w [(2, 5)] [(5, 77 * 2 ^ 48)]
    (s h).stands 0 0 .ldh h = true ∧ accReady 0 (halfAddr (s h) 0 0 h) true false (s h) = true ∧ accFault (s h) 0 (halfAddr (s h) 0 0 h) false = none ∧ (s h).word 0 (halfAddr (s h) 0 0 h) = .clean (77 * 2 ^ 48) ∧
    (s e).stands 0 0 .lde e = true ∧ elemOk e = true ∧ accReady 0 (elemAddr (s e) 0 0 e) true false (s e) = true ∧ accFault (s e) 0 (elemAddr (s e) 0 0 e) false = none ∧ (s e).word 0 (elemAddr (s e) 0 0 e) = .clean (77 * 2 ^ 48) ∧
    ((after (.ldh 0 0) (s h)).sreg 0 0 1).toNat = 77 := by decide
theorem witness_StoreRows :
    let h := ins 0xD 0 1 2 0 0 + 2 ^ 21
    let e := ins 0xF 0 1 2 0 0 + 3 * 2 ^ 19 + 2 ^ 15
    let s := fun (w : Nat) => standWith 0 w [(1, 9), (2, 3000)] [(3000, 77)]
    (s h).stands 0 0 .sth h = true ∧ accReady 0 (halfAddr (s h) 0 0 h) true true (s h) = true ∧ accFault (s h) 0 (halfAddr (s h) 0 0 h) true = none ∧ (s h).word 0 (halfAddr (s h) 0 0 h) = .clean 77 ∧
    (s e).stands 0 0 .ste e = true ∧ elemOk e = true ∧ accReady 0 (elemAddr (s e) 0 0 e) true true (s e) = true ∧ accFault (s e) 0 (elemAddr (s e) 0 0 e) true = none ∧
    (after (.sth 0 0) (s h)).word 0 3000 = .clean (77 + 9 * 2 ^ 48) ∧ (after (.ste 0 0) (s e)).word 0 3000 = .clean (77 + 9 * 2 ^ 16) := by decide
theorem witness_AccessFaults :
    let l := ins 0xC 0 1 2 0 0
    let h := ins 0xD 0 1 2 0 0
    let e := ins 0xE 0 1 2 0 0 + 7 * 2 ^ 19
    let s := fun (w a : Nat) => standWith 0 w [(2, a)] []
    (s l padWords).stands 0 0 .ldh l = true ∧ accFault (s l padWords) 0 (halfAddr (s l padWords) 0 0 l) false = some 3 ∧ accFault (s h 2047) 0 (halfAddr (s h 2047) 0 0 h) true = some 5 ∧
    accFault (s h 2048) 0 (halfAddr (s h 2048) 0 0 h) true = none ∧ (s e 5).stands 0 0 .lde e = true ∧ elemOk e = false ∧
    (poisoned l [(2, 5)]).word 0 5 = .poison ∧ accReady 0 5 true false (poisoned l [(2, 5)]) = true ∧
    (after (.ldh 0 0) (s l padWords)).g F.SEQ_FAULT_A_CAUSE 0 = 3 ∧ (after (.lde 0 0) (s e 5)).g F.SEQ_FAULT_A_CAUSE 0 = 1 ∧ (after (.ldh 0 0) (poisoned l [(2, 5)])).g F.SEQ_FAULT_A_CAUSE 0 = 0x0A := by decide
theorem witness_SpecialRegisterRows :
    let r := fun (k : Nat) => ins 0x10 0 1 0 0 k
    let m := fun (k : Nat) => ins 0x11 0 0 2 0 k
    (∀ k ∈ [0, 8, 9, 0xFF, 0x100, 0x123], (stand 0 (r k)).stands 0 0 .mfs (r k) = true) ∧ (∀ k ∈ [0, 6, 9, 0x104, 0x123, 0x124], (standWith 0 (m k) [(2, 77)] []).stands 0 0 .mts (m k) = true) ∧
    ((after (.mts 0 0) (standWith 0 (m 6) [(2, 5000)] [])).ctx 0 0).vl = 4096 ∧ (after (.mfs 0 0) (stand 0 (r 10))).g F.SEQ_FAULT_A_CAUSE 0 = 1 ∧ (after (.mts 0 0) (stand 0 (m 0x124))).g F.SEQ_FAULT_A_CAUSE 0 = 1 ∧
    (after (.mts 0 0) (standWith 0 (m 0x108) [(2, 1)] [])).g F.TILE_AMODE_OVF_NAN 0 = 1 := by decide

/-- Tile 0 with a wait of the main context. -/
def waiting (x : Wait) : State := withTile (let t := tileAt 0 0; { t with main := { t.main with wait := x } })
theorem witness_SyncRows :
    let y := fun (fn sd sa imm : Nat) => ins 0x30 fn sd sa 0 imm
    let f1 := y 4 0 0 1
    let busy := withTile { tileAt 0 f1 with instrs := [⟨0, 0, false, 0, 0, 0, 0, 0, 0, 0, .queued, 0, false, 0, 0, 0, false, []⟩], nextId := 1 }
    ((stand 0 (y 0 0 0 0)).stands 0 0 .nop (y 0 0 0 0) && (stand 0 (y 1 0 0 0)).stands 0 0 .land (y 1 0 0 0) && (stand 0 (y 2 1 0 0)).stands 0 0 .landOpen (y 2 1 0 0) && (stand 0 (y 3 0 2 0)).stands 0 0 .waitLand (y 3 0 2 0) &&
      (stand 0 f1).stands 0 0 .fence f1 && (stand 0 (y 5 0 0 0)).stands 0 0 .halt (y 5 0 0 0) && (stand 0 (y 7 0 0 0x1FE)).stands 0 0 .segOn (y 7 0 0 0x1FE) && (stand 0 (y 7 0 0 0xFE)).stands 0 0 .segOff (y 7 0 0 0xFE)) = true ∧
    (stand 0 f1).fenceClear 0 0 1 false 0 = true ∧ busy.stands 0 0 .fence f1 = true ∧ busy.fenceClear 0 0 1 false 1 = false ∧ ((after (.fence 0 0) busy).ctx 0 0).wait = .fence 1 false 1 ∧
    ((after (.land 0 0) (stand 0 (y 1 0 0 0))).ctx 0 0).wait = .drain 0 0 0 ∧ ((after (.halt 0 0) (stand 0 (y 5 0 0 0))).ctx 0 0).wait = .drain 2 0 0 ∧ ((after (.landOpen 0 0) (stand 0 (y 2 1 0 0))).ctx 0 0).wait = .drain 1 1 0 ∧
    ((after (.segOff 0 0) (stand 0 (y 7 0 0 0xFE))).ctx 0 0).wait = .segOff 0xFE ∧ ((after (.segOn 0 0) (stand 0 (y 7 0 0 0x1FE))).ctx 0 0).wait = .run ∧
    ((after (.segOn 0 0) ((stand 0 (y 7 0 0 0x1FE)).w F.TILE_SEG_ON 0 0 1)).ctx 0 0).wait = .segOn 0xFE ∧
    ((after (.segOff 0 0) ((stand 0 (y 7 0 0 0xFE)).w F.TILE_SEG_ON 0 0 1)).ctx 0 0).wait = .run := by decide
/-- WAIT.LAND of landings 1 and 2 in flight 2, where landing 1 is done. -/
theorem witness_WaitLand :
    let w := ins 0x30 3 0 2 0 0
    let s := fun (tok : Nat) => put (withTile { tileAt 0 w with flight := 2, sregs := [(2, BitVec.ofNat 48 tok)] }) [(F.LAND_NUM_DONE, 0, 0, 1)]
    (∀ tok ∈ [1, 2], (s tok).stands 0 0 .waitLand w = true ∧ ((s tok).sreg 0 0 2).toNat % 2 ^ 32 = tok ∧ ¬ 0 < diff32 tok ((s tok).tile 0).flight) ∧ (s 1).landed 0 1 = true ∧ (s 2).landed 0 2 = false ∧
    ((after (.waitLand 0 0) (s 1)).ctx 0 0).wait = .run ∧ ((after (.waitLand 0 0) (s 2)).ctx 0 0).wait = .held 2 := by decide
theorem witness_HandlerReturn :
    let w := ins 0x30 6 0 0 0 0
    let s := withTile { tileAt 1 w with running := some ⟨0, 1, 1, 1⟩ }
    s.stands 0 1 .hret w = true ∧ s.guarded 0 1 w = true ∧ ((after (.hret 0 1) s).ctx 0 1).wait = .idle ∧ (after (.hret 0 1) s).g F.SEQ_HANDLED_COUNT 0 = 1 := by decide
theorem witness_WaitsEnd :
    (waiting (.fence 31 true 0)).alive 0 = true ∧ (waiting (.fence 31 true 0)).fenceClear 0 0 31 true 0 = true ∧ ((after (.fenceDone 0 0) (waiting (.fence 31 true 0))).ctx 0 0).wait = .run ∧
    ((waiting (.segOff 0xFE)).tile 0).segsNamed 0xFE = false ∧ (after (.segmentPowerDown 0) (waiting (.segOff 0xFE))).g F.TILE_SEG_ON 0 = 1 ∧
    ((waiting (.alcClose 3 (some 5))).tile 0).alcBusy 3 = false ∧ (after (.alcoveCloseRetire 0 0) (waiting (.alcClose 3 (some 5)))).alcDesc 0 3 = 5 ∧ (after (.alcoveCloseRetire 0 0) (waiting (.alcClose 3 (some 5)))).alcIsOpen 0 3 = true ∧
    ((after (.alcoveCloseRetire 0 0) (waiting (.alcClose 15 none))).ctx 0 0).wait = .run ∧
    (let s := put (waiting (.segOn 0x80)) [(F.TILE_SEG_ON, 0, 0, 1), (F.TILE_SEG_CLEARING, 0, 0, 0x80)]
     s.g F.TILE_SEG_CLEARING 0 / 2 ^ 7 % 2 = 1 ∧ (after (.segmentClearDone 0 7) s).g F.TILE_SEG_ON 0 = 0x81 ∧ ((after (.segmentClearDone 0 7) s).ctx 0 0).wait = .run ∧ (after (.segmentClearDone 0 7) s).g F.TILE_SEG_CLEARING 0 = 0) := by decide
theorem witness_TileArrives :
    (∀ k ∈ [0, 1, 2], ((waiting (.drain k 1 0)).partOf 0 = some 0 ∧ ((waiting (.drain k 1 0)).tile 0).drained 0 = true ∧ ((waiting (.drain k 1 0)).tile 0).dbgStop = false)) ∧
    ((after (.tileArrival 0) (waiting (.drain 0 1 0))).ctx 0 0).wait = .held 1 ∧ ((after (.tileArrival 0) (waiting (.drain 1 1 0))).sreg 0 0 1).toNat = 1 ∧ ((after (.tileArrival 0) (waiting (.drain 2 1 0))).ctx 0 0).wait = .ended ∧
    (let s := withTile (let t := tileAt 0 0; { t with flight := 4, main := { t.main with wait := .drain 0 0 0 } })
     0 < diff32 (add32 (add32 4 1) (2 ^ 32 - 4)) (s.g F.LAND_NUM_DONE 0) ∧ ((after (.tileArrival 0) s).ctx 0 0).wait = .drain 0 0 0) := by decide
theorem witness_LineFilled :
    let t := tileAt 0 0
    let s := withTile { t with lines := [], main := { t.main with wait := .fill 2 }, mem := [(32, storeWord (9 + 7 * 2 ^ 48)), (33, poisonStored)] }
    s.fillWanted 0 2 = true ∧ s.word 0 32 = .clean (9 + 7 * 2 ^ 48) ∧ s.word 0 33 = .poison ∧ ((after (.fetchLineFill 0 2) s).tile 0).fetched 65 = some (7, false) ∧
    ((after (.fetchLineFill 0 2) s).tile 0).fetched 66 = some (0, true) ∧ ((after (.fetchLineFill 0 2) s).ctx 0 0).wait = .run := by decide

/-- Fields of a descriptor: bit and value. -/
def fields (l : List (Nat × Nat)) : Nat := l.foldl (fun (a : Nat) (e : Nat × Nat) => a + e.2 * 2 ^ e.1) 0
/-- A descriptor at word 2500, and the instruction that names it: engine opcode, AUX and TRY bits. -/
def descAt (d : Nat) : List (Nat × Nat) := (List.range 4).filterMap (fun (k : Nat) => if d / 2 ^ (96 * k) % 2 ^ 96 = 0 then none else some (2500 + k, d / 2 ^ (96 * k) % 2 ^ 96))
def eng (op low : Nat) : Nat := op * 2 ^ 42 + 2500 * 2 ^ 14 + 3 * 2 ^ 10 + low
/-- INT8 panels at 3000 and 3100, drained as INT32 rows at 3200; FP32 elements at 3000 and 3010 added to 3020; one run of INT8 at byte 0 to 3000; one entry at 2600. -/
def mxD : Nat := fields [(0, 9), (4, 9), (15, 1), (19, 13), (28, 1), (44, 11), (96, 3000), (115, 1), (131, 3100), (150, 1), (166, 3200)]
def vxD : Nat := fields [(40, 1), (52, 3000), (71, 3010), (115, 3020)]
def stD : Nat := fields [(4, 9), (8, 9), (22, 3000), (138, 1), (150, 1), (162, 1)]
def xcD : Nat := fields [(0, 2600), (19, 1), (32, 3000), (51, 3010), (70, 3400), (96, 3400)]
def engD (k : Nat) : Nat := if k = 0 then mxD else if k = 1 then vxD else if k = 2 then stD else xcD
/-- Tile 0 before the dispatch of engine k's instruction, with a word of A and of B. -/
def issuing (k low : Nat) : State := standWith 0 (eng (0x20 + k) low) [] (descAt (engD k) ++ [(2600, fields [(0, 3000), (19, 2), (31, 1), (44, 50)]), (3000, 3), (3100, 5)])
/-- Tile 0 with instructions of engine k in a stage. -/
def queued (k : Nat) (g : Stage) : State :=
  withTile { (issuing k 0).tile 0 with instrs := [⟨0, k, false, 64, 0, 0, engD k, 8, 0, 0, g, 0, false, 0, 0, 0, false, []⟩], nextId := 1 }
/-- The same with a descriptor of its own. -/
def queuedWith (k d : Nat) (g : Stage) : State :=
  withTile { (issuing k 0).tile 0 with instrs := [⟨0, k, false, 64, 0, 0, d, 8, 0, 0, g, 0, false, 0, 0, 0, false, []⟩], nextId := 1 }

theorem witness_DispatchRows :
    (∀ k ∈ [0, 1, 2, 3], (issuing k 0).guarded 0 0 (eng (0x20 + k) 0) = true ∧ (issuing k 0).dispatches 0 0 (eng (0x20 + k) 0) k (engD k) = true) ∧
    ((issuing 0 0).stands 0 0 .mx (eng 0x20 0) && (issuing 1 0).stands 0 0 .vx (eng 0x21 0) && (issuing 2 0).stands 0 0 .st (eng 0x22 0) && (issuing 3 0).stands 0 0 .xc (eng 0x23 0)) = true ∧
    ((after (.mx 0 0) (issuing 0 0)).tile 0).instrs.map (fun (i : EngInstr) => (i.id, i.eng, i.desc, i.stage)) = [(0, 0, mxD, .queued)] ∧
    ((after (.xc 0 0) (issuing 3 0)).tile 0).pred 0 3 = true ∧ ((after (.st 0 0) (issuing 2 0)).tile 0).sb.length = 1 := by decide
/-- A full matrix queue: 14 main instructions. -/
def full (low : Nat) : State :=
  withTile { (issuing 0 low).tile 0 with instrs := (List.range 14).map (fun (k : Nat) => ⟨k, 0, false, 64, 0, 0, mxD, 8, 0, 0, .queued, 0, false, 0, 0, 0, false, []⟩), nextId := 14 }
theorem witness_DispatchStall :
    (∀ low ∈ [0, 2 ^ 13], (full low).guarded 0 0 (eng 0x20 low) = true ∧ (full low).stands 0 0 .mx (eng 0x20 low) = true ∧ ((full low).tile 0).queueFree 0 0 = false) ∧
    ((after (.mx 0 0) (full 0)).ctx 0 0).wait = .dispatch 0 (eng 0x20 0) ∧ ((after (.mx 0 0) (full 0)).ctx 0 0).pc = 64 ∧ ((after (.mx 0 0) (full (2 ^ 13))).ctx 0 0).pc = 65 ∧
    (let t := (issuing 0 0).tile 0
     let s := withTile { t with main := { t.main with wait := .dispatch 2 (eng 0x20 0) } }
     s.alive 0 = true ∧ s.dispatches 0 0 (eng 0x20 0) 0 mxD = true ∧ kindOf (eng 0x20 0) = .mx ∧ ((after (.dispatchAfterStall 0 0) s).ctx 0 0).pc = 65 ∧ ((after (.dispatchAfterStall 0 0) s).tile 0).instrs.length = 1) := by decide
def alcD : Nat := fields [(0, 2100), (19, 2200), (40, 1), (41, 1), (42, 1), (58, 1)]
theorem witness_AlcoveRows :
    let o := eng 0x25 (15 * 2 ^ 6)
    let c := eng 0x25 (15 * 2 ^ 6 + 2 ^ 5)
    let s := fun (w : Nat) => standWith 0 w [] (descAt alcD)
    let q := put (s c) [(F.TILE_ALC_OPEN_OPEN, 0, 0, 2 ^ 15 + 1)]
    (s o).guarded 0 0 o = true ∧ ((s o).tile 0).alcBusy 15 = false ∧ (s o).stands 0 0 .alcOpen o = true ∧ sbHazard ((s o).tile 0).sb (descAddr (s o) 0 0 o) 1 false = false ∧
    (s o).descFault 0 5 (descAddr (s o) 0 0 o) 1 = none ∧ (s o).word 0 (descAddr (s o) 0 0 o) = .clean alcD ∧ (s o).alcRefused 0 alcD = false ∧ (after (.alcOpen 0 0) (s o)).alcIsOpen 0 15 = true ∧
    (after (.alcOpen 0 0) (s o)).alcDesc 0 15 = alcD ∧ q.stands 0 0 .alcClose c = true ∧ q.alcIsOpen 0 15 = true ∧ (after (.alcClose 0 0) q).alcIsOpen 0 15 = false ∧ (after (.alcClose 0 0) q).alcIsOpen 0 0 = true := by decide

theorem witness_EngineStarts :
    ((queued 0 .queued).partOf 0).isSome = true ∧ ((queued 0 .queued).tile 0).mxHead.isSome = true ∧ ((queued 0 .queued).tile 0).mxRunning = none ∧ sbReady ((queued 0 .queued).tile 0).sb 0 [] (mxRegions mxD) = true ∧
    ((after (.mxStart 0) (queued 0 .queued)).tile 0).mxRunning.isSome = true ∧
    ((((queued 1 .queued).tile 0).vxCandidate 0).map (·.map (·.id))) = some [0] ∧ ((after (.vxStart 0 0) (queued 1 .queued)).tile 0).vxRunning false ≠ [] ∧
    ((queued 2 .queued).tile 0).instrs.all (fun i => !((queued 2 .queued).tile 0).stBlocked i && St.dir i.desc == 0) = true ∧ ((after (.stStart 0 0) (queued 2 .queued)).tile 0).instrs.map (·.stage) = [.running] ∧
    ((((queued 3 .queued).tile 0).exchanges.find? (fun i => i.stage == .queued)).map (·.id)) = some 0 ∧ (queued 3 .queued).landFaulted 0 (xcAfter ⟨0, 3, false, 64, 0, 0, xcD, 8, 0, 0, .queued, 0, false, 0, 0, 0, false, []⟩) = false ∧
    ((queued 3 .queued).tile 0).exchanges.all (fun i => sbReady ((queued 3 .queued).tile 0).sb i.id [] (engRegions 3 0 i.desc 0) && (queued 3 .queued).landed 0 (xcAfter i)) = true ∧
    ((after (.xcStart 0) (queued 3 .queued)).tile 0).instrs.map (·.stage) = [.running] := by decide
/-- INIT 1 and 2, no K-steps with and without a drain, a store, and an exchange without entries. -/
theorem witness_EngineStartForms :
    (∀ d ∈ [mxD + 2 ^ 13, mxD + 2 * 2 ^ 13, mxD - 2 ^ 28, mxD - 2 ^ 28 - 2 ^ 15], ((queuedWith 0 d .queued).tile 0).mxHead.isSome = true ∧ ((queuedWith 0 d .queued).tile 0).mxRunning = none ∧
      sbReady ((queuedWith 0 d .queued).tile 0).sb 0 [] (mxRegions d) = true) ∧
    (Mx.init (mxD + 2 ^ 13), Mx.init (mxD + 2 * 2 ^ 13), Mx.ksteps (mxD - 2 ^ 28), Mx.drain (mxD - 2 ^ 28 - 2 ^ 15)) = (1, 2, 0, 0) ∧
    ((after (.mxStart 0) (queuedWith 0 (mxD - 2 ^ 28) .queued)).tile 0).drains.map (·.id) = [0] ∧ ((after (.mxStart 0) (queuedWith 0 (mxD - 2 ^ 28 - 2 ^ 15) .queued)).tile 0).instrs = [] ∧
    (let s := queuedWith 2 (stD + 1) .queued
     ((s.tile 0).instr? 0).isSome = true ∧ sbReady (s.tile 0).sb 0 [] (stRegions (stD + 1)) = true ∧ (s.tile 0).instrs.all (fun i => !(s.tile 0).stBlocked i) = true ∧
       ((after (.stStart 0 0) s).tile 0).lineOut.map (fun l => (l.addr, l.data.toNat % 2 ^ 96)) = [(0, 3), (64, 0), (128, 0)]) ∧
    (let s := queuedWith 3 (xcD - 2 ^ 19) .queued
     (s.tile 0).exchanges.map (fun i => (s.landFaulted 0 (xcAfter i), s.landed 0 (xcAfter i), sbReady (s.tile 0).sb i.id [] (engRegions 3 0 i.desc 0))) = [(false, true, true)] ∧
       ((after (.xcStart 0) s).tile 0).instrs.all (fun i => i.stage == .sent) = true) := by decide

/-- The first of two K-steps, and a drain of two words. -/
theorem witness_MatrixSteps :
    let d := fields [(0, 9), (4, 9), (28, 2), (96, 3000), (115, 2), (131, 3100), (150, 2)]
    let t := (issuing 0 0).tile 0
    let s := withTile { t with instrs := [⟨0, 0, false, 64, 0, 0, d, 8, 0, 0, .running, 0, false, 0, 0, 0, false, []⟩], nextId := 1 }
    (s.tile 0).mxRunning = (s.tile 0).instr? 0 ∧ 0 + 1 ≠ Mx.ksteps d ∧
    (let last := fun (e : Nat) => withTile { t with instrs := [⟨0, 0, false, 64, 0, 0, e, 8, 0, 0, .running, 1, false, 0, 0, 0, false, []⟩], nextId := 1 }
     (∀ e ∈ [d, d + 2 ^ 15], ((last e).tile 0).mxRunning = ((last e).tile 0).instr? 0 ∧ 1 + 1 = Mx.ksteps e) ∧ (Mx.drain d, Mx.drain (d + 2 ^ 15)) = (0, 1)) ∧
    (let j : DrainJob := ⟨0, [⟨3200, 7, false, none⟩, ⟨3201, 9, true, none⟩], [], 0, 0⟩
     let q := withTile { t with instrs := [⟨0, 0, false, 64, 0, 0, mxD, 8, 0, 0, .draining, 1, false, 0, 0, 0, false, []⟩], nextId := 1, drains := [j] }
     (q.tile 0).drains.head? = some j ∧ ((q.tile 0).instr? j.id).isSome = true ∧ (∀ w ∈ j.words, w.byte = none) ∧ (j.words.map (·.addr)).Nodup ∧ (after (.mxDrainEnd 0) q).word 0 3200 = .clean 7 ∧
       (after (.mxDrainEnd 0) q).word 0 3201 = .poison ∧ ((after (.mxDrainEnd 0) q).tile 0).instrs = []) := by decide
/-- FP32 elements 1.0 and 2.0 added: 3.0. -/
theorem witness_VectorDone :
    let i : EngInstr := ⟨0, 1, false, 64, 0, 0, vxD, 8, 0, 0, .running, 0, false, 0, 0, 0, false, []⟩
    let s := withTile { (standWith 0 0 [] [(3000, 0x3F800000), (3010, 0x40000000)]).tile 0 with instrs := [i], nextId := 1 }
    let s1 := (s.readWords 0 0 i.flight (vxReadList i.desc i.vl)).1
    let r := (s1.tile 0).vxRun ⟨vxIeee i.desc, s1.roundCtx 0 i (Vx.rm i.desc)⟩ [] i.desc i.vl
    (s.tile 0).vxRunning false = [i] ∧ (∀ w ∈ r.words, w.byte = none) ∧ r.words.map (·.addr) = [3020, 3021, 3022] ∧ (r.words.map (·.addr)).Nodup ∧ (after (.vxDone 0 0) s).word 0 3020 = .clean 0x40400000 ∧
    (after (.vxDone 0 0) s).g F.ENG_VX_ELEMS_COUNT 0 = 8 ∧ ((after (.vxDone 0 0) s).tile 0).instrs = [] := by decide
/-- The first word group of a load of two, all bytes 1, and the write of a line in a host-output region's last line. -/
theorem witness_StreamRows :
    let d := fields [(4, 9), (8, 9), (22, 3000), (138, 2), (150, 1), (162, 1)]
    let line : LineVal := ⟨BitVec.ofNat 512 ((2 ^ 512 - 1) / 255), false⟩
    let t := (issuing 2 0).tile 0
    let i : EngInstr := ⟨0, 2, false, 64, 0, 0, d, 8, 0, 0, .running, 0, false, 0, 0, 0, false, []⟩
    let s := withTile { t with instrs := [i], nextId := 1, lineResp := [⟨0, 0, line⟩, ⟨0, 64, line⟩, ⟨0, 128, line⟩, ⟨0, 192, line⟩, ⟨0, 256, line⟩, ⟨0, 320, line⟩] }
    let o := (s.tile 0).stLoadChunk (s.roundCtx 0 i (St.rm d)) 0 d 0
    (stChunks d, stChunk d) = (2, 1) ∧ ((s.tile 0).stLines d 0).all (fun a => (s.tile 0).lineResp.any (fun r => r.id == 0 && r.addr == a)) = true ∧ (after (.stWordGroupArrival 0 0) s).word 0 3015 = .clean ((2 ^ 96 - 1) / 255) ∧
    ((after (.stWordGroupArrival 0 0) s).tile 0).instrs.map (·.next) = [1] ∧ (∀ w ∈ o.words, w.byte = none) ∧ (o.words.map (·.addr)).Nodup ∧
    (let q : State := { withTile { t with lineOut := [⟨1, 0, 0, 0, false, true, none, false⟩, ⟨1, 128, 0, 0, false, true, none, false⟩] } with hostOut := [(0, ⟨3, 0, 64, []⟩)] }
     ((q.tile 0).lineOut.find? (fun l => l.issued && l.peer.isNone && !l.held)).isSome = true ∧ q.partOf 0 = some 0 ∧ ((after (.stWriteAck 0) q).tile 0).lineOut.map (·.addr) = [128] ∧
       Sparse.find? (after (.stWriteAck 0) q).hostOut 0 = some ⟨3, 0, 64, [0]⟩) := by decide

/-- The reason of a refused access. -/
def refusal (r : Except (Nat × Nat) Nat) : Option (Nat × Nat) := match r with | .error e => some e | .ok _ => none
/-- Packets on the mesh. -/
def mesh (s : State) (l : List Packet) : State := { s with net := l, nextPkt := 100 }
/-- A packet of partition 0 from hall 0: its id, destination hall, place, whether it has arrived, body. -/
def pkt (id dst here : Nat) (arr : Bool) (b : Body) : Packet := ⟨id, 0, 0, dst, 0, here, 1, arr, none, b⟩
/-- Tile 0 with an alcove at 2100 to 2200, open to exchange of class 1, class 1 and 2 messages and collectives, and a store over it. -/
def alcove : State :=
  put (withTile { tileAt 0 0 with mem := [(2150, storeWord 1), (2152, storeWord 3)] })
    [(F.TILE_ALC_OPEN_OPEN, 0, 0, 1), (F.TILE_ALC_A_DESC_LO, 0, 0, (fields [(0, 2100), (19, 2200), (40, 1), (41, 1), (42, 15), (58, 15)]) % 2 ^ 64),
     (F.TILE_ALC_B_DESC_HI, 0, 0, (fields [(0, 2100), (19, 2200), (40, 1), (41, 1), (42, 15), (58, 15)]) / 2 ^ 64)]
theorem witness_MeshRows :
    let b : Body := .exch 0 4 0 0 2150 [(7, false)]
    let away := mesh live [pkt 3 13 0 false b]
    let here := mesh live [pkt 3 0 0 false b]
    let other := mesh live [{ pkt 3 0 0 false b with tag := 1 }]
    away.firstOfFlow (pkt 3 13 0 false b) = true ∧ ((after (.meshPacket 0) away).net.map (·.here)) = [1] ∧ here.tagOk (pkt 3 0 0 false b) = true ∧ ((after (.meshPacket 0) here).net.map (·.arrived)) = [true] ∧
    other.tagOk { pkt 3 0 0 false b with tag := 1 } = false ∧ (after (.meshPacket 0) other).net = [] ∧ (after (.meshPacket 0) other).g F.HALL_XPART_DROP_COUNT 0 = 1 ∧
    (let g : GroupEntry := ⟨0, true, 0, BitVec.ofNat 64 (2 ^ 63 + 1), 2⟩
     let m : Body := .mcast 0 4 0 9 2150 false [(7, false)]
     let s := (mesh live [pkt 3 0 0 true m]).upHall 0 (fun x => { x with groups := [(9, g)] })
     Sparse.find? (s.hall 0).groups 9 = some g ∧ s.firstOfFlow (pkt 3 0 0 true m) = true ∧ (after (.multicastRoot 0) s).ban = [⟨banRouter 0, 0, .exCount 4 0 2⟩] ∧
       (after (.multicastRoot 0) s).net.map (·.body.tile?) = [some 0, some 63]) ∧
    (let s := queued 3 .running
     let e := fields [(0, 3000), (19, 2), (31, 1), (44, 50)]
     s.word 0 2600 = .clean e ∧ s.xeRefused 0 xcD e = false ∧ Xe.mc e = 0 ∧ Xe.rop e = 0 ∧ (s.tile 0).xcUnack.length < 64 ∧ ((s.tile 0).exchanges.find? (fun i => i.stage == .running)).isSome = true ∧
       (after (.xcEntrySend 0) s).net.map (·.body) = [.exch 0 0 0 1 50 [(3, false), (0, false)]] ∧ (after (.xcEntrySend 0) s).g F.XC_SENT_WORDS 0 = 2) := by decide
theorem witness_DeliveryRows :
    let b : Nat → Body := fun (a : Nat) => .exch 0 4 0 0 a [(7, false), (9, true)]
    let s := fun (a : Nat) => mesh alcove [pkt 3 0 0 true (b a)]
    (s 2150).firstOfFlow (pkt 3 0 0 true (b 2150)) = true ∧ (s 2150).portHeld (pkt 3 0 0 true (b 2150)) 0 = false ∧ ((s 2150).alcoveCheck 0 2150 2 true 0 1 ⟨some 0, none, 0⟩).toOption = some 0 ∧ ((s 2198).alcoveCheck 0 2198 2 true 0 1 ⟨some 0, none, 0⟩).toOption = some 0 ∧
    refusal ((s 2199).alcoveCheck 0 2199 2 true 0 1 ⟨some 0, none, 0⟩) = some (1, 0) ∧ (after (.exchangeDelivery 0) (s 2150)).word 0 2150 = .clean 7 ∧ (after (.exchangeDelivery 0) (s 2150)).word 0 2151 = .poison ∧
    (after (.exchangeDelivery 0) (s 2150)).word 0 2152 = .clean 3 ∧ (after (.exchangeDelivery 0) (s 2199)).ban = [⟨0, 0, .exAck 4 0 1 0 2199 none⟩] ∧ (after (.exchangeDelivery 0) (s 2199)).g F.TILE_ALCOVE_VIOL_COUNT 0 = 1 ∧
    (let r : Body := .red 0 4 0 0 2150 5 1 1 [(7, false)]
     let q := fun (got : List RedContrib) => (mesh alcove [pkt 3 0 0 true r]).upHall 0 (fun x => { x with reds := [(5, ⟨0, 1, 2⟩)], pending := [(5, ⟨0, 2150, 1, got⟩)] })
     (q []).firstOfFlow (pkt 3 0 0 true r) = true ∧ Sparse.find? ((q []).hall 0).reds 5 = some ⟨0, 1, 2⟩ ∧ Sparse.get ⟨0, 2150, 1, []⟩ ((q []).hall 0).pending 5 = ⟨0, 2150, 1, []⟩ ∧
       Sparse.find? ((after (.reductionContribution 0) (q [])).hall 0).pending 5 = some ⟨0, 2150, 1, [⟨1, 0, 4, 0, 0⟩]⟩ ∧
       Sparse.find? ((after (.reductionContribution 0) (q [⟨0, 0, 4, 0, 0⟩])).hall 0).pending 5 = none ∧
       (after (.reductionContribution 0) (q [⟨0, 0, 4, 0, 0⟩])).net.map (·.arrived) = [true]) ∧
    (let u := { withTile { tileAt 0 0 with xcUnack := [⟨4, 0, some 2, 0⟩, ⟨4, 1, some 1, 0⟩] } with ban := [⟨0, 0, .exAck 4 1 0 0 0 none⟩, ⟨1, 0, .exAck 4 0 0 1 0 none⟩, ⟨2, 0, .exAck 4 0 1 0 2150 none⟩] }
     (u.banAt 0).isSome = true ∧ (u.banAt 1).isSome = true ∧ ((after (.xcAck 0) u).tile 0).xcUnack = [⟨4, 0, some 2, 0⟩] ∧ ((after (.xcAck 1) u).tile 0).xcUnack = [⟨4, 0, some 2, 1⟩, ⟨4, 1, some 1, 0⟩] ∧ (u.banAt 2).isSome = true ∧ (after (.xcAck 2) u).g F.XC_NACK_LAST_REASON 0 = 1) := by decide

/-- The alcove's tile before MSG function f with descriptor d. -/
def msgIssue (f d : Nat) (l : List (Fld × Nat × Nat × Nat)) : State :=
  let w := eng 0x24 (f * 2 ^ 7)
  put { alcove with tiles := [(0, { (alcove.tile 0) with lines := (tileAt 0 w).lines, mem := (descAt d).map (fun (e : Nat × Nat) => (e.1, storeWord e.2)) })] } l
def msgGoes (f d : Nat) (k : Kind) (l : List (Fld × Nat × Nat × Nat)) : Bool :=
  let w := eng 0x24 (f * 2 ^ 7)
  (msgIssue f d l).guarded 0 0 w && (msgIssue f d l).dispatches 0 0 w 4 d && (msgIssue f d l).stands 0 0 k w && ((msgIssue f d l).tile 0).instrs.isEmpty
def outD : Nat := fields [(0, 63), (34, 5), (40, 3000), (59, 64), (76, 16)]
def inD : Nat := fields [(0, 5), (34, 63), (40, 2110), (59, 64), (76, 7)]
theorem witness_MessageRows :
    let c := [(F.CHO_CFG_OPEN, 0, 63, 1), (F.CHI_CFG_OPEN, 0, 5, 1)]
    (msgGoes 1 outD .openOut [] && msgGoes 2 inD .openIn [] && msgGoes 3 63 .closeOut c && msgGoes 4 5 .closeIn c && msgGoes 0 (fields [(0, 63), (6, 2150), (25, 1)]) .send c) = true ∧
    (msgIssue 1 outD []).openOutBad 0 outD = false ∧ (msgIssue 2 inD []).openInBad 0 inD = false ∧ ((msgIssue 4 5 c).outC 0 63).rgrant = 0 ∧
    (after (.openOut 0 0) (msgIssue 1 outD [])).g F.CHO_CFG_RSIZE 0 63 = 64 ∧ (after (.openIn 0 0) (msgIssue 2 inD [])).g F.CHI_STATE_RBASE 0 5 = 2110 ∧
    (after (.openIn 0 0) (msgIssue 2 inD [])).ban.map (·.msg) = [.opening 63 64] ∧ ((after (.closeOut 0 0) (msgIssue 3 63 c)).tile 0).closeWaiting 3 ≠ none ∧ ((after (.closeIn 0 0) (msgIssue 4 5 c)).inC 0 5).closing = true ∧
    ((after (.send 0 0) (msgIssue 0 (fields [(0, 63), (6, 2150), (25, 1)]) c)).tile 0).instrs.map (·.stage) = [.queued] := by decide
/-- The same for context c, on a tile changed by t. -/
def msgIn (c f d : Nat) (l : List (Fld × Nat × Nat × Nat)) (t : Tile → Tile) : State :=
  let w := eng 0x24 (f * 2 ^ 7)
  put { alcove with tiles := [(0, t { (alcove.tile 0) with main := (tileAt c w).main, hand := (tileAt c w).hand, lines := (tileAt c w).lines, mem := (descAt d).map (fun (e : Nat × Nat) => (e.1, storeWord e.2)) })] } l
/-- A message instruction of the main context in the tile. -/
def msgI (f d cls : Nat) (g : Stage) : EngInstr := ⟨0, 4, false, 64, 0, f, d, 8, 0, cls, g, 0, false, 0, 0, 0, false, []⟩
/-- A handler's SEND on a REPLY channel with and without credit, a close of a shut channel, an OPEN_OUT behind a waiting SEND, what the channels' state does not allow, and a
reserved function. -/
theorem witness_MessageRowForms :
    let ok := fun (s : State) (c f d : Nat) (k : Kind) => s.guarded 0 c (eng 0x24 (f * 2 ^ 7)) && s.dispatches 0 c (eng 0x24 (f * 2 ^ 7)) 4 d && s.stands 0 c k (eng 0x24 (f * 2 ^ 7)) && s.msgRests 0
    let d := fields [(0, 63), (6, 2150), (25, 1)]
    let h := fun (cred : Nat) => msgIn 1 0 d [(F.CHO_CFG_OPEN, 0, 63, 1), (F.CHO_CFG_REPLY, 0, 63, 1), (F.CHO_CFG_MAXLEN, 0, 63, 16), (F.CHO_CFG_RSIZE, 0, 63, 64), (F.CHO_STATE_CRED, 0, 63, cred)] (fun (t : Tile) => { t with budget := 9 })
    let i := (h 1).dispatched 0 1 (eng 0x24 0) 4 d
    let busy := msgIn 0 1 outD [] (fun (t : Tile) => { t with instrs := [msgI 0 d 0 .queued], nextId := 1 })
    let bad := [(F.CHO_CFG_OPEN, 0, 63, 1), (F.CHI_CFG_OPEN, 0, 5, 1)]
    let grants := msgIn 0 4 5 bad (fun (t : Tile) => { t with outCh := [(63, { OutCh.shut with pair := 5, rgrant := 1 })] })
    (ok (h 1) 1 0 d .send && ok (h 0) 1 0 d .send && ok busy 0 1 outD .openOut && ok grants 0 4 5 .closeIn) = true ∧ i.cls < 2 ∧ (h 1).sendCause 0 i = none ∧ (h 0).sendCause 0 i = some 0x0C ∧
    ((h 1).tile 0).order true i.cls = [] ∧ (after (.send 0 1) (h 0)).g F.SEQ_FAULT_A_CAUSE 0 = 0x0C ∧ (busy.tile 0).order false 0 ≠ [] ∧ ((after (.openOut 0 0) busy).tile 0).instrs.length = 2 ∧
    ok (msgIn 0 3 63 [] id) 0 3 63 .closeOut = true ∧ ok (msgIn 0 4 5 [] id) 0 4 5 .closeIn = true ∧ ((after (.closeIn 0 0) (msgIn 0 4 5 [] id)).tile 0).instrs = [] ∧
    (msgIn 0 1 outD bad id).openOutBad 0 outD = true ∧ (msgIn 0 2 inD bad id).openInBad 0 inD = true ∧ ok (msgIn 0 1 outD bad id) 0 1 outD .openOut = true ∧ ok (msgIn 0 2 inD bad id) 0 2 inD .openIn = true ∧
    grants.g F.CHO_CFG_OPEN 0 63 = 1 ∧ (grants.outC 0 63).rgrant ≠ 0 ∧ (grants.outC 0 63).pair = 5 ∧ (after (.closeIn 0 0) grants).g F.SEQ_FAULT_A_CAUSE 0 = 6 ∧
    (let s := msgIn 0 5 1 [] id
     let w := eng 0x24 (5 * 2 ^ 7)
     s.stands 0 0 .send w = true ∧ (s.tile 0).queueFree 4 0 = true ∧ s.descFault 0 4 (descAddr s 0 0 w) (descWords 4 5) = none ∧ s.engRefused 0 0 4 5 1 8 = true ∧ (after (.send 0 0) s).g F.SEQ_FAULT_A_CAUSE 0 = 6) := by decide
theorem witness_ChannelRows :
    let s := fun (i : EngInstr) (b : List Ban) => put { alcove with tiles := [(0, { (alcove.tile 0) with instrs := [i], nextId := 1, outCh := [(63, ⟨0, 0, 3, 1, [(0, 3, 0, 0)], [], none, some 0⟩)] })], ban := b }
      [(F.CHO_CFG_OPEN, 0, 62, 1), (F.CHI_CFG_OPEN, 0, 5, 1), (F.CHO_STATE_CRED, 0, 63, 2 ^ 17 - 2), (F.CHO_CFG_RSIZE, 0, 63, 64)]
    let o := msgI 3 62 1 .running
    let i := msgI 4 5 1 .running
    (s o []).msgRests 0 = true ∧ (s i []).msgRests 0 = true ∧ (s i []).chanHeld 0 5 = false ∧ ((s o []).tile 0).closeWaiting 3 = some o ∧ ((s o []).outC 0 62).unacked = [] ∧ ((s o []).tile 0).order false 1 = [o] ∧ (after (.closeOutRetire 0) (s o [])).g F.CHO_CFG_OPEN 0 62 = 0 ∧
    ((s i []).tile 0).closeWaiting 4 = some i ∧ ((s i []).inC 0 5).msgs = [] ∧ (after (.closeInRetire 0) (s i [])).g F.CHI_CFG_OPEN 0 5 = 0 ∧
    (let b := [⟨3, 0, .credit 63 1⟩, ⟨4, 0, .opening 63 64⟩, ⟨5, 0, .msgAck 63 0 0 0 2110⟩, ⟨6, 0, .msgAck 63 0 7 0 0⟩]
     ((s o b).banAt 0).isSome = true ∧ ((s o b).banAt 1).isSome = true ∧ ((s o b).banAt 2).isSome = true ∧ (after (.creditReturn 0) (s o b)).g F.CHO_STATE_CRED 0 63 = 2 ^ 17 - 1 ∧ ((after (.creditReturn 0) (s o b)).outC 0 63).outw = 2 ∧
       (after (.openingGrant 1) (s o b)).g F.CHO_STATE_CRED 0 63 = 64 ∧ ((after (.messageAck 2) (s o b)).outC 0 63).unacked = [] ∧ ((after (.messageAck 2) (s o b)).tile 0).instrs = [] ∧
       ((s o b).banAt 3).isSome = true ∧ (after (.messageAck 3) (s o b)).g F.CHO_STATE_BROKEN 0 63 = 1) := by decide
/-- Inbound channel 5 open for channel 63 of tile 0, its ring of 64 words at 2110, its handler 7; outbound channel 63 open with 64 credits. -/
def ring (t : Tile → Tile) (l : List (Fld × Nat × Nat × Nat)) : State :=
  put { alcove with tiles := [(0, t (alcove.tile 0))] }
    ([(F.CHI_CFG_OPEN, 0, 5, 1), (F.CHI_CFG_SOUTCH, 0, 5, 63), (F.CHI_CFG_HBASE, 0, 5, 7), (F.CHI_STATE_RBASE, 0, 5, 2110), (F.CHI_STATE_RSIZE, 0, 5, 64), (F.CHO_CFG_OPEN, 0, 63, 1), (F.CHO_CFG_INCH, 0, 63, 5),
      (F.CHO_CFG_MAXLEN, 0, 63, 16), (F.CHO_CFG_RSIZE, 0, 63, 64), (F.CHO_STATE_CRED, 0, 63, 64)] ++ l)
def hdrOf (off len : Nat) (wrap : Bool) : MsgHdr := ⟨0, 0, 63, 5, off, len, 0, 0, wrap, false, 0, 0, 0, false, 0⟩
def msgPkt (h : MsgHdr) (held : Option Nat) (w : List (Nat × Bool)) : Packet := { pkt 3 0 0 true (.msg 0 h 0 w) with cls := 0, held := held }
def ringMsg (bell : Bool) : RingMsg := ⟨hdrOf 62 2 false, 0, 0, 0, [(7, false), (9, false)], 3, bell, false, false, 0, false, false, false, false, false⟩
theorem witness_MessageFlow :
    let d := fields [(0, 63), (6, 2150), (25, 2)]
    let sends := fun (cred : Nat) => ring (fun (t : Tile) => { t with instrs := [msgI 0 d 0 .queued], nextId := 1, outCh := [(63, { OutCh.shut with dest := some 0 })] }) [(F.CHO_STATE_WP, 0, 63, 62), (F.CHO_STATE_CRED, 0, 63, cred)]
    let snd := sends 2
    (sends 1).sendCause 0 (msgI 0 d 0 .queued) = none ∧ ((after (.messageSend 0 0 0) (sends 1)).outC 0 63).stall = some 0 ∧ snd.sendCause 0 (msgI 0 d 0 .queued) = none ∧ snd.sendPad 0 63 2 = 0 ∧
    (snd.tile 0).order false 0 = [msgI 0 d 0 .queued] ∧ (snd.tile 0).order false 1 = [] ∧ sbReady (snd.tile 0).sb 0 [] (engRegions 4 0 d 0) = true ∧ snd.g F.CHO_STATE_BROKEN 0 63 = 0 ∧ snd.g F.CHO_CFG_REPLY 0 63 = 0 ∧
    (snd.outC 0 63).rgrant = 0 ∧ (snd.partOf 0).isSome = true ∧ (after (.messageSend 0 0 0) snd).g F.CHO_STATE_WP 0 63 = 0 ∧ (after (.messageSend 0 0 0) snd).g F.CHO_STATE_CRED 0 63 = 0 ∧
    (after (.messageSend 0 0 0) snd).net.map (·.body) = [.msg 0 (hdrOf 62 2 false) 0 [(1, false), (0, false)]] ∧ (after (.messageSend 0 0 0) snd).ban.map (·.msg) = [.bell 5 0 0] ∧
    (let p := msgPkt (hdrOf 62 2 false) none [(7, false), (9, false)]
     let s := fun (l : List (Fld × Nat × Nat × Nat)) (h : MsgHdr) (held : Option Nat) => { ring id l with net := [msgPkt h held [(7, false), (9, false)]], nextPkt := 4 }
     let m := s [(F.HALL_QCFG_LIMIT, 0, 0, 4)] (hdrOf 62 2 false) none
     m.firstOfFlow p = true ∧ m.portHeld p 0 = false ∧ (m.msgCheck 0 (hdrOf 62 2 false) 0).toOption = some 0 ∧ m.cellFor 0 0 = some 0 ∧ ((after (.messageArrival 0) m).inC 0 5).msgs.map (·.words) = [[(7, false), (9, false)]] ∧
       (let f := m.upHall 0 (fun x => { x with cells := (List.range 16).map (fun (k : Nat) => (2 * k + 1, storeWord (2 ^ 17))) })
        let f0 := f.w F.HALL_QCFG_LIMIT 0 0 0
        f0.cellFor 0 0 = none ∧ ((after (.messageArrival 0) f0).net.map (·.held)) = [some 0] ∧ f.cellFor 0 0 = some 1024) ∧
       (let r := s [] (hdrOf 62 2 false) (some 0)
        r.portHeld (msgPkt (hdrOf 62 2 false) (some 0) []) 0 = false ∧ ((after (.heldDeliveryResume 0) r).inC 0 5).msgs.length = 1) ∧
       (let q := s [] (hdrOf 63 1 true) none
        (q.msgCheck 0 (hdrOf 63 1 true) 0).toOption = some 0 ∧ ((after (.wrapMarker 0) q).inC 0 5).padnext = 1 ∧ (after (.wrapMarker 0) q).word 0 2173 = .clean 7) ∧
       (∀ x ∈ [hdrOf 63 2 false, hdrOf 64 1 true], refusal ((s [] x none).msgCheck 0 x 0) = some (6, 0) ∧ (s [] x none).firstOfFlow (msgPkt x none [(7, false), (9, false)]) = true) ∧
       (after (.messageArrival 0) (s [] (hdrOf 63 2 false) none)).g F.CHI_TRAFFIC_REFUSED 0 5 = 1 ∧
       ((after (.messageArrival 0) (s [] (hdrOf 63 2 false) none)).ban.map (·.msg)).getLast? = some (.msgAck 63 0 6 0 2173)) ∧
    (let s := fun (bell : Bool) => { ring (fun (t : Tile) => { t with inCh := [(5, { InCh.shut with msgs := [ringMsg bell] })] }) [] with ban := [⟨0, 0, .bell 5 0 0⟩] }
     ((s false).banAt 0).isSome = true ∧ ((s false).inC 0 5).msgs = [ringMsg false] ∧ ((after (.doorbell 0) (s false)).inC 0 5).msgs = [ringMsg true] ∧ ((s true).inC 0 5).msgs = [ringMsg true] ∧
       (after (.messageLastWord 0 5) (s true)).word 0 2172 = .clean 7 ∧ (after (.messageLastWord 0 5) (s true)).word 0 2173 = .clean 9 ∧ ((after (.messageLastWord 0 5) (s true)).tile 0).signals = 1) ∧
    (let s := fun (l : List RingMsg) (dead : List (Nat × Nat)) => { ring (fun (t : Tile) => { t with inCh := [(5, { InCh.shut with msgs := l, dead := dead })] }) [] with ban := [⟨0, 0, .bell 5 0 0⟩] }
     let m : RingMsg := { ringMsg false with landed := true, words := [] }
     ((s [] [(0, 0)]).inC 0 5).dead.contains (0, 0) = true ∧ ((after (.doorbell 0) (s [] [(0, 0)])).inC 0 5).dead = [] ∧ ((after (.doorbell 0) (s [] [])).inC 0 5).bells = [(0, 0)] ∧
       ((s [m] []).inC 0 5).msgs.find? (fun m => !m.queued && !m.done) = some m ∧ ((after (.doorbell 0) (s [m] [])).tile 0).signals = 1) := by decide
theorem witness_HandlerEnters :
    let t := fun (t : Tile) => { t with hand := { t.hand with wait := .idle }, signals := 1, htab := [(7, BitVec.ofNat 48 (2 ^ 17 + 40))] }
    let s := (put (ring t []) [(F.SEQ_HBUDGET_LIMIT, 0, 0, 256)]).upHall 0 (fun x => { x with lists := [(0, ⟨[3], [], false⟩)], cells := [(6, storeWord (cellWord 5 62 2 7 0 false true 0)), (7, storeWord (cellLink 0 true 0))] })
    s.alive 0 = true ∧ (s.ctx 0 1).wait = .idle ∧ ((s.hall 0).listsOf 0).c0 = [3] ∧ readStored (Sparse.get 0 (s.hall 0).cells 6) = .clean (cellWord 5 62 2 7 0 false true 0) ∧ (s.tile 0).handlerEntry 7 / 2 ^ 17 % 2 = 1 ∧
    inCode s 0 ((s.tile 0).handlerEntry 7 % 2 ^ 17) = true ∧ ((after (.handlerEntry 0) s).ctx 0 1).pc = 40 ∧ ((after (.handlerEntry 0) s).sreg 0 1 25).toNat = 2172 ∧ ((after (.handlerEntry 0) s).sreg 0 1 27).toNat = 7 ∧
    ((after (.handlerEntry 0) s).tile 0).budget = 256 ∧ (((ring t []).hall 0).listsOf 0).c0 = [] ∧ ((after (.handlerEntry 0) (ring t [])).tile 0).signals = 0 ∧
    (let s := (ring t []).upHall 0 (fun x => { x with lists := [(0, ⟨[], [3], false⟩)], cells := [(6, storeWord (cellWord 5 62 2 7 1 false true 0)), (7, storeWord (cellLink 0 true 0))] })
     ((s.hall 0).listsOf 0).c0 = [] ∧ ((s.hall 0).listsOf 0).c1 = [3] ∧ ((after (.handlerEntry 0) s).ctx 0 1).pc = 40 ∧ ((after (.handlerEntry 0) s).sreg 0 1 27).toNat = 263) := by decide

/-- A stored word with its lowest bit flipped. -/
def flipped (d : Nat) : Stored := storeWord d ^^^ 1
/-- The time at half a second. -/
def late (s : State) : State := { s with now := 500000000 }
theorem witness_ScrubRows :
    let s := put (withTile { tileAt 0 0 with mem := [(64, flipped 7), (127, storeWord 5), (128, flipped 9)], wb := [(3000, storeWord 4)], scrubRow := 1 }) []
    Sparse.find? (s.tile 0).wb 3000 = some (storeWord 4) ∧ (after (.correctionWriteBack 0 3000) s).word 0 3000 = .clean 4 ∧ s.scrubNext 0 1 = 1 ∧ s.scrubNext 0 2 = 2 ∧ s.word 0 64 = .corrected 7 ∧
    (after (.scrubRead 0) s).word 0 64 = .clean 7 ∧ (after (.scrubRead 0) s).word 0 128 = .corrected 9 ∧ ((after (.scrubRead 0) s).tile 0).scrubRow = 2 ∧
    ((late s).tile 0).scrubStart + 500000000 ≤ (late s).now ∧ (after (.scrubForced 0) (late s)).g F.TILE_SCRUB_FORCED 0 = 1 := by decide
theorem witness_GalleryScrubRows :
    let s := live.upHall 0 (fun x => { x with scrubLine := [(7, 98303)] })
    Sparse.get 0 (s.hall 0).scrubLine 6 + 1 < 98304 ∧ 98304 ≤ Sparse.get 0 (s.hall 0).scrubLine 7 + 1 ∧ s.slot? 0 (7 * 96 + 98303 / 1024) = none ∧ Sparse.get 0 ((after (.galleryScrubRead 0 6) s).hall 0).scrubLine 6 = 1 ∧
    Sparse.get 0 ((after (.galleryScrubRead 0 7) s).hall 0).scrubLine 7 = 0 ∧ (after (.galleryScrubRead 0 7) s).g F.HALL_GAL_SCRUB_PASSES 0 = 1 ∧ Sparse.get 0 ((late s).hall 0).scrubStart 7 + 500000000 ≤ (late s).now ∧
    (after (.galleryScrubForced 0 7) (late s)).g F.HALL_GAL_SCRUB_FORCED 0 = 128 := by decide
/-- A queued message of the ring in its cell 1024, whole in the ring. -/
def waitingMsg (spilled : Bool) : RingMsg := ⟨{ hdrOf 62 2 false with cls := 1 }, 0, 0, 1024, [], 3, true, true, true, 0, spilled, false, spilled, spilled, false⟩
theorem witness_SpillRows :
    let m := waitingMsg false
    let s := fun (m : RingMsg) (r : List SpillRec) => ring (fun (t : Tile) => { t with inCh := [(5, { InCh.shut with msgs := [m], spmark := 0, retbuf := 3000 })], spills := r, mem := [(2172, storeWord 7), (2173, storeWord 9)] }) [(F.CHI_CFG_MODE, 0, 5, 1)]
    let r : SpillRec := ⟨5, 3, true, 0, 2, false⟩
    ((((s m []).inC 0 5).msgs.filter (·.waiting)).find? (fun m => !((s m []).tile 0).spills.any (fun r => r.chan == 5 && r.pid == m.pid))) = some m ∧ (s m []).spPlace 0 5 2 = some 0 ∧
    ((after (.spill 0 5) (s m [])).tile 0).spills = [r] ∧ ((s m [r]).tile 0).spills.find? (fun r => !r.copied) = some r ∧ (s m [r]).spArea 0 5 = 64 ∧ ((s m [r]).inC 0 5).msgs.find? (fun m => m.pid == r.pid) = some m ∧
    ((after (.spillCopyDone 0) (s m [r])).tile 0).spills = [{ r with copied := true }] ∧
    (let b0 := (after (.spillCopyDone 0) (s m [r])).upHall 0 (fun x => { x with lists := [(0, ⟨[], [1024], false⟩)] })
     let w := (Sparse.get 0 (b0.hall 0).cells 2048).toNat % 2 ^ 96
     ((b0.hall 0).listsOf 0).c1 = [1024] ∧ Cell.spilled w = 1 ∧ Cell.ch w = 5 ∧ (b0.inC 0 5).inRet = none ∧ ((b0.inC 0 5).msgs.find? (fun m => m.cell == 1024 && m.queued && !m.offered)).isSome = true ∧
       ((b0.spRead 0 5 0 0 3).2.map (fun ls => spWords ls 2)) = some [(7, false), (9, false)] ∧ (after (.spillReadback 0) b0).word 0 3001 = .clean 9 ∧ ((after (.spillReadback 0) b0).inC 0 5).inRet = some 3) := by decide
theorem witness_HallRows :
    let c : RunCmd := ⟨⟨0, 1, 0, 0, 1⟩, 0x0101, [], []⟩
    let s := { live with foyer := { live.foyer with releases := [⟨0, c, false, false, [0, 1], [0, 1], 0, 0, false⟩], creations := [⟨⟨⟨0, 2, 0, 1, 2⟩, 0x0100, [], []⟩, 0, 16, [70, 71]⟩] } }
    (s.foyer.releases.find? (fun x => x.halls.contains 0)).isSome = true ∧ (s.hall 0).slots = [] ∧
    (s.foyer.creations.find? (fun x => x.cmd.hdr.tpart == 1)).isSome = true ∧ s.createCheck 1 0 [70, 71] = some 0 := by decide

/-- Partition 0 with two halls of one landing at which every tile has arrived, but tile 0 at flight `fl`, held. -/
def landed (fl bits : Nat) : State :=
  { put (withTile (let t := tileAt 0 0; { t with flight := fl, main := { t.main with wait := .held 1 } })) [(F.LAND_CTRL_TIMEOUT, 0, 0, 10)] with
    parts := [{ Part.fresh 0 [] 16 false with launched := true, halls := [0], landings := [{ Landing.fresh 1 with bits := bits, first := some 5 }] }], now := 10005 }
/-- The rest of the hall over. -/
def othersOver (s : State) : State := { s with tiles := s.tiles ++ (List.range 63).map (fun (n : Nat) => (n + 1, { Tile.free with main := { Ctx.reset with wait := .ended } })) }
theorem witness_LandingRows :
    (landed 1 0).landMode 0 = 0 ∧ (othersOver (landed 1 0)).landBits 0 1 = some 0 ∧ (othersOver (landed 1 4)).landBits 0 1 = some 4 ∧ ((othersOver (landed 1 0)).ctx 0 0).wait = .held 1 ∧
    (landed 0 0).landing? 0 1 = some { Landing.fresh 1 with first := some 5 } ∧ 5 + 1000 * (landed 0 0).g F.LAND_CTRL_TIMEOUT 0 ≤ (landed 0 0).now ∧ (landed 0 0).landBits 0 1 = none ∧
    (after (.landingTimeout 0 1) (landed 0 0)).g F.LAND_LATE_VALID 0 = 1 ∧ (after (.landingTimeout 0 1) (landed 0 0)).g F.LAND_TIMEOUTS_COUNT 0 = 1 := by decide
theorem test_landing_completes : ((after (.landingComplete 0) (othersOver (landed 1 2))).ctx 0 0).wait = .run ∧ ((after (.landingComplete 0) (othersOver (landed 1 2))).regs.rd R.LAND_VERDICT 0).toNat = 2 + 2 ^ 16 := by decide
theorem test_landing_stops : ((after (.landingComplete 0) (othersOver (landed 1 4))).tile 0).stopped = true := by decide
theorem witness_SyncPins :
    let s := fun (k : Nat) => put live [(F.SYNC_CFG_ENABLE, 0, 0, 1), (F.SYNC_COUNT_DNCOUNT, 0, 0, k), (F.SYNC_COUNT_UPCOUNT, 0, 0, k)]
    (∀ pin ∈ [0, 1], (s 3).syncWatches pin = true) ∧ ¬ 4 < diff32 (add32 3 1) ((s 3).g F.LAND_NUM_DONE 0) ∧ 4 < diff32 (add32 4 1) ((s 4).g F.LAND_NUM_DONE 0) ∧ (after (.syncPulse 0) (s 3)).g F.SYNC_COUNT_DNCOUNT 0 = 4 ∧
    (after (.syncPulse 1) (s 3)).g F.SYNC_COUNT_UPCOUNT 0 = 4 ∧ (after (.syncPulse 1) (s 4)).g F.SYNC_COUNT_UPCOUNT 0 = 4 ∧ (after (.syncPulse 1) (s 4)).g F.SYNC_STATUS_EXCESS 0 = 1 ∧
    (after (.syncGlitch 0) (s 3)).g F.SYNC_GLITCH_COUNT 0 = 1 ∧ (after (.stuckSync 1) (s 3)).syncWatches 1 = false ∧ (after (.stuckSyncClear 1) (after (.stuckSync 1) (s 3))).syncWatches 1 = true := by decide

/-- Page 0 of partition 0 in frame 100, its first line 7 and its second line with a bit flipped; tile 0 runs a one-run load, or store, of byte 0 on. -/
def paged (t : Tile → Tile) : State :=
  { withTile (t { tileAt 0 0 with instrs := [⟨0, 2, false, 64, 0, 0, stD, 8, 0, 0, .running, 0, false, 0, 0, 0, false, []⟩], nextId := 1 }) with
    pageMap := [(0, Pm.mk 0 100 0)], frames := [(100 * 131072, frameStore 7 false)] }
/-- The block of byte 0 in slot 3 of hall 0 in a state, its line 0 valid and 9. -/
def slotted (st : SlotState) : State := (paged id).upHall 0 (fun x => { x with slots := [(3, ⟨0, st, [(0, galStore 9 false)], [], [], 0, 0, none⟩)] })
/-- Context 8191 of partition 0, up, whose packets have so far been received; sub-port 63 is up. -/
def peerOf (c : PeerCtx → PeerCtx) (s : State) : State :=
  { put s [(F.LINK_STATUS_UP, 31, 1, 1), (F.SWT_PORT_UDP, 0, 0, 0x5357)] with peers := [(8191, c { PeerCtx.fresh 0 5 9 7 (2 ^ 63) 4096 false 0 with lastTx := 0 })] }
theorem witness_LineRequests :
    let s := slotted .clean
    (∀ a ∈ [0, 64, 128], s.stMayRead 0 ⟨0, 2, false, 64, 0, 0, stD, 8, 0, 0, .running, 0, false, 0, 0, 0, false, []⟩ a = true) ∧ St.tgt stD = 0 ∧ s.pageReason 0 (pageOf 0) false = 0 ∧ s.resultHeld 0 0 = false ∧
    s.mending 0 = false ∧ ((s.holders (blockOf 0)).find? (fun x => x.1 == 0 && x.2.2.has 0 && x.2.2.state != .moving)).map (·.2.1) = some 3 ∧ (s.slotValue 0 3 0).2 = some ⟨9, false⟩ ∧
    ((after (.lineReadRequest 0 0 0) s).tile 0).lineResp = [⟨0, 0, ⟨9, false⟩⟩] ∧
    (let r := { s with pageMap := [] }
     r.pageReason 0 (pageOf 0) false ≠ 0 ∧ ((after (.lineReadRequest 0 0 0) r).tile 0).lineResp = [⟨0, 0, ⟨0, true⟩⟩] ∧ (after (.lineReadRequest 0 0 0) r).parts.map (·.fault) = [true]) ∧
    (let l : LineOut := ⟨0, 64, 5, BitVec.allOnes 64, false, false, none, false⟩
     let w := paged (fun (t : Tile) => { t with lineOut := [l] })
     (w.tile 0).nextOut = some l ∧ w.stMayWrite 0 = true ∧ w.inCarea 0 64 = false ∧ w.doneLink 0 64 = none ∧ w.pageReason 0 (pageOf 64) true = 0 ∧ w.pageHeld (pageOf 64) = false ∧ (w.hallWrite 0 64 5 l.mask false).2 = true ∧ w.holders (blockOf 64) = [] ∧
       (w.allocSlot 0 (blockOf 64) .modified none).2 = some 0 ∧ (((after (.lineWriteRequest 0) w).slot? 0 0).map (·.state)) = some .modified ∧ ((after (.lineWriteRequest 0) w).readLine 64).2 = some ⟨5, false⟩) ∧
    (let i : EngInstr := ⟨0, 2, false, 64, 0, 0, stD + 4 + 8191 * 2 ^ 41, 8, 0, 0, .running, 0, false, 0, 0, 0, false, []⟩
     let q := peerOf id (paged (fun (t : Tile) => { t with instrs := [i] }))
     St.tgt i.desc = 1 ∧ q.stMayRead 0 i 0 = true ∧ q.peerUp (St.peer i.desc) = true ∧ q.waits = [] ∧ (after (.lineReadRequest 0 0 0) q).waits = [⟨0, 0, 0⟩]) := by decide
/-- A line of zeros with one bit flipped is corrected: its syndromes, its locator and the word. -/
theorem test_frame_bytes : frameBytes 1#576 = 1 :: List.replicate 71 0 := by decide +kernel
theorem test_frame_syndromes : rsSyndromes (1 :: List.replicate 71 0) = [1, 188, 42, 242, 48, 17, 179, 176] := by decide +kernel
theorem test_frame_locator : rsLocator [1, 188, 42, 242, 48, 17, 179, 176] = ([1, 188], 1) := by decide +kernel
/-- The word with its roots corrected. -/
def mended (syn loc w : List Nat) : List Nat := w.zipIdx.map (fun p => let e := 71 - p.2; if gfEval loc (gfInv (gfPow 2 e)) = 0 then p.1 ^^^ rsMagnitude syn loc e else p.1)
theorem rsCorrect_of {w syn loc w' : List Nat} {k : Nat} (h1 : rsSyndromes w = syn) (h2 : rsLocator syn = (loc, k)) (h3 : mended syn loc w = w') (hk : k ≤ 4)
    (hc : ((w.zip w').filter (fun p => p.1 != p.2)).length ≤ 4) (hs : (rsSyndromes w').all (· == 0) = true) : rsCorrect w = some w' := by
  subst h1; subst h3
  have h : (rsLocator (rsSyndromes w)).1 = loc ∧ (rsLocator (rsSyndromes w)).2 = k := by rw [h2]; exact ⟨rfl, rfl⟩
  unfold mended at hc hs ⊢
  unfold rsCorrect
  rw [← h.1] at hc hs ⊢
  rw [← h.2] at hk
  exact if_pos ⟨hk, hc, hs⟩
theorem frameClassify_of {v : FrameLine} {w w' : List Nat} (h0 : frameBytes v = w) (hv : v ≠ 0) (hd : v.toNat % 2 ^ 512 ≠ 0) (hs : (rsSyndromes w).all (· == 0) = false) (hc : rsCorrect w = some w') :
    frameClassify v = .corrected ((frameOfBytes w').toNat % 2 ^ 512) ((w.zip w').filter (fun p => p.1 != p.2)).length := by
  subst h0
  unfold frameClassify
  dsimp only
  rw [if_neg hv, if_neg (fun h => hd h.1), if_neg (by rw [hs]; exact Bool.false_ne_true), hc]
theorem test_frame_word : mended [1, 188, 42, 242, 48, 17, 179, 176] [1, 188] (1 :: List.replicate 71 0) = List.replicate 72 0 := by decide +kernel
theorem test_frame_corrected : frameClassify 1#576 = .corrected 0 1 := by
  refine (frameClassify_of test_frame_bytes (by decide) (by decide) (by rw [test_frame_syndromes]; rfl) (rsCorrect_of test_frame_syndromes test_frame_locator test_frame_word (by decide) (by decide +kernel) (by decide +kernel))).trans ?_
  decide +kernel
/-- A line that can be corrected, and one that a filling slot waits for. -/
def flippedLine : State := { paged id with frames := [(100 * 131072, frameStore 7 false), (100 * 131072 + 131071, 1#576)] }
theorem witness_FrameCorrected : (flippedLine.pageOfFrame 100).any (fun e => flippedLine.repairing e 131071) = false ∧ (flippedLine.pageOfFrame 100).bind (fun e => flippedLine.wanting (e * 128 + 131071 / 1024) (131071 % 1024)) = none ∧
    frameClassify (flippedLine.frameLine 100 131071) = .corrected 0 1 :=
  ⟨by decide, by decide, (show flippedLine.frameLine 100 131071 = 1#576 by decide) ▸ test_frame_corrected⟩
theorem witness_FillRows :
    let f : State := (paged id).upHall 71 (fun x => { x with slots := [(767, ⟨0, .filling, [], [], [(0, true)], 0, 0, none⟩)] })
    (f.pageOfFrame 100).any (fun e => f.repairing e 0) = false ∧ (f.pageOfFrame 100).bind (fun e => f.wanting (e * 128 + 0 / 1024) 0) = some (71, 767) ∧ f.frameLine 100 0 = frameStore 7 false ∧ f.readRoom 71 2 = true ∧ f.readShare 71 (((f.pageOfFrame 100).getD 0) * 2 ^ 23 + 0 * 64) = true ∧
    (let g : State := { f with flying := [⟨71, 767, 0, ⟨7, false⟩⟩] }
     (g.flying.find? (fun x => x.hall == 71 && x.slot == 767 && x.line == 0)).isSome = true ∧ ((g.slot? 71 767).map (fun y => y.has 0)) = some false ∧
       (((after (.fillLineArrival 71 767 0) g).slot? 71 767).map (fun y => y.has 0)) = some true) ∧
    ((((slotted .evicting).slot? 0 3).map (·.state)) = some .evicting ∧ (after (.writeBackDone 0 3) (slotted .evicting)).slot? 0 3 = none) := by decide
theorem test_frame_clean : frameClassify (frameStore 7 false) = .clean 7 := by decide +kernel
theorem witness_PageRows :
    let s := paged id
    let v := Pm.mk 0 101 0
    (let c : State := { s with cuts := [⟨[(524287, v)], none⟩] }
     Pm.valid (c.page 524287) = 0 ∧ c.cutWaits [524287] = false ∧ { c with copies := [⟨524287, []⟩] }.cutWaits [524287] = true ∧ (after .pageMapCut c).page 524287 = v ∧ (after .pageMapCut c).cuts = []) ∧
    (let c : State := { s with cuts := [⟨[(0, Pm.mk 0 100 1)], none⟩] }
     Pm.valid (c.page 0) = 1 ∧ Pm.valid (Pm.mk 0 100 1) = 1 ∧ c.cutWaits [0] = false) ∧
    (let c : State := { s with pageMap := [(0, Pm.setHold (Pm.mk 0 100 0) 1)], copies := [⟨0, []⟩], pool := [200, 201] }
     c.copies.any (fun x => x.page == 0) = true ∧ Pm.hold (c.page 0) = 1 ∧ (c.copyPage 0 200 false).2 = true ∧ Pm.copyf ((after (.copyDone 0) c).page 0) = 200 ∧ Pm.hold ((after (.copyDone 0) c).page 0) = 0 ∧
       (after (.copyDone 0) c).pool = [201] ∧ (after (.copyDone 0) c).frameLine 200 0 = frameStore 7 false) ∧
    (let c : State := { s with repairs := [⟨0, 131071, 5, false, false, []⟩], now := 100005 }
     (c.repairs.find? (fun r => r.page == 0 && r.line == 131071 && !r.copying)).isSome = true ∧ c.peerReads = [] ∧ (after (.repairTimeout 0 131071) c).g F.GMEM_REPAIR_FAILED 0 = 1 ∧
       frameClassify ((after (.repairTimeout 0 131071) c).frameLine 100 131071) = .poison) ∧
    (let c : State := { s with frames := [], repairs := [⟨0, 0, 5, true, false, []⟩] }
     (c.repairs.find? (fun r => r.page == 0 && r.copying)).isSome = true ∧ c.freeFrame.isSome = true ∧ (c.copyPage 0 (c.freeFrame.getD 0) true).2 = true) := by decide +kernel
theorem lowestFrom_past (l : List Nat) (n : Nat) : ∀ fuel k, (∀ j, k ≤ j → j < n → l.contains j = true) → n ≤ k + fuel → n ≤ lowestFrom l fuel k
  | 0, k, _, h => h
  | m + 1, k, hk, h => by
    unfold lowestFrom
    split
    · exact lowestFrom_past l n m (k + 1) (fun j h1 h2 => hk j (Nat.le_of_succ_le h1) h2) (by rw [Nat.add_right_comm]; exact h)
    · rename_i hc
      exact Nat.not_lt.mp (fun hn => hc (hk k (Nat.le_refl k) hn))
theorem noFreeFrame {s : State} (h : ∀ j, j < numFrames → j ∈ s.pool) (hl : numFrames ≤ s.pool.length) : s.freeFrame = none :=
  if_neg (Nat.not_lt.mpr (lowestFrom_past _ _ _ _
    (fun j _ h2 => (List.contains_eq_mem ..).trans (decide_eq_true (List.mem_append_left _ (List.mem_append_left _ (List.mem_append_right _ (h j h2))))))
    (Nat.le_trans hl (Nat.le_trans (Nat.le_trans (by unfold State.usedFrames; rw [List.length_append, List.length_append, List.length_append]; omega) (Nat.le_add_left s.usedFrames.length firstFrame)) (Nat.le_refl _)))))
/-- The copy pool full of every frame, and a page of which a copy is due. -/
def noFrames (l : List Nat) : State := { State.reset with pool := l, repairs := [⟨0, 0, 5, true, false, []⟩] }
theorem noFrames_pool (l : List Nat) : (noFrames l).pool = l := rfl
theorem noFrames_due (l : List Nat) : (noFrames l).repairs.find? (fun r => r.page == 0 && r.copying) = some ⟨0, 0, 5, true, false, []⟩ := rfl
theorem witness_NoFreeFrame : ∃ s : State, s.repairs.find? (fun r => r.page == 0 && r.copying) = some ⟨0, 0, 5, true, false, []⟩ ∧ s.freeFrame = none :=
  ⟨noFrames (List.range numFrames), noFrames_due _,
    noFreeFrame (fun j h => by rw [noFrames_pool]; exact List.mem_range.mpr h) (Nat.le_of_eq (by rw [noFrames_pool, List.length_range]))⟩
/-- A schedule of partition 7 with one active discard of block 5. -/
theorem witness_ControllerRows :
    let s : State := { (slotted .clean) with patrol := [(31, 32 * 7456528 - 1)], pageMap := [(0, Pm.mk 7 100 0)], prefetch := [(7, ⟨[⟨0, 5, 1, 2, 1⟩], 0, 0, [⟨0, 0, 0, [0]⟩]⟩)] }
    Sparse.get 0 s.patrol 0 + 1 < 32 * 7456528 ∧ 32 * 7456528 ≤ Sparse.get 0 s.patrol 31 + 1 ∧ (after (.patrolScrub 31) s).g F.MEMC_SCRUB_PASSES 31 = 1 ∧ (after (.mr4Readout 31 (2 ^ 45 * 5 + 3) 60) s).g F.MEMC_STATUS_RATE 31 = 5 ∧
    (after (.refresh 31 15 true) s).g F.MEMC_RFM_COUNT 31 = 1 ∧ (s.pf 7).active.length = 1 ∧ s.pageReason 7 ((5 + 0) / 128) false = 0 ∧ s.holders (5 + 0) = [] ∧ s.waits = [] ∧
    (after (.prefetchBlockPlaced 7 0 0) s).g F.GMEM_PF_DONE_COUNT 0 7 = 1 ∧
    ({ s with pageMap := [] } : State).pageReason 7 ((5 + 0) / 128) false ≠ 0 ∧ (after (.prefetchBlockPlaced 7 0 0) { s with pageMap := [] }).g F.GMEM_PF_DONE_COUNT 0 7 = 1 := by decide
/-- A fetch of block 0 to the hall that has it whole. -/
def whole : Slot := ⟨0, .clean, (List.range 1024).map (fun l => (l, 0)), [], [], 0, 0, none⟩
theorem listed {α : Type} (v : α) (l : Nat) : ∀ ks : List Nat, l ∈ ks → Sparse.has (ks.map (fun k => (k, v))) l = true
  | k :: ks, h => by
    unfold Sparse.has
    rw [List.map_cons]
    unfold Sparse.find?
    by_cases e : l = k
    · rw [if_pos e]; rfl
    · rw [if_neg e]; exact listed v l ks ((List.mem_cons.mp h).resolve_left e)
theorem test_whole (l : Nat) (h : l < 1024) : whole.has l = true := listed 0 l _ (List.mem_range.mpr h)
theorem witness_PrefetchInPlace :
    let x : PfEntry := ⟨0, 0, 1, 0, 1⟩
    let s := fun (y : Slot) => ({ (paged id) with prefetch := [(0, ⟨[x], 0, 0, [⟨0, 0, 0, [0]⟩]⟩)], halls := [(0, { Hall.free with slots := [(3, y)] })] } : State)
    (∀ y, (s y).slot? 0 3 = some y) ∧ ((s whole).pf 0).entries[0]? = some x ∧ (s whole).pageReason 0 0 false = 0 ∧ x.op ≠ 2 ∧ (s whole).pfTargets 0 x 0 = [0] ∧ (∀ y, y.block = 0 → (s y).holders 0 = [(0, 3, y)]) ∧ whole.state = .clean :=
  ⟨fun _ => rfl, rfl, by decide, by decide, by decide, fun y h => by simp [State.holders, h], rfl⟩

/-- A plan of two buckets for partition 0, rank 0 of one, with its contributions in the first 4,096 bytes. -/
def planned (s : State) (d : Nat) (c : Coll → Coll) : State :=
  { put s [(F.COLL_PLAN_VALID, 0, 0, 1), (F.COLL_PLAN_NBUCK, 0, 0, 2), (F.COLL_CLIMIT_CLIMIT, 0, 0, 4096), (F.COLL_GROUP_SIZE, 0, 0, 1), (F.COLL_GROUP_NODE, 0, 0, 1)] with
    coll := [(0, c { Coll.empty with plan := [d, d] })] }
def runOf (b : Nat) : CollRun := ⟨b, 0, 0, false, false, [], [], none, none, 0, false, false, 0⟩
/-- A reduction of 96 FP32 elements of tile 0, of bytes 0 to 384. -/
def sumD : Nat := fields [(64, 96), (128, 1), (256, 1)]
theorem witness_ContributionRows :
    let l : LineOut := ⟨0, 320, 5, BitVec.allOnes 64, false, false, none, false⟩
    let h : HeldLine := ⟨320, 5, BitVec.allOnes 64, false, .host⟩
    let s := fun (k : Nat) => planned (paged (fun (t : Tile) => { t with lineOut := [l] })) sumD (fun (c : Coll) => { c with bytes := [(0, k)], held := [h] })
    ((s 383).tile 0).nextOut = some l ∧ (s 383).stMayWrite 0 = true ∧ (s 383).inCarea 0 320 = true ∧ (s 383).sliceOf 0 320 = some 0 ∧ (s 383).sliceOf 0 384 = none ∧ (s 383).contribOk 0 0 = true ∧ (s 384).contribOk 0 0 = false ∧
    (s 383).pageReason 0 (pageOf 320) true = 0 ∧ (s 383).pageHeld (pageOf 320) = false ∧ ((s 383).hallWrite 0 320 5 l.mask false).2 = true ∧ ((s 383).writeLine 320 5 l.mask false).2 = true ∧
    Sparse.get 0 ((after (.contributionWrite 0) (s 320)).collOf 0).bytes 0 = 384 ∧ ((after (.contributionWrite 0) (s 320)).collOf 0).runs.map (·.bucket) = [0] ∧
    ((after (.contributionWrite 0) (s 384)).collOf 0).held.length = 2 ∧ (after (.contributionWrite 0) (s 384)).g F.COLL_HELD_W_COUNT 0 = 1 ∧ ((after (.heldLineAccept 0 0) (s 383)).collOf 0).held = [] := by decide
theorem witness_BucketRows :
    let s := fun (d : Nat) (l : List CollRun) => planned (paged id) d (fun (c : Coll) => { c with runs := l })
    let gone := fields [(0, 7)]
    let other := fields [(0, 3), (96, 1)]
    let perm := fields [(0, 5)]
    let lost := fields [(0, 5), (64, 1), (448, 2 ^ 23)]
    (∀ d ∈ [gone, other, perm, lost], (s d [runOf 0]).collRun? 0 0 = some (runOf 0)) ∧ (6 ≤ Bk.op ((s gone [runOf 0]).bucket 0 0)) ∧ Bk.keep ((s other [runOf 0]).bucket 0 0) ≠ (s other [runOf 0]).cR 0 ∧
    (∀ d ∈ [fields [(0, 2), (24, 1)], fields [(24, 1)], fields [(15, 1), (24, 1)]], (s d [runOf 0]).verWaits 0 0 = false ∧ ((s d [runOf 0]).collSource 0 0).2.isSome = true ∧
      (((s d [runOf 0]).collSource 0 0).1.collRead 0 (Bk.xaddr d) (4 * Bk.e d)).2.isSome = true ∧ (((after (.bucketStart 0 0) (s d [runOf 0])).collRun? 0 0).map (·.started)) = some true) ∧
    (((after (.bucketStart 0 0) (s other [runOf 0])).collRun? 0 0).map (·.started)) = some true ∧
    (((s perm [runOf 0]).collRead 0 0 0).2 = some (some []) ∧ moveTable 0 [] = [] ∧ (((s perm [runOf 0]).collRead 0 0 0).1.moveReads 0 0 [] []).2.isSome = true ∧ (((after (.permuteStart 0) (s perm [runOf 0])).collRun? 0 0).map (fun r => (r.started, r.fail))) = some (true, 0)) ∧
    ((s lost [runOf 0]).collRead 0 (2 ^ 23) 16).2 = some none ∧ (((after (.permuteStart 0) (s lost [runOf 0])).collRun? 0 0).map (fun r => (r.started, r.fail))) = some (true, 5) ∧
    (let r := { runOf 1 with started := true, final := true, fail := 3 }
     let e := (s gone [r]).w F.COLL_WIN_WATER 0 0 1
     e.collRun? 0 1 = some r ∧ e.watermark 0 = 1 ∧ e.g F.COLL_PLAN_NBUCK 0 = 2 ∧ (after (.bucketPublish 0) e).watermark 0 = 0 ∧ (after (.bucketPublish 0) e).g F.COLL_STEP_STEP 0 = 1 ∧
       (after (.bucketPublish 0) e).g F.COLL_FAILS_COUNT 0 = 1 ∧ (after (.bucketPublish 0) (s gone [{ r with bucket := 0 }])).watermark 0 = 1) := by decide
/-- An incoming link 1 of partition 0 in step 4 that has the record of step 5, with no legs. -/
def linkIn : InLink := ⟨true, 0, 1, [], [(5, 0)], false, true, 4, [], true, 0, [], [5], 0⟩
def linked (s : State) (x : InLink) (p : Prot → Prot) : State :=
  { put s [(F.SP_IN_CFG_VALID, 0, 1, 1), (F.SP_IN_CFG_LSTEPS, 0, 1, 2), (F.SP_IN_STATE_STEP, 0, 1, 4), (F.SP_IN_DONE_DONE, 0, 1, 64), (F.SP_IN_NOTICE_NADDR, 0, 1, 2150)] with prot := [(0, p { Prot.empty with links := [(1, x)] })] }
theorem witness_NoticeRows :
    let b : Body := .coll 0 0 0 2150 false [(7, false)]
    let s := fun (a cls : Nat) => mesh (planned alcove sumD (fun (c : Coll) => { c with runs := [{ runOf 0 with notices := 1 }] })) [{ pkt 3 0 0 true (.coll 0 0 0 a false [(7, false)]) with cls := cls }]
    (s 2150 2).firstOfFlow { pkt 3 0 0 true b with cls := 2 } = true ∧ ((s 2150 2).alcoveCheck 0 2150 1 true 2 2 ⟨some 0, none, 0⟩).toOption = some 0 ∧ (after (.noticeDelivery 0) (s 2150 2)).word 0 2150 = .clean 7 ∧
    (((after (.noticeDelivery 0) (s 2150 2)).collRun? 0 0).map (·.notices)) = some 0 ∧ (refusal ((s 2300 3).alcoveCheck 0 2300 1 true 2 3 ⟨some 0, none, 0⟩)).isSome = true ∧
    (after (.noticeDelivery 0) (s 2300 3)).parts.map (·.fault) = [true] ∧
    (let q := { put (planned (paged id) sumD (fun (c : Coll) => { c with runs := [runOf 0] })) [(F.COLL_WDOG_TIMEOUT, 0, 0, 1)] with now := 1000000 }
     q.collRun? 0 0 = some (runOf 0) ∧ 0 + 1000000 * q.g F.COLL_WDOG_TIMEOUT 0 ≤ q.now ∧ (after (.collectiveSlow 0 0) q).g F.COLL_SLOW_COUNT 0 = 1) ∧
    (let q := linked (paged id) linkIn id
     q.inLink? 0 1 = some linkIn ∧ q.g F.SP_IN_STATE_REPLAYING 0 1 = 0 ∧ q.g F.SP_IN_STATE_CATCHUP 0 1 = 0 ∧ linkIn.digTodo = [] ∧ linkIn.recs.find? (fun r => r.1 == add32 4 1) = some (5, 0) ∧ q.legsReady 0 linkIn 5 0 = true ∧
       (after (.replayNotice 0 1) q).g F.SP_IN_STATE_REPLAYING 0 1 = 1 ∧ (after (.replayNotice 0 1) q).net.map (·.body) = [.coll 0 0 0 2150 false [(5 + 2 ^ 32 + 2 ^ 36 + 2 ^ 37, false)]]) := by decide

/-- Where nothing is under repair and every frame and gallery is empty, every line can be read. -/
theorem quiet_readLine (s : State) (a : Nat) (hr : s.repairs = []) (hf : s.frames = []) (hh : s.halls = []) :
    ∃ v, (s.readLine a).2 = some v ∧ (s.readLine a).1.repairs = [] ∧ (s.readLine a).1.frames = [] ∧ (s.readLine a).1.halls = [] := by
  have h0 : s.holders (blockOf a) = [] := by unfold State.holders; rw [hh]; rfl
  have hu : ∀ f l, (s.useCheck f l).repairs = [] ∧ (s.useCheck f l).frames = [] ∧ (s.useCheck f l).halls = [] := by
    intro f l; unfold State.useCheck State.useGroup; dsimp only; split
    · exact ⟨hr, hf, hh⟩
    · exact ⟨hr, hf, hh⟩
  have hc : ∀ f l, (s.readFrame f l none false) = (s.useCheck f l, some ⟨BitVec.ofNat 512 0, false⟩) := by
    intro f l
    obtain ⟨h1, h2, _⟩ := hu f l
    have hx : ((s.useCheck f l).pageOfFrame f).any (fun e => (s.useCheck f l).repairing e l) = false := by
      unfold State.repairing; rw [h1]; cases (s.useCheck f l).pageOfFrame f <;> rfl
    have hl : (s.useCheck f l).frameLine f l = 0 := by unfold State.frameLine; rw [h2]; rfl
    unfold State.readFrame State.classifyFrame
    rw [hx, hl]
    rfl
  unfold State.readLine State.readLineFor
  rw [h0]
  simp only [List.find?_nil]
  rw [hc]
  exact ⟨_, rfl, hu _ _⟩
theorem quiet_readLines (n : Nat) : ∀ (a : Nat) (s : State), s.repairs = [] → s.frames = [] → s.halls = [] → ∃ ls, (s.readLines a n).2 = some ls ∧ ls.length = n := by
  induction n with
  | zero => intro a s _ _ _; exact ⟨[], rfl, rfl⟩
  | succ n ih =>
    intro a s hr hf hh
    obtain ⟨v, hv, h1, h2, h3⟩ := quiet_readLine s a hr hf hh
    obtain ⟨ls, hls, hn⟩ := ih (a + 64) _ h1 h2 h3
    refine ⟨v :: ls, ?_, by rw [List.length_cons, hn]⟩
    unfold State.readLines
    simp only [hv, hls]; rfl
theorem plainBytes_length : ∀ ls : List LineVal, (plainBytes ls).length = 64 * ls.length
  | [] => rfl
  | v :: ls => by
    have h : plainBytes (v :: ls) = (if v.poison then List.replicate 64 0 else leBytes 64 v.data.toNat) ++ plainBytes ls := rfl
    have h2 : (if v.poison then List.replicate 64 0 else leBytes 64 v.data.toNat : List Nat).length = 64 := by
      split
      · rw [List.length_replicate]
      · simp [leBytes]
    rw [h, List.length_append, h2, plainBytes_length ls, List.length_cons]
    omega

/-- A snapshot of one page into buffer 0, with what it has sent and its phase. -/
def snapping (sent : List (Nat × Bool)) (k : Nat) : State :=
  { live with
    pageMap := [(0, Pm.setHold (Pm.mk 0 100 0) 1)], prot := [(0, { Prot.empty with bufs := some (1, 2), job := some (.snapshot 0 9 1 0 [0] [0] sent 0 k) })],
    foyer := { live.foyer with qps := [(2, Qp.fresh 1 0 1 0 0 7 7 2 5 0 0 0 400000)], hostbufs := [(1, ⟨0, 2, 0, 0, 2 ^ 24⟩)] } }
theorem witness_SnapshotPage : (snapping [] 0).copies = [] ∧ (∀ q ∈ (snapping [] 0).foyer.qps, ∀ o ∈ q.2.ops, o.why ≠ .snapshot 0) ∧
    ([0].zipIdx.filter (fun (e : Nat × Nat) => !([] : List (Nat × Bool)).any (fun y => y.1 == e.2))) = [(0, 0)] ∧
    ∃ ls, ((snapping [] 0).pageImage 0).2 = some ls ∧ (snapping [] 0).bufTakes 1 (snapBase ((snapping [] 0).protOf 0).tensors.length + 0 * 2 ^ 23 + (plainBytes ls).length) = true := by
  refine ⟨rfl, by decide, by decide, ?_⟩
  obtain ⟨ls, h, hn⟩ := quiet_readLines frameLines (0 * 2 ^ 23) (snapping [] 0) rfl rfl rfl
  refine ⟨ls, ?_, ?_⟩
  · have h2 : ((snapping [] 0).holdRead (Pm.owner ((snapping [] 0).page 0)) (2 ^ 51) (0 * 2 ^ 23) (2 ^ 23)).2 = false := by decide
    unfold State.pageImage
    rw [if_neg (by decide)]
    simp only [h2]
    exact h
  · rw [plainBytes_length, hn]
    decide
theorem witness_ProtectionRows :
    (let l : LineOut := ⟨0, 64, 4, BitVec.allOnes 64, false, false, none, false⟩
     let s := fun (k : Nat) => put (linked (paged (fun (t : Tile) => { t with lineOut := [{ l with data := BitVec.ofNat 512 k }] })) linkIn id) [(F.SP_IN_STATE_REPLAYING, 0, 1, 1)]
     ((s 4).tile 0).nextOut = some l ∧ (s 4).stMayWrite 0 = true ∧ (s 4).doneLink 0 64 = some 1 ∧ (s 4).inCarea 0 64 = false ∧ (s 4).pageReason 0 (pageOf 64) true = 0 ∧ (s 4).pageHeld (pageOf 64) = false ∧ ((s 4).hallWrite 0 64 4 l.mask false).2 = true ∧
       (after (.doneWrite 0) (s 4)).g F.SP_IN_STATE_REPLAYING 0 1 = 0 ∧ (after (.doneWrite 0) (s 3)).g F.SP_IN_STATE_REPLAYING 0 1 = 1 ∧ (after (.doneWrite 0) (s 3)).parts.map (·.fault) = [true]) ∧
    (let k : SwtPkt := ⟨0, 0, 8, 0, 0, 0, 0, 0, 0, 0, true, 0, 0, false, 0⟩
     let s := { put live [(F.SP_LINK_VALID, 0, 0, 1), (F.SP_LINK_UP, 0, 0, 1), (F.SP_LINK_CTX, 0, 0, 8191)] with peers := [(8191, { PeerCtx.fresh 0 0 0 0 0 1024 false 0 with unacked := [k] })], now := 1000000000 }
     s.linkIsUp 0 = true ∧ (s.peer? (s.g F.SP_LINK_CTX 0)).isSome = true ∧ k.since + 1000000000 ≤ s.now ∧ (after (.linkLost 0) s).g F.SP_LINK_UP 0 = 0 ∧ (after (.linkLost 0) s).g F.SP_LAG_LOST 0 = 1) ∧
    ((∀ q ∈ (snapping [(0, true)] 2).foyer.qps, ∀ o ∈ q.2.ops, o.why ≠ .snapshot 0) ∧ (∀ e ∈ [0].zipIdx, ∃ y ∈ [(0, true)], y.1 = e.2) ∧ (after (.snapshotPageSent 0) (snapping [(0, true)] 2)).g F.SP_SNAP_VALIDIMG 0 = 1 ∧
       (after (.snapshotPageSent 0) (snapping [(0, true)] 2)).g F.SP_SNAP_STEP 0 = 9) ∧
    (let r : Restore := ⟨⟨⟨0, 1, 0, 0, 1⟩, 0x0503, [], []⟩, 0, [0], 0, []⟩
     let s := { put (paged id) [(F.SP_COMMIT_STEP, 0, 0, 6)] with parts := [{ Part.fresh 0 [0] 16 true with loaded := true }], prot := [(0, { Prot.empty with tensors := [⟨0, 1, 0, 0, 0, 0, 0, true⟩], restore := some r })] }
     (s.protOf 0).restore = some r ∧ ((s.part? 0).map (·.adopted)) = some true ∧ Pm.wsc (s.page 0) = 0 ∧ ((after (.restoreShadowDone 0 5 1 []) s).protOf 0).restore = none ∧
       (after (.restoreShadowDone 0 5 1 []) s).g F.SP_COMMIT_STEP 0 = 6 ∧ (after (.restoreShadowDone 0 6 1 []) s).g F.SP_LINK_ACKED 0 = 6 ∧ (((after (.restoreShadowDone 0 6 1 []) s).tensor? 0 0).map (·.method)) = some 2) := by decide
theorem witness_RiskRow :
    let s := put live [(F.MB_SENSOR_VALID, 0, 85, 1), (F.MB_SENSOR_VALUE, 0, 85, 89000), (F.MB_HOLDUP_FAILED, 0, 0, 1), (F.SP_TIERCFG_T3, 0, 0, 64), (F.SP_TIERCFG_T2, 0, 0, 50), (F.SP_TIERCFG_T1, 0, 0, 40)]
    (∀ x ∈ [(71, 3)], x.1 < 72) ∧ (∀ x ∈ [(31, 2)], x.1 < 32) ∧ s.hottest = some 89000 ∧ (after (.riskIndexUpdate [(71, 3)] [(31, 2)]) s).g F.SP_RISK_INDEX 0 = 16 + 48 + 16 + 8 ∧ (after (.riskIndexUpdate [(71, 3)] [(31, 2)]) s).g F.SP_RISK_TIER 0 = 3 := by decide

/-- What the MAC sees of a good untagged frame. -/
def ethOk : EthHead := ⟨true, 64, [], 0, [], false⟩
/-- A frame of a type at sub-port 63 for context 8191, with a good integrity check. -/
def frameOf (typ cls aux addr plen pay : Nat) : SwtFrame :=
  let f : SwtFrame := ⟨63, ethOk, true, true, 5, 0x5357, 1, typ, cls, false, 0, false, plen, 8191, 7, 0, aux, addr, 0, pay, 0, 0⟩
  { f with crc := crc32c (swtHeader typ cls false 0 false plen 8191 7 0 aux addr 0 ++ leBytes plen pay) }
/-- The frame passes every check, and its row takes it: its partition, sequence number and payload. -/
def good (s : State) (f : SwtFrame) (typ : Nat) (sub : Option Nat) : Option (Nat × Nat × Nat) :=
  if s.linkUp f.sub && isRow f typ sub && decide (f.sub < 64) then (match s.swtCheck f with | .good _ c q pay => some (c.lpart, q, pay) | .gone _ => none) else none
theorem witness_PacketsDropped :
    let s := peerOf id live
    let f := frameOf 10 0 0 0 0 0
    s.linkUp f.sub = true ∧ isRow f 10 (some 0) = true ∧ s.macCause 63 ethOk = 0 ∧ s.macCause 63 { ethOk with fcs := false } = 1 ∧ s.macCause 63 { ethOk with size := 63 } = 5 ∧ s.macCause 63 { ethOk with tags := [(1, 0)] } = 3 ∧
    s.macCause 63 { ethOk with full := [2] } = 2 ∧ (after (.keepalive { f with eth := { ethOk with fcs := false } }) s).g F.LINK_RX_DROP_LAST 31 1 = 1 ∧ (after (.keepalive { f with ver := 2 }) s).g F.SWT_DROP2_HDR 31 = 1 ∧
    (after (.keepalive { f with crc := f.crc + 1 }) s).g F.SWT_DROP_CRC 31 = 1 ∧ (after (.keepalive f) { s with peers := [] }).g F.SWT_DROP_CTX 31 = 1 ∧ (after (.keepalive f) s).g F.PT_RX_PKTS 31 = 1 := by decide
theorem witness_PeerMemoryRows :
    let s := fun (l : List PeerPend) => peerOf (fun (c : PeerCtx) => { c with pend := l }) (paged (fun (t : Tile) => { t with lineOut := [⟨0, 64, 0, 0, false, true, some (8191, 3), false⟩] }))
    let w := frameOf 0 2 0 64 64 5
    let r := frameOf 1 2 1 0 0 0
    let a := frameOf 2 2 0 6 64 9
    let d := frameOf 4 2 0 (3 + 2 * 2 ^ 32) 0 0
    good (s []) w 0 none = some (0, 0, 5) ∧ payloadLines 64 5 0 = [⟨5, false⟩] ∧ (s []).inCarea 0 64 = false ∧ (s []).lineWaits 64 = false ∧ ((s []).collOf 0).held = [] ∧ (after (.swtWrite w) (s [])).frameLine 100 1 = frameStore 5 false ∧
    (((after (.swtWrite w) (s [])).peer? 8191).map (fun c => c.unacked.map (·.typ))) = some [4] ∧ good (s []) (frameOf 0 2 0 (2 ^ 42) 64 5) 0 none = some (0, 0, 5) ∧
    (after (.swtWrite (frameOf 0 2 0 (2 ^ 42) 64 5)) (s [])).parts.map (·.fault) = [true] ∧
    good (s []) r 1 none = some (0, 0, 0) ∧ (s []).resultHeld 0 0 = false ∧ (((after (.swtRead r) (s [])).peer? 8191).map (fun c => c.unacked.map (fun x => (x.typ, x.payload)))) = some [(2, 7)] ∧
    (let h := planned (s []) sumD id
     h.g F.COLL_RHALF_RHALF 0 = 0 ∧ (h.w F.COLL_RHALF_RHALF 0 0 64).resultHeld 0 0 = true ∧ (after (.swtRead r) (h.w F.COLL_RHALF_RHALF 0 0 64)).peerReads = [⟨8191, 2, 0, 0, 1⟩]) ∧
    (((after (.swtRead (frameOf 1 2 1 (2 ^ 42) 0 0)) (s [])).peer? 8191).map (fun c => c.unacked.map (fun x => (x.typ, x.aux)))) = some [(2, 9)] ∧
    good (s [.read 2 6 0 0 128 1]) a 2 none = some (0, 0, 9) ∧ ((after (.readResp a) (s [.read 2 6 0 0 128 1])).tile 0).lineResp = [⟨0, 128, ⟨9, false⟩⟩] ∧
    ((after (.readResp (frameOf 2 2 9 6 0 0)) (s [.read 2 6 0 0 128 1])).tile 0).lineResp = [⟨0, 128, ⟨0, true⟩⟩] ∧
    good (s [.write 2 3 0 0]) d 4 none = some (0, 0, 0) ∧ ((after (.dack d) (s [.write 2 3 0 0])).tile 0).lineOut = [] := by decide +kernel
/-- Header word 0 of a message to inbound channel 5 from tile 0, channel 63. -/
def remoteHdr : Nat := 63 * 2 ^ 16 + 5 * 2 ^ 22 + 2 ^ 44 + 2 ^ 57
theorem witness_PeerEventRows :
    let s := peerOf id (ring id [(F.CHI_CFG_SKIND, 0, 5, 2), (F.CHI_CFG_SOURCE, 0, 5, 8191)])
    let m := frameOf 3 1 (remoteHdr % 2 ^ 32) (remoteHdr / 2 ^ 32) 12 7
    let c := fun (set words : Nat) => frameOf 5 0 1 0 8 (63 * 2 ^ 13 + words * 2 ^ 19 + set * 2 ^ 36)
    good s m 3 none = some (0, 0, 7) ∧ s.msgTile 0 (msgHdrOf remoteHdr 8191) = some 0 ∧ (after (.swtMsg m) s).net.map (·.body.tile?) = [some 0] ∧ (after (.swtMsg m) s).ban.map (·.msg) = [.bell 5 0 20000] ∧
    (peerOf id live).msgTile 0 (msgHdrOf remoteHdr 8191) = none ∧ (((after (.swtMsg m) (peerOf id live)).peer? 8191).map (fun c => c.unacked.map (fun x => (x.typ, x.aux)))) = some [(4, 6)] ∧
    good s (c 1 9) 5 none = some (0, 0, 63 * 2 ^ 13 + 9 * 2 ^ 19 + 2 ^ 36) ∧ fld (63 * 2 ^ 13) 0 13 < s.tileCount 0 ∧ (after (.credit (c 1 9)) s).g F.CHO_STATE_CRED 0 63 = 9 ∧
    (after (.credit (c 0 (2 ^ 17 - 65))) s).g F.CHO_STATE_CRED 0 63 = 2 ^ 17 - 1 ∧
    (let g := fun (mode : Nat) => { put s [(F.LAND_CTRL_MODE, 0, 0, mode)] with parts := [{ Part.fresh 0 [0] 16 false with launched := true, groupCtx := [8192, 8191] }] }
     let f := fun (aux l : Nat) => frameOf 6 0 aux (l + 2 * 2 ^ 32) 0 0
     good (g 1) (f 0 4) 6 none = some (0, 0, 0) ∧ 4 < diff32 5 ((g 1).g F.LAND_NUM_DONE 0) ∧ diff32 4 ((g 1).g F.LAND_NUM_DONE 0) = 4 ∧ (after (.landPacket (f 0 5)) (g 1)).parts.map (·.fault) = [true] ∧
       (((after (.landPacket (f 0 4)) (g 1)).landing? 0 4).map (·.kids)) = some [1] ∧ (((after (.landPacket (f 1 1)) (g 1)).landing? 0 1).map (·.release)) = some (some 2) ∧
       (((after (.landPacket (f 2 0)) (g 2)).part? 0).map (·.rankBits)) = some [(0, 8191, 2)]) ∧
    good s (frameOf 10 0 0 0 0 0) 10 (some 0) = some (0, 0, 0) ∧ good s (frameOf 10 0 1 0 0 0) 10 (some 1) = some (0, 0, 0) ∧ (((after (.partEnd (frameOf 10 0 1 0 0 0)) s).peer? 8191).map (·.up)) = some false := by decide +kernel
theorem witness_PeerProtectionRows :
    let b := fun (m : List (Nat × Nat × Nat)) => put (linked (planned (peerOf id (paged id)) sumD id) { linkIn with map := m, tail := 2 ^ 23 - 64 } id) [(F.SP_IN_CFG_CTX, 0, 1, 8191), (F.SP_IN_CFG_LBASE, 0, 1, 8192)]
    (let s := fun (k : Nat) => put (planned (peerOf id (paged id)) sumD id) [(F.COLL_WIN_WATER, 0, 0, k)]
     let f := frameOf 7 2 0 0 36 (9 * 2 ^ 256)
     (s 1).collTransit 0 (collOfPacket sumD 0 0 36 (9 * 2 ^ 256) 0) = false ∧ good (s 1) f 7 none = some (0, 0, 9 * 2 ^ 256) ∧ good (s 0) f 7 none = some (0, 0, 9 * 2 ^ 256) ∧ (s 1).g F.COLL_STEP_STEP 0 = 0 ∧ (after (.coll f) (s 1)).coll = (s 1).coll ∧ (after (.coll f) (s 0)).g F.COLL_RX_LINES 0 = 1) ∧
    (let f := frameOf 8 0 4 (3 * 2 ^ 23) 0 0
     good (b []) f 8 none = some (0, 0, 0) ∧ ((b []).linkBind 0 8191).linkOf 0 8191 = some 1 ∧ (((b []).linkBind 0 8191).shadowLine 0 1 4 (3 * 2 ^ 23)).2 = none ∧ (peerOf id live).linkOf 0 8191 = none ∧ ((b [(0, 0, 3)]).linkBind 0 8191).linkOf 0 8191 = some 1 ∧ ((b [(0, 0, 3)]).shadowLine 0 1 4 (3 * 2 ^ 23)).2 = some ⟨7, false⟩ ∧
       (((after (.repair f) (peerOf id live)).peer? 8191).map (fun c => c.unacked.map (fun x => (x.typ, x.aux)))) = some [(9, 1)] ∧
       (((after (.repair f) (b [(0, 0, 3)])).peer? 8191).map (fun c => c.unacked.map (fun x => (x.typ, x.aux, x.payload)))) = some [(9, 0, 7)]) ∧
    (let s : State := { peerOf id (paged id) with repairs := [⟨0, 131071, 5, false, false, []⟩] }
     let f := fun (aux a : Nat) => frameOf 9 0 aux (64 * a) 64 21
     good s (f 0 131071) 9 none = some (0, 0, 21) ∧ good s (f 1 131071) 9 none = some (0, 0, 21) ∧ s.peerReads = [] ∧ s.repairing 0 131070 = false ∧ s.repairing 0 131071 = true ∧
       (after (.repairResp (f 0 131070)) s).repairs = s.repairs ∧ (after (.repairResp (f 0 131071)) s).frameLine 100 131071 = frameStore 21 false ∧
       frameClassify ((after (.repairResp (f 1 131071)) s).frameLine 100 131071) = .poison) ∧
    (let s := put (peerOf id live) [(F.SP_LINK_VALID, 0, 0, 1), (F.SP_LINK_UP, 0, 0, 1), (F.SP_LINK_CTX, 0, 0, 8191)]
     good s (frameOf 10 0 2 9 0 0) 10 (some 2) = some (0, 0, 0) ∧ s.linkIsUp 0 = true ∧ (after (.spAck (frameOf 10 0 2 9 0 0)) s).g F.SP_LINK_ACKED 0 = 9 ∧
     (let d : State := { s with prot := [(0, { Prot.empty with digests := [(1023, 3, 99)] })] }
      let f := fun (a : Nat) => frameOf 10 0 (5 + 1023 * 2 ^ 8) a 8 3
      good d (f 99) 10 (some 5) = some (0, 0, 3) ∧ (after (.spDigest (f 99)) d).g F.SP_DIGEST_MISMATCH 0 = 0 ∧ (after (.spDigest (f 98)) d).g F.SP_DIGEST_MISMATCH 0 = 1 ∧ (after (.spDigest (f 98)) d).g F.SP_DIGEST_CHECKS 0 = 1)) ∧
    (let f := fun (st : Nat) => frameOf 10 0 3 0 256 (st + 11 * 2 ^ 64)
     good (b []) (f 7) 10 (some 3) = some (0, 0, 7 + 11 * 2 ^ 64) ∧ ((b []).linkBind 0 8191).legLate 0 1 4 = true ∧ ((b []).linkBind 0 8191).legLate 0 1 6 = false ∧ ((b []).linkBind 0 8191).legLate 0 1 7 = false ∧ ((b []).linkBind 0 8191).legBlocked 0 1 7 = true ∧ ((b []).linkBind 0 8191).legBlocked 0 1 6 = false ∧
       (((b []).linkBind 0 8191).collWrite 0 (((b []).linkBind 0 8191).legBase 0 1 6) (toLines ((leBytes 256 (6 + 11 * 2 ^ 64)).map (fun (x : Nat) => (x, false))))).2 = 0 ∧
       (((after (.spRecord (f 7)) (b [])).inLink? 0 1).map (·.broken)) = some true ∧ (((after (.spRecord (f 6)) (b [])).inLink? 0 1).map (·.recs)) = some [(5, 0), (6, 11)]) ∧
    (let f := fun (step last : Nat) => frameOf 10 0 (4 + last * 2 ^ 18 + step * 2 ^ 19) 8256 64 21
     let q := put (b []) [(F.SP_IN_STATE_CATCHUP, 0, 1, 1)]
     good (b []) (f 5 0) 10 (some 4) = some (0, 0, 21) ∧ good q (f 4 1) 10 (some 4) = some (0, 0, 21) ∧ (8256 % 2 ^ 42 / 2 ^ 23 < linkIn.shn) ∧ (((b []).linkBind 0 8191).collWrite 0 8256 (payloadLines 64 21 0)).2 = 0 ∧
       (((after (.spPage (f 5 0)) (b [])).inLink? 0 1).map (fun x => (x.step, x.tail))) = some (5, 0) ∧ (((after (.spPage (f 4 1)) q).inLink? 0 1).map (fun x => (x.built, x.first, x.broken))) = some (true, true, false) ∧
       (after (.spPage (f 4 1)) q).g F.SP_IN_STATE_CATCHUP 0 1 = 0 ∧ (after (.spPage (f 4 1)) q).g F.SP_IN_STATE_STEP 0 1 = 4) := by decide +kernel
/-- A kept packet of class 0. -/
def keptPkt (seq : Nat) (sent : Bool) : SwtPkt := ⟨0, seq, 8, 0, 0, 0, 0, 0, 0, 100, sent, 100, 0, false, 0⟩
theorem witness_PeerTimers :
    let s := fun (f : PeerCtx → PeerCtx) => { peerOf f live with now := 1000000100 }
    let due := fun (c : PeerCtx) => { c with ackDue := [(0, 1000000100 - 2000)] }
    let kept := fun (c : PeerCtx) => { c with unacked := [keptPkt 0 true, keptPkt 1 true, keptPkt 2 false], txSeq := [(0, 3)] }
    let old := fun (c : PeerCtx) => { c with unacked := [keptPkt 0 true] }
    let young := fun (c : PeerCtx) => { c with unacked := [{ keptPkt 0 true with since := 101, sentAt := 1000000100 }], emptyAt := some 101, lastTx := 990000101 }
    good (s kept) (frameOf 11 0 0 2 0 0) 11 none = some (0, 0, 0) ∧ (((after (.ack (frameOf 11 0 0 2 0 0)) (s kept)).peer? 8191).map (fun d => d.unacked.map (·.seq))) = some [2] ∧
    (((s due).peer? 8191).map (fun c => (c.up, (s due).pickLink 8191 0 c, c.canSend c.keyid, c.ackDue.any (fun (a : Nat × Nat) => a.1 == 0 && decide (a.2 + 2000 ≤ (s due).now))))) = some (true, some 63, true, true) ∧
    (((after (.ackTimer 8191 0) (s due)).peer? 8191).map (fun d => (d.ackDue, d.ackCtr))) = some ([], 1) ∧ (after (.ackTimer 8191 0) (s due)).g F.PT_TX_PKTS 31 = 1 ∧
    (((s old).peer? 8191).map (fun c => ((s old).overdue c, (s old).pickLink 8191 0 c))) = some ([keptPkt 0 true], some 63) ∧ (after (.retransmitTimeout 8191) (s old)).g F.PT_RETX_PKTS 31 = 1 ∧
    (((s young).peer? 8191).map (fun c => (s young).overdue c)) = some [] ∧ (after (.retransmitTimeout 8191) (s young)).peers = (s young).peers ∧
    (let b := s (fun (c : PeerCtx) => { c with unacked := [keptPkt 0 false, { keptPkt 0 false with cls := 3 }] })
     let b := { b with ports := { b.ports with paused := [(8 * 63 + bitsAt (b.regs.rd R.PORT_QOS 31 0) 32 3, 2 ^ 40)] } }
     b.pausedAt 63 0 = true ∧ b.pausedAt 63 3 = false ∧ ((b.resumeTx 63).peer? 8191).map (fun d => d.unacked.map (fun x => (x.cls, x.sent))) = some [(0, false), (3, true)]) ∧
    (let c := s (fun (c : PeerCtx) => { c with credits := [(3, 4, 5, false)] })
     ((after (.creditPacketTimer 8191) c).peer? 8191).map (fun d => (d.credits, d.unacked.map (fun x => (x.typ, x.aux)))) = some ([], [(5, 1)])) ∧
    ((keptPkt 0 true).since + 1000000000 ≤ (s old).now) ∧ (((after (.contextDownTimer 8191) (s old)).peer? 8191).map (·.up)) = some false ∧ (after (.contextDownTimer 8191) (s young)).peers = (s young).peers ∧
    (0 + 10000000 ≤ (s id).now) ∧ (((after (.keepaliveTimer 8191) (s id)).peer? 8191).map (fun d => d.unacked.map (fun x => (x.typ, x.aux)))) = some [(10, 0)] ∧ (after (.keepaliveTimer 8191) (s young)).peers = (s young).peers := by decide +kernel

/-- Host port 1 up, with queue pair 1023 of a kind, bound to queue 5 of partition 0, and region 3. -/
def hosted (kind : Nat) (q : Qp → Qp) (r : Region_) (s : State) : State :=
  { put s [(F.LINK_STATUS_UP, 33, 0, 1), (F.CQ_CFG_VALID, 5, 0, 1), (F.CQ_CFG_LOGSLOTS, 5, 0, 4), (F.CLK_PPS_EN, 0, 0, 1)] with
    foyer := { s.foyer with qps := [(1023, q (Qp.fresh kind 0 5 1 0 2 2 0 100 200 (2 ^ 24 - 1) 0 200000))], regions := [(3, r)] } }
/-- A request of one packet for it. -/
def request (va rkey imm : Nat) (data : List Nat) : RocePkt := ⟨1, ethOk, false, 1023, 2 ^ 24 - 1, true, true, va, rkey, data.length, imm, data⟩
/-- A request that passes the transport checks, with what its region check answers. -/
def asked (s : State) (k : RocePkt) (whole write : Bool) : Option (Nat × Nat × Nat) :=
  match s.roceCheck k whole with
  | .good s1 q => some (q.kind, (s1.regionCheck q k.rkey k.va k.len write).2.1, (s1.regionCheck q k.rkey k.va k.len write).2.2.1.kind)
  | _ => none
/-- Whether its bytes can be written at once. -/
def writes (s : State) (k : RocePkt) : Bool :=
  match s.roceCheck k false with
  | .good s1 q => (let r := s1.regionCheck q k.rkey k.va k.len true; match r.1.regionWrite ⟨r.2.2.1, k.va, k.len, []⟩ k.data with | .ok (_, _, ok) => ok | .error _ => false)
  | _ => false
/-- The bytes it reads. -/
def reads (s : State) (k : RocePkt) : Option (List (Nat × Bool)) :=
  match s.roceCheck k true with
  | .good s1 q => (let r := s1.regionCheck q k.rkey k.va k.len false; (r.1.regionRead r.2.2.1 (2 ^ 40 + k.qpn * 2 ^ 24 + k.psn) k.va k.len).2)
  | _ => none
def globalR : Region_ := ⟨0, 0, 3, 0, 0, 2 ^ 23⟩
def wordsR : Region_ := ⟨0, 1, 3, 0, 2144, 192⟩
def ringR : Region_ := ⟨0, 3, 3, 5, 0, 2048⟩
theorem witness_HostWrites :
    let s := fun (kind : Nat) (r : Region_) => hosted kind id r (paged id)
    let a := hosted 2 id wordsR alcove
    asked (s 2 globalR) (request 0 4 0 [5]) false true = some (2, 3, 9) ∧ (((after (.rdmaWrite (request 0 4 0 [5])) (s 2 globalR)).qp? 1023).map (fun q => (q.epsn, q.nakTx))) = some (2 ^ 24 - 1, [(3, 1)]) ∧
    asked (s 2 globalR) (request 64 3 0 [5]) false true = some (2, 0, 0) ∧ writes (s 2 globalR) (request 64 3 0 [5]) = true ∧ (((after (.rdmaWrite (request 64 3 0 [5])) (s 2 globalR)).qp? 1023).map (·.epsn)) = some 0 ∧
    ((after (.rdmaWrite (request 64 3 0 [5])) (s 2 globalR)).readLine 64).2 = some ⟨5, false⟩ ∧
    (request 0 3 0 (List.replicate 192 1)).len = 192 ∧ asked a (request 0 3 0 (List.replicate 192 1)) false true = some (2, 0, 1) ∧ (after (.rdmaWrite (request 0 3 0 (List.replicate 192 1))) a).word 0 2159 = .clean (leVal (List.replicate 12 1)) ∧
    asked (s 1 ringR) (request 0 3 3 [5]) false true = some (1, 0, 3) ∧ writes (s 1 ringR) (request 0 3 16 [5]) = true ∧ sub30 (16 % 2 ^ 30) ((s 1 ringR).g F.CQ_HEAD_HEAD 5) ≤ 2 ^ (s 1 ringR).g F.CQ_CFG_LOGSLOTS 5 ∧
    (after (.rdmaWriteWithImmediate (request 0 3 16 [5])) (s 1 ringR)).g F.CQ_TAIL_TAIL 5 = 16 := by decide +kernel
theorem witness_HostRequests :
    let s := fun (kind : Nat) (tail : Nat) (r : Region_) => put (hosted kind id r (paged id)) [(F.CQ_TAIL_TAIL, 5, 0, tail)]
    let k := request 0 0 0 (List.replicate 129 7)
    asked (s 1 14 ringR) k true false = some (1, 3, 9) ∧ sub30 14 ((s 1 14 ringR).g F.CQ_HEAD_HEAD 5) + 2 ≤ 2 ^ (s 1 14 ringR).g F.CQ_CFG_LOGSLOTS 5 ∧ (after (.roceSend k) (s 1 14 ringR)).g F.CQ_TAIL_TAIL 5 = 16 ∧
    (after (.roceSend k) (s 1 14 ringR)).frameLine 1 (5 * 2 ^ 14 + 28) = frameStore (leVal (List.replicate 64 7)) false ∧
    2 ^ (s 1 15 ringR).g F.CQ_CFG_LOGSLOTS 5 < sub30 15 ((s 1 15 ringR).g F.CQ_HEAD_HEAD 5) + 2 ∧ (after (.sendWithImmediate k) (s 1 15 ringR)).g F.CQ_TAIL_TAIL 5 = 15 ∧ (after (.sendWithImmediate k) (s 1 15 ringR)).g F.ROCE_NAK_RNR 33 = 1 ∧
    (let d := { request 0 3 0 [] with len := 65 }
     asked (s 2 0 globalR) d true false = some (2, 0, 0) ∧ reads (s 2 0 globalR) d = some ([(7, false)] ++ List.replicate 64 (0, false)) ∧ (((after (.rdmaRead d) (s 2 0 globalR)).qp? 1023).map (·.epsn)) = some 0 ∧
       asked (s 2 0 globalR) { d with rkey := 2 } true false = some (2, 3, 9) ∧ (((after (.rdmaRead { d with rkey := 2 }) (s 2 0 globalR)).qp? 1023).map (·.epsn)) = some (2 ^ 24 - 1) ∧
       (let w := { s 2 0 globalR with ports := { (s 2 0 globalR).ports with paused := (List.range 8).map (fun (i : Nat) => (8 * 66 + i, 2 ^ 40)) } }
        let h := put (s 2 0 globalR) [(F.COLL_PLAN_VALID, 0, 0, 1), (F.COLL_RHALF_RHALF, 0, 0, 128)]
        w.hostMay 1 2 = false ∧ (s 2 0 globalR).hostMay 1 2 = true ∧ asked w d true false = some (2, 0, 0) ∧ (((after (.rdmaRead d) w).qp? 1023).map (fun q => q.answers.map (fun x => (x.1, x.2.1, x.2.2.1, x.2.2.2.length)))) = some [(2, 6, 2 ^ 24 - 1, 65)] ∧
          (((s 2 0 globalR).qp? 1023).map (·.answers)) = some [] ∧ asked h d true false = some (2, 0, 0) ∧ reads h d = none ∧ (after (.rdmaRead d) h).out.length = 0)) := by decide +kernel
theorem witness_QueuePairRows :
    let op : QpOp := ⟨2 ^ 24 - 1, 1, .hostWrite 0 0 [], .none, true⟩
    let rd : QpOp := ⟨7, 1, .hostRead 0 0 4, .update, true⟩
    let s := fun (q : Qp → Qp) => { hosted 2 q globalR live with now := 100000 }
    let u : Update := ⟨1, none, [], 4, 0, false, 0⟩
    (s id).hostUp 1 = true ∧ isRead op = false ∧ ((2 ^ 24 - 1 + 1) % 2 ^ 24 + 2 ^ 24 - (op.psn + op.n) % 2 ^ 24) % 2 ^ 24 < 2 ^ 23 ∧ 2 ^ 23 ≤ ((2 ^ 24 - 2 + 1) % 2 ^ 24 + 2 ^ 24 - (op.psn + op.n) % 2 ^ 24) % 2 ^ 24 ∧
    (((after (.roceAck 1023 (2 ^ 24 - 1) ethOk) (s (fun (q : Qp) => { q with ops := [op], tries := 2 }))).qp? 1023).map (fun q => (q.ops, q.tries))) = some ([], 0) ∧
    (((after (.roceAck 1023 (2 ^ 24 - 2) ethOk) (s (fun (q : Qp) => { q with ops := [op], tries := 2 }))).qp? 1023).map (fun q => (q.ops, q.tries))) = some ([op], 2) ∧
    (after (.roceAck 1023 0 { ethOk with ce := true }) (s id)).g F.PT_ECN_CE 33 = 1 ∧ (after (.roceAck 1023 0 { ethOk with ce := true }) (s id)).g F.PT_ECN_CNP 33 = 1 ∧
    (((after (.roceNak 1023 0 0 (some 77) ethOk) (s id)).qp? 1023).map (·.rnrAt)) = some (some 100077) ∧ (((after (.roceNak 1023 0 2 none ethOk) (s id)).qp? 1023).map (·.ok)) = some false ∧
    (((after (.roceNak 1023 0 0 none ethOk) (s (fun (q : Qp) => { q with tries := 1 }))).qp? 1023).map (fun q => (q.tries, q.ok))) = some (2, true) ∧
    (let m : State := { s (fun (q : Qp) => { q with ops := [rd] }) with mss := { Mss.reset with update := some u } }
     m.mss.update = some u ∧ rd.out = .hostRead 0 0 [1, 2, 3, 4].length ∧ u.total ≤ 4 ∧ (after (.readResponse 1023 7 [1, 2, 3, 4] ethOk) m).mss.update = some { u with bytes := [1, 2, 3, 4], phase := 1 }) ∧
    (((after (.cnp 1023 ethOk) (s (fun (q : Qp) => { q with lastcut := some 50000 }))).qp? 1023).map (·.rate)) = some 175000 ∧ (((after (.cnp 1023 ethOk) (s (fun (q : Qp) => { q with lastcut := some 50001 }))).qp? 1023).map (·.rate)) = some 200000 ∧
    (let f := fun (k : Nat) => s (fun (q : Qp) => { q with ops := [op], tries := k })
     (((after (.localAckTimeout 1023) (f 1)).qp? 1023).map (fun q => (q.tries, q.retried, q.ok))) = some (2, 1, true) ∧ (((after (.localAckTimeout 1023) (f 2)).qp? 1023).map (fun q => (q.ok, q.ops))) = some (false, [])) ∧
    (let f := fun (e k : Nat) => s (fun (q : Qp) => { q with rnrAt := some e, rnrTries := k })
     (((after (.rnrRetryTimer 1023) (f 100001 0)).qp? 1023).map (·.rnrAt)) = some (some 100001) ∧ (((after (.rnrRetryTimer 1023) (f 100000 1)).qp? 1023).map (fun q => (q.rnrAt, q.rnrTries))) = some (none, 2) ∧
       (((after (.rnrRetryTimer 1023) (f 100000 2)).qp? 1023).map (·.ok)) = some false) ∧
    (((after (.cnpRateTimer 1023) (s (fun (q : Qp) => { q with cnpRx := some 45000 }))).qp? 1023).map (·.rate)) = some 220000 ∧ (((after (.cnpRateTimer 1023) (s (fun (q : Qp) => { q with cnpRx := some 45001 }))).qp? 1023).map (·.rate)) = some 200000 := by decide +kernel
theorem witness_LinkRows :
    let s := put live [(F.LINK_STATUS_UP, 31, 1, 1), (F.PORT_CFG_MODE, 31, 0, 2), (F.PORT_CFG_MODE, 35, 0, 1), (F.PORT_PTP_DISC, 3, 0, 1)]
    s.linkUp 63 = true ∧ s.linkUp 62 = false ∧ s.linkUp 70 = false ∧ s.power.phase = .running ∧ s.g F.PORT_CFG_MODE (62 / 2) ≠ 0 ∧ s.g F.PORT_CFG_MODE (70 / 2) ≠ 0 ∧
    (after (.droppedFrame ⟨63, ethOk⟩ true 0) s).g F.LINK_RX_DROP_LAST 31 1 = 6 ∧ (after (.droppedFrame ⟨63, ethOk⟩ true 5) s).g F.LINK_RX_DROP_LAST 31 1 = 1 ∧ (after (.droppedFrame ⟨63, ethOk⟩ true 5) s).g F.LINK_FEC_UNC_COUNT 31 1 = 5 ∧ (after (.linkUp 62) s).linkUp 62 = true ∧ (after (.linkUp 70) s).linkUp 70 = true ∧
    (after (.linkDown 63 1 0) s).linkUp 63 = false ∧ (after (.linkDown 63 1 0) s).g F.LINK_FLAPS_COUNT 31 1 = 1 ∧ (after (.linkDown 63 1 0) s).g F.LINK_STATUS_LFAULT 31 1 = 1 ∧
    (after (.linkUp 63) (after (.linkDown 63 1 0) s)).g F.LINK_STATUS_LFAULT 31 1 = 0 ∧
    (after (.portModeWrite 31 1) s).linkUp 63 = false ∧ (after (.portModeWrite 31 1) s).g F.PORT_CFG_MODE 31 = 1 ∧ (after (.portModeWrite 35 2) s).g F.PORT_CFG_MODE 35 = 1 ∧ (after (.portModeWrite 31 3) s).linkUp 63 = true ∧
    (after (.ptpDiscWrite 35 true) s).g F.PORT_PTP_DISC 35 = 1 ∧ (after (.ptpDiscWrite 35 true) s).g F.PORT_PTP_DISC 3 = 0 ∧ (after (.ptpDiscWrite 3 false) s).g F.PORT_PTP_DISC 3 = 0 := by decide +kernel
theorem witness_FrameRows :
    let s := fun (now : Nat) (edge : Option Nat) (l : List (Fld × Nat × Nat × Nat)) =>
      let b := put live ([(F.LINK_STATUS_UP, 35, 1, 1), (F.PORT_CFG_PFC, 35, 0, 128), (F.PORT_PTP_TSEN, 35, 0, 1), (F.PORT_PTP_DISC, 35, 0, 1), (F.PORT_PTP_DOMAIN, 35, 0, 255)] ++ l)
      { b with now := now, power := { b.power with ppsEdge := edge, ppsGood := 2 } }
    let p := (F.CLK_PPS_EN, 0, 0, 1)
    let z : State := s 50 none []
    z.linkUp 71 = true ∧ z.macCause 71 ethOk = 0 ∧ Sparse.get 0 (after (.pfcFrame 71 255 [0, 0, 0, 0, 0, 0, 0, 100]) z).ports.paused 575 = 50 + 128 ∧ Sparse.get 0 (after (.pfcFrame 71 255 [0, 0, 0, 0, 0, 0, 0, 100]) z).ports.paused 574 = 0 ∧
    Sparse.get 0 (after (.pfcPauseExpiry 71 7) { z with ports := { z.ports with paused := [(575, 50)] } }).ports.paused 575 = 0 ∧
    (after (.neighbourDiscovery ⟨71, ethOk⟩ true true 9) z).out.length = 1 ∧ (after (.neighbourDiscovery ⟨71, ethOk⟩ false false 9) z).g F.LINK_RX_DROP_LAST 35 1 = 4 ∧
    z.g F.PORT_PTP_TSEN 35 = 1 ∧ z.g F.CLK_PPS_EN 0 = 0 ∧ (after (.ptpEventMessage ⟨71, ethOk⟩ 0 255 3 1000) z).ports.ptpSync = some (3, 1000, 50) ∧ (after (.ptpEventMessage ⟨71, ethOk⟩ 0 255 3 1000) (s 50 none [p])).ports.ptpSync = none ∧
    (s 50 none [p]).power.phase = .running ∧ (after .ppsGlitch (s 50 none [p])).g F.PWR_GLITCH_PPS 0 = 1 ∧ (after .ppsEdge (s 500000000 (some 1) [p])).g F.PWR_GLITCH_PPS 0 = 1 ∧
    ppsOffset 3000000099 = 99 ∧ ppsOffset 2999999000 = -1000 ∧ (after .ppsEdge (s 3000000099 (some 2500000099) [p])).g F.CLK_PPS_LOCKED 0 = 1 ∧ (after .ppsEdge (s 3000000099 (some 2500000099) [p])).power.slew = -99 ∧
    (after .ppsEdge (s 2999999000 none [p])).now = 3000000000 ∧ (after .ppsEdge (s 2999999000 none [p])).g F.CLK_PPS_STEPPED 0 = 1 ∧
    (s 2500000001 (some 1) [p, (F.CLK_PPS_LOCKED, 0, 0, 1)]).g F.CLK_PPS_LOCKED 0 = 1 ∧ (after .ppsLost (s 2500000001 (some 1) [p, (F.CLK_PPS_LOCKED, 0, 0, 1)])).g F.CLK_PPS_LOST 0 = 1 := by decide +kernel

/-- Commands: a queue of the device and queue 5 of partition 0, host buffer 9 on queue pair 1023. Completions are held, since no queue has a completion ring. -/
def h0 : CmdHdr := ⟨0, 1, 0, 0, 0⟩
def h1 : CmdHdr := ⟨5, 1, 0, 0, 0⟩
def cmds (s : State) : State :=
  let b := put (hosted 2 id globalR s) [(F.CQ_CFG_VALID, 0, 0, 1), (F.CQ_CFG_CRING, 0, 0, 4095), (F.CQ_CFG_CRING, 5, 0, 4095)]
  { b with foyer := { b.foyer with hostbufs := [(9, ⟨0, 1023, 7, 0, 2 ^ 21⟩)] } }
/-- The command starts and completes, with this status and RESULT. -/
def does (i : Instr) (s : State) (st : Nat) (r : List (Nat × Nat)) : Bool := s.starts i && decide ((after i s).foyer.heldDone.map (fun (d : RunCmd × Nat) => (d.2, d.1.result)) = [(st, r)])
theorem witness_CommandsTaken :
    let s := cmds live
    let busy : State := s.upFoyer (fun x => { x with running := [⟨h0, 0, [], []⟩] })
    (cmdForm (.nopCommand h0)).isSome = true ∧ busy.mayStart h0 0 [] = false ∧ s.mayStart h0 0x0201 [] = true ∧ s.cmdBad h0 1 1 = 3 ∧ ((after (.launch h0) s).foyer.heldDone.map (·.2)) = [3] ∧
    s.foyer.closing.contains 0 = false ∧ s.cringRoom 0 = false ∧ (s.cmdDone ⟨h0, 0, [], []⟩ 4).g F.CQ_DONE_COUNT 0 = 1 ∧ ((s.cmdDone ⟨{ h0 with flags := 2 }, 0, [], []⟩ 0).foyer.heldDone = []) ∧
    sub30 (16 % 2 ^ 30) (s.g F.CQ_HEAD_HEAD 5) ≤ 2 ^ s.g F.CQ_CFG_LOGSLOTS 5 ∧ 2 ^ s.g F.CQ_CFG_LOGSLOTS 5 < sub30 (17 % 2 ^ 30) (s.g F.CQ_HEAD_HEAD 5) ∧ (after (.tailDoorbell 5 16) s).g F.CQ_TAIL_TAIL 5 = 16 ∧
    (after (.tailDoorbell 5 17) s).g F.CQ_TAIL_TAIL 5 = 0 ∧ (after (.tailDoorbell 5 17) s).g F.CQ_STATUS_OVERRUN 5 = 1 ∧
    (let w := s.upFoyer (fun x => { x with written := [(5, 7)] })
     sub30 (7 % 2 ^ 30) (w.g F.CQ_CHEAD_CHEAD 5) ≤ sub30 (Sparse.get 0 w.foyer.written 5) (w.g F.CQ_CHEAD_CHEAD 5) ∧ (after (.cheadDoorbell 5 7) w).g F.CQ_CHEAD_CHEAD 5 = 7) ∧
    (let e := put s [(F.EV_TAIL_TAIL, 8, 0, 7)]
     sub30 (7 % 2 ^ 30) (e.g F.EV_HEAD_HEAD 8) ≤ sub30 (e.g F.EV_TAIL_TAIL 8) (e.g F.EV_HEAD_HEAD 8) ∧ (after (.eheadDoorbell 5 8 7) e).g F.EV_HEAD_HEAD 8 = 7) ∧
    (let b := leVal ([0, 0, 1, 0] ++ leBytes 4 77)
     let t : State := { put s [(F.CQ_TAIL_TAIL, 5, 0, 1)] with frames := [(131072 + 5 * 16384, frameStore b false)] }
     t.ready = true ∧ t.foyer.stopped = false ∧ ((List.range 64).map (fun (i : Nat) => (t.foyer.turn + 1 + i) % 64)).find? (fun q => t.mayTake q) = some 5 ∧ (t.ringSlots 5 0 1).2 = some (leBytes 128 b) ∧
       ((t.ringSlots 5 0 1).1.ringSlots 5 0 1).2 = some (leBytes 128 b) ∧ parAt (leBytes 128 b) 2 1 = 1 ∧ parEnd (parAt (leBytes 128 b) 0 2) ((leBytes 128 b).drop 32) = some 0 ∧
       (after .takePacket t).foyer.taken.map (·.hdr) = [⟨5, 77, 0, 0, 0⟩] ∧ (after .takePacket t).g F.CQ_HEAD_HEAD 5 = 1) := by decide +kernel
theorem witness_QueueCommands :
    let s := cmds live
    let hb := some (⟨0, 1023, 7, 0, 2 ^ 21⟩ : HostBuf)
    does (.nopCommand h0) s 0 [] = true ∧
    (s.queuesOf 0).length < 8 ∧ s.buf? 0 0 9 = hb ∧ isPow2 (2 ^ 21 / 32) = true ∧ Sparse.lowestFree s.foyer.regions 16384 = some 0 ∧ s.g F.CQ_CFG_VALID 63 = 0 ∧ does (.queueCreate h0 63 13 9) s 0 [(2 ^ 14, 4)] = true ∧
    (after (.queueCreate h0 63 13 9) s).g F.CQ_CFG_VALID 63 = 1 ∧ does (.queueDestroy h0 5) s 0 [] = true ∧ (after (.queueDestroy h0 5) s).g F.CQ_CFG_VALID 5 = 0 ∧
    (let r := s.upFoyer (fun x => { x with running := [⟨h1, 0, [], []⟩] })
     does (.queueDestroy h0 5) r 0 [] = true ∧ (after (.queueDestroy h0 5) r).foyer.closing = [5]) ∧
    (s.queuesOf 0).contains 5 = true ∧ Sparse.lowestFree s.foyer.qps 1024 = some 0 ∧ does (.qpCreate h0 1 5 35 0 7 7 2048 (2 ^ 24 - 1) 3 4 5) s 0 [(0, 4)] = true ∧
    (((after (.qpCreate h0 1 5 35 0 7 7 2048 (2 ^ 24 - 1) 3 4 5) s).qp? 0).map (fun q => (q.kind, q.port, q.epsn, q.spsn))) = some (1, 3, 4, 3) ∧
    ((s.qp? 1023).map (·.kind)) = some 2 ∧ does (.qpDestroy h0 1023) s 0 [] = true ∧ (after (.qpDestroy h0 1023) s).qp? 1023 = none ∧
    s.buf? 5 0 9 = hb ∧ does (.evringSet h1 9 16) s 0 [] = true ∧ (after (.evringSet h1 9 16) s).g F.EV_CFG_LOGREC 0 = 16 ∧ does (.eventMask h1 (2 ^ 255 + 1)) s 0 [] = true ∧
    ((after (.eventMask h1 (2 ^ 255 + 1)) s).regs.rd R.EV_MASK 0 3).toNat = 2 ^ 63 ∧
    (cmds (paged id)).pagesOwned 0 64 64 false = true ∧ does (.regionReg h1 0 3 0 64 64) (cmds (paged id)) 0 [(2 ^ 14, 4)] = true ∧ Sparse.find? (after (.regionReg h1 0 3 0 64 64) (cmds (paged id))).foyer.regions 0 = some ⟨0, 0, 3, 0, 64, 64⟩ ∧
    63 < s.tileCount 0 ∧ does (.regionReg h1 1 3 63 (padWords - 16) 192) s 0 [(2 ^ 14, 4)] = true ∧ Sparse.find? (after (.regionReg h1 1 3 63 (padWords - 16) 192) s).foyer.regions 0 = some ⟨0, 1, 3, 63, padWords - 16, 192⟩ ∧
    does (.regionReg h0 2 3 0 0x09FFFFF8 8) s 0 [(2 ^ 14, 4)] = true ∧ ((s.region? 3).map (fun r => (r.kind, r.part))) = some (0, 0) ∧ does (.regionDereg h1 3) s 0 [] = true ∧ (after (.regionDereg h1 3) s).region? 3 = none ∧
    ((s.qp? 1023).map (·.part)) = some 0 ∧ Sparse.lowestFree s.foyer.hostbufs 4096 = some 0 ∧ does (.hostbufReg h1 1023 5 6 64) s 0 [(0, 2)] = true ∧ Sparse.find? (after (.hostbufReg h1 1023 5 6 64) s).foyer.hostbufs 0 = some ⟨0, 1023, 5, 6, 64⟩ ∧
    s.bufInUse 9 = false ∧ does (.hostbufDereg h1 9) s 0 [] = true ∧ Sparse.find? (after (.hostbufDereg h1 9) s).foyer.hostbufs 9 = none := by decide +kernel
/-- An image of one hall whose local tile 0 starts at 64, with its handler enabled and one word. -/
def image1 : Image := ⟨1, [⟨0, 64, 0, 4096, 0, 1, 256, [(2100, 9)], none, [], [], [], 1008⟩], []⟩
theorem witness_PartitionCommands :
    let s := cmds (paged id)
    let ht : CmdHdr := { h0 with tpart := 1 }
    s.starts (.partCreate ht 0 16 (2 ^ 71)) = true ∧ maskHalls (2 ^ 71) = [71] ∧ (s.begunBy (.partCreate ht 0 16 (2 ^ 71))).createCheck 1 0 [71] = some 0 ∧
    (let e := put s [(F.PART_OWNER_CLEARING, 0, 71, 1)]
     let e := put e [(F.PART_OWNER_CLEARING, 71, 0, 1)]
     e.starts (.partCreate ht 0 16 (2 ^ 71)) = true ∧ (e.begunBy (.partCreate ht 0 16 (2 ^ 71))).createCheck 1 0 [71] = none ∧ (after (.partCreate ht 0 16 (2 ^ 71)) e).foyer.creations.map (·.halls) = [[71]]) ∧
    s.createCheck 0 0 [0] = some 0x0103 ∧ ({ s with parts := s.parts.map (fun x => { x with ending := true }) } : State).createCheck 0 0 [0] = none ∧
    (s.cmdObjs ht 0x0300 []).head? = some (0, 1, 2) ∧ s.cmdObjs h1 0x0300 [] = [(1, 0, 0)] ∧
    s.starts (.partRelease h1) = true ∧ (after (.partRelease h1) s).foyer.releases.map (fun r => (r.part, r.halls)) = [(0, [0])] ∧ (after (.partRelease h1) s).parts.map (·.ending) = [true] ∧
    s.starts (.partKill h0 0 0) = true ∧ (after (.partKill h0 0 0) s).foyer.releases.map (fun r => (r.part, r.kill)) = [(0, true)] ∧ (after (.partKill h0 0 0) s).g F.PART_OWNER_CLEARING 0 = 1 ∧
    does (.partQuery h1) s 0 [(1, 1), (2, 1), (0, 4), (1, 4)] = true ∧
    (let t : State := { s with parts := s.parts ++ [Part.fresh 7 [71] 16 false] }
     let u : State := { t with shares := [⟨4095, [0, 7], [7]⟩] }
     t.live 7 = true ∧ t.shares.find? (fun x => x.id == 4095 && x.parts.contains 0) = none ∧ does (.shareOffer h1 4095 7) t 0 [(0, 1)] = true ∧ (after (.shareOffer h1 4095 7) t).shares = [⟨4095, [0, 7], [0]⟩] ∧
       does (.shareOffer h1 4095 7) u 0 [(1, 1)] = true ∧ (after (.shareOffer h1 4095 7) u).shares = [⟨4095, [0, 7], [7, 0]⟩] ∧ does (.shareEnd h1 4095) u 0 [] = true ∧ (after (.shareEnd h1 4095) u).shares = []) ∧
    (let t := cmds (peerOf id { live with parts := [{ Part.fresh 0 [0] 16 false with loaded := true }] })
     t.peerFor 0 8191 = true ∧ does (.peergroupSet h1 4095 [8191]) t 0 [] = true ∧ (after (.peergroupSet h1 4095 [8191]) t).groups = [⟨0, 4095, [8191]⟩] ∧
       t.launchedP 0 = false ∧ landKids 1 2 = [] ∧ does (.landgroupSet h1 1 0 1 2 [8191]) t 0 [] = true ∧ (after (.landgroupSet h1 1 0 1 2 [8191]) t).g F.LAND_GROUP_RANK 0 = 1) := by decide +kernel
theorem witness_ImageCommands :
    let s := cmds { paged id with parts := [{ Part.fresh 0 [0] 16 false with loaded := true, image := some image1 }] }
    let i : Instr := .imageLoad h1 64 64 (some image1)
    s.starts i = true ∧ s.launchedP 0 = false ∧ s.pagesOwned 0 64 64 false = true ∧ ((s.begunBy i).readLines 64 1).2 = some [⟨0, false⟩] ∧ imageBad image1 = false ∧ image1.halls = (s.hallsOf 0).length ∧
    (((s.begunBy i).readLines 64 1).1.imageOpens 0 image1).isSome = true ∧ (s.tilesOf 0).Nodup ∧ s.starts (.launch h1) = true ∧ imageTablesOk image1 [0] = true ∧ ((s.begunBy (.launch h1)).imageOpens 0 image1).isSome = true := by decide +kernel
theorem witness_PageCommands :
    let s := cmds (paged (fun (t : Tile) => { t with instrs := [] }))
    s.starts (.pageMap h1 (2 ^ 19 - 2) 2 1) = true ∧ (∀ e ∈ [2 ^ 19 - 2, 2 ^ 19 - 1], Pm.valid (s.page e) = 0) ∧ (((s.part? 0).map (·.quota)).getD 0) = 16 ∧ (s.pagesHeld 0).length + s.pagesComing 0 = 1 ∧
    (pickFrames s.usedFrames 2 firstFrame).isSome = true ∧ (after (.pageMap h1 (2 ^ 19 - 2) 2 1) s).cuts.map (fun c => (c.pages.map (·.1), c.cmd.map (·.result))) = [([2 ^ 19 - 2, 2 ^ 19 - 1], some [(13, 4)])] ∧
    (let t : State := { s with pageMap := [(0, Pm.mk 0 100 0), (1, Pm.mk 0 101 0)] }
     t.starts (.pageFree h1 1 1 0) = true ∧ ((t.part? 0).map (·.dormant)) = some false ∧ t.ownsPage 0 1 = true ∧ t.pageBusy 0 1 = false ∧ (after (.pageFree h1 1 1 0) t).cuts.map (·.pages) = [[(1, 0)]]) ∧
    s.starts (.pageAttr h1 0 1 1) = true ∧ Pm.hold (s.page 0) = 0 ∧ s.repairs = [] ∧ s.copies = [] ∧ (after (.pageAttr h1 0 1 1) s).cuts.map (·.pages) = [[(0, Pm.setRs (s.page 0) 1)]] ∧
    (let e : Nat := 5 + 3 * 2 ^ 32 + 2 ^ 64 + 2 ^ 96
     let t : State := { s with frames := [(100 * 131072, frameStore e false)] }
     t.starts (.prefetchSet h1 1 6 15 0) = true ∧ t.pagesOwned 0 0 32 false = true ∧ ((t.begunBy (.prefetchSet h1 1 6 15 0)).readLines 0 1).2 = some [⟨BitVec.ofNat 512 e, false⟩] ∧ pfBad [pfEntryOf e] 6 1 = false ∧
       does (.prefetchSet h1 1 6 15 0) t 0 [] = true ∧ ((after (.prefetchSet h1 1 6 15 0) t).pf 0).entries = [⟨5, 3, 1, 0, 1⟩]) ∧
    s.starts (.copypoolSet h0 2) = true ∧ (s.pageMap.filter (fun (x : Nat × BitVec 64) => Pm.copyv x.2 == 1)).length = 0 ∧ does (.copypoolSet h0 2) s 0 [] = true ∧ (after (.copypoolSet h0 2) s).pool.length = 2 ∧
    s.pagesOwned 0 64 128 true = true ∧ does (.outputSet h1 9 64 128) s 0 [] = true ∧ Sparse.find? (after (.outputSet h1 9 64 128) s).hostOut 0 = some ⟨9, 64, 128, []⟩ ∧
    (let t : State := { s with hostOut := [(7, ⟨9, 0, 128, [0, 64]⟩)] }
     (t.holdRead 7 (2 ^ 50) 0 64).2 = false ∧ (t.readLine 0).2 = some ⟨7, false⟩ ∧ Sparse.find? (after (.outputLineCopy 7) t).hostOut 7 = some ⟨9, 0, 128, [64]⟩ ∧ (after (.outputLineCopy 7) t).out.length = 1) := by decide +kernel

theorem witness_PeerCommands :
    let s := cmds (peerOf id (paged id))
    let k := fun (t : Option (Nat × Nat)) => cmds (peerOf (fun (c : PeerCtx) => { c with keys := [(1, ⟨t, none⟩)] }) live)
    does (.peerAdd h1 8190 3 8191 4096 1 1 9) s 0 [] = true ∧ s.peer? 8190 = none ∧ (((after (.peerAdd h1 8190 3 8191 4096 1 1 9) s).peer? 8190).map (fun c => (c.up, c.enc, c.pmax, c.rctx))) = some (true, true, 4096, 8191) ∧
    s.hasPeer 0 8191 = true ∧ does (.peerRemove h1 8191) s 0 [] = true ∧ (after (.peerRemove h1 8191) s).peer? 8191 = none ∧
    does (.peerKeyWrite h1 8191 1 0 3 4) s 0 [] = true ∧ (((after (.peerKeyWrite h1 8191 1 0 3 4) s).peer? 8191).map (fun c => (c.txKey 1, c.rxKey 1))) = some (some (4, 3), none) ∧
    does (.peerKeyWrite h1 8191 1 1 3 4) (k (some (8, 9))) 0 [] = true ∧ (((after (.peerKeyWrite h1 8191 1 1 3 4) (k (some (8, 9)))).peer? 8191).map (fun c => (c.txKey 1, c.rxKey 1))) = some (some (8, 9), some (4, 3)) ∧
    does (.peerKeySend h1 8191 1 0 0 0) (k (some (8, 9))) 0 [] = true ∧ (((after (.peerKeySend h1 8191 1 0 0 0) (k (some (8, 9)))).peer? 8191).map (·.keyid)) = some 1 ∧
    does (.peerKeyRetire h1 8191 1 0 0 0) (k (some (8, 9))) 0 [] = true ∧ (((after (.peerKeyRetire h1 8191 1 0 0 0) (k (some (8, 9)))).peer? 8191).map (·.txKey 1)) = some none ∧
    groupNeeds 4095 4096 16 8191 8191 (List.replicate 16 8191) = List.replicate 17 8191 ∧ does (.collGroup h1 4095 4096 16 8191 8191 (List.replicate 16 8191)) s 0 [] = true ∧
    (after (.collGroup h1 4095 4096 16 8191 8191 (List.replicate 16 8191)) s).g F.COLL_NPEER_VALID 0 14 = 1 ∧ (after (.collGroup h1 4095 4096 16 8191 8191 (List.replicate 16 8191)) s).g F.COLL_NPEER_VALID 0 15 = 0 := by decide +kernel
/-- A sum of 96 FP32 elements of tile 0, of the first 384 bytes. -/
def plan96 : Nat := fields [(4, 1), (64, 96), (128, 1), (256, 1)]
theorem witness_PlanCommands :
    let s : State := { cmds (paged id) with frames := [(100 * 131072 + 65536, frameStore plan96 false)] }
    let i : Instr := .planSet h1 1 (2 ^ 22) 0 4096 8192 384
    s.starts i = true ∧ (s.collOf 0).runs = [] ∧ s.pagesOwned 0 (2 ^ 22) 64 true = true ∧ s.pagesOwned 0 0 4096 true = true ∧ s.pagesOwned 0 8192 (2 * 384) true = true ∧ ((s.begunBy i).readLines (2 ^ 22) 1).2 = some [⟨BitVec.ofNat 512 plan96, false⟩] ∧
    ((s.begunBy i).readLines (2 ^ 22) 1).1.planBad 0 0 4096 384 [plan96] = false ∧ does i s 0 [] = true ∧ ((after i s).collOf 0).plan = [plan96] ∧ (after i s).g F.COLL_PLAN_NBUCK 0 = 1 ∧
    (let j : Instr := .shardReg h1 4095 255 fmtFP32 5 6 16 128 192
     planFmt fmtFP32 = true ∧ s.shardBusy 0 4095 = false ∧ s.pagesOwned 0 128 (16 * fmtBytes fmtFP32) true = true ∧ s.pagesOwned 0 192 (16 * fmtBytes fmtFP32) true = true ∧ does j s 0 [] = true ∧
       ((Sparse.find? ((after j s).collOf 0).shards 4095).map (fun x => (x.slot1, x.ver0, x.held0))) = some (192, (5, 6), true) ∧
       (let t : State := { s with coll := [(0, { Coll.empty with shards := [(4095, ⟨0, 64, 16, fmtFP32, 255, 0, (0, 0), (0, 0), true, false⟩)] })] }
        Sparse.has (t.collOf 0).shards 4095 = true ∧ t.shardBusy 0 4095 = false ∧ does (.shardDereg h1 4095) t 0 [] = true ∧ Sparse.find? ((after (.shardDereg h1 4095) t).collOf 0).shards 4095 = none)) := by decide +kernel
theorem witness_ProtectionCommands :
    let s := cmds (peerOf id (paged id))
    let t : State := { s with prot := [(0, { Prot.empty with tensors := [⟨0, 1, 0, 0, 0, 0, 1, false⟩], bufs := some (9, 9) })] }
    let e : Nat := 2 ^ 19
    (0 < (tensorOf e).npages ∧ (tensorOf e).force ≠ 3 ∧ (tensorOf e).pages = [0] ∧ s.pageFit 0 0 = true) ∧ rangesMeet ([tensorOf e].map Tensor.span) = false ∧ does (.tensorReg h1 [e]) s 0 [(0, 2)] = true ∧
    ((after (.tensorReg h1 [e]) s).protOf 0).tensors = [tensorOf e] ∧ (t.tensor? 0 0).isSome = true ∧ does (.tensorSet h1 0 2 1000000) t 0 [] = true ∧ (((after (.tensorSet h1 0 2 1000000) t).tensor? 0 0).map (fun x => (x.force, x.rate))) = some (2, 1000000) ∧
    (t.collOf 0).plan = [] ∧ rangesMeet (shadowSpans (t.protOf 0).tensors) = false ∧ shadowSpans (t.protOf 0).tensors = [(0, 1)] ∧ does (.linkOut h1 8191) t 0 [] = true ∧ (after (.linkOut h1 8191) t).g F.SP_LINK_UP 0 = 1 ∧
    (let i : Instr := .linkIn h1 1 16 63 0 1 (padWords - 1) 64 4096
     63 < s.tileCount 0 ∧ s.pagesOwned 0 64 (16 * (s.g F.COLL_RHALF_RHALF 0 + 256)) true = true ∧ s.pagesOwned 0 4096 192 true = true ∧ s.pagesOwned 0 (0 * 2 ^ 23) (1 * 2 ^ 23) true = true ∧ s.inLink? 0 0 = none ∧
       does i s 0 [] = true ∧ ((after i s).inLink? 0 1).isSome = true ∧ (after i s).g F.SP_IN_CFG_LSTEPS 0 1 = 16) ∧
    (let o := put s [(F.SP_LINK_VALID, 0, 0, 1)]
     o.g F.SP_LINK_VALID 0 = 1 ∧ does (.linkRemove h1 2) o 0 [] = true ∧ (after (.linkRemove h1 2) o).g F.SP_LINK_VALID 0 = 0) ∧
    (let o := linked s linkIn id
     o.g F.SP_IN_CFG_VALID 0 1 = 1 ∧ does (.linkRemove h1 1) o 0 [] = true ∧ (after (.linkRemove h1 1) o).inLink? 0 1 = none) ∧
    (s.buf? 5 0 9).isSome = true ∧ does (.snapbufSet h1 9 9) s 0 [] = true ∧ ((after (.snapbufSet h1 9 9) s).protOf 0).bufs = some (9, 9) ∧
    (let d : State := { s with now := 77 }
     does (.snapshotNow h1) d 0 [] = true ∧ (after (.snapshotNow h1) d).g F.SP_DUE_TIME 0 = 77) ∧
    ((t.part? 0).any (·.adopted)) = false ∧ t.protBusy 0 = false ∧ t.starts (.restoreShadow h1 0 1 8191) = true ∧ (((after (.restoreShadow h1 0 1 8191) t).protOf 0).restore.map (fun r => (r.source, r.tensors))) = some (0, [0]) ∧
    (let b : State := t.upFoyer (fun x => { x with hostbufs := [(9, ⟨0, 1023, 7, 0, 2 ^ 24⟩)] })
     b.snapTensors 0 = [0] ∧ b.snapChoices 0 = [[0], [0], [0], [0]] ∧ b.choiceSize 0 [0] ≤ 2 ^ 24 ∧ b.bufOk 9 = true ∧ b.starts (.restoreSnap h1 1) = true ∧ (((after (.restoreSnap h1 1) b).protOf 0).restore.map (fun r => (r.source, r.tensors, r.size))) = some (1, [], 8388864)) := by decide +kernel
/-- The answer of a command is on its way to host buffer 9, at offset 64. -/
def answers (i : Instr) (s : State) (k : Nat) : Bool :=
  s.starts i && (match ((after i s).qp? 1023).bind (fun q => q.ops.head?) with | some o => (match o.out with | .hostWrite hb off b => hb == 9 && off == 64 && b.length == k | _ => false) | none => false)
theorem witness_HostReads :
    let s := cmds (peerOf id live)
    s.bufOk 9 = true ∧ (s.buf? 0 8 9).isSome = true ∧ (s.buf? 5 0 9).isSome = true ∧ answers (.devQuery h0 9 64) s 56 = true ∧ answers (.evlogRead h0 5 2 9 64) s 128 = true ∧ answers (.sensorRead h0 9 64) s (16 + 8 * 194) = true ∧
    s.mss.update = none ∧ s.mss.pldm = 0 ∧ s.starts (.fwUpdate h0 9 (2 ^ 21)) = true ∧ ((after (.fwUpdate h0 9 (2 ^ 21)) s).mss.update.map (fun u => (u.slot, u.total))) = some (1, 2 ^ 21) ∧
    ((s.peer? 8191).map (·.lpart)) = some 0 ∧ answers (.telemRead h1 0 8191 9 64) s 256 = true ∧ ((s.qp? 1023).map (·.part)) = some 0 ∧ answers (.telemRead h1 1 1023 9 64) s 256 = true ∧ answers (.telemRead h1 2 0 9 64) s 256 = true ∧
    (let m := [1, 128, 0, 2]
     s.starts (.mctpPass h0 9 64 m) = true ∧ (((s.begunBy (.mctpPass h0 9 64 m)).inBand m).map (fun r => (r.2.take 5, (r.1.buf? 0 8 9).isSome, r.1.bufOk 9))) = some ([1, 0, 0, 2, 0], true, true) ∧ answers (.mctpPass h0 9 64 m) s 6 = true) ∧
    (let m := [1, 0, 5, 0x15, 0, 7]
     let d : State := { s with mss := { s.mss with pldm := 3, update := some ⟨1, none, [], 1, 0, false, 0⟩ } }
     d.starts (.mctpPass h0 9 64 m) = true ∧ (((d.begunBy (.mctpPass h0 9 64 m)).inBand m).map (·.2)) = some [] ∧ does (.mctpPass h0 9 64 m) d 0 [(0, 2)] = true) := by decide +kernel

/-- The answer that a command leaves on its channel: message type, command code, completion code and what follows. -/
def said (i : Instr) (s : State) : Option (Nat × Nat × Nat × List Nat) := match (after i s).out with | .mctp ty cmd cc b :: _ => some (ty, cmd, cc, b) | _ => none
theorem witness_ControlRows :
    let s := live
    s.mssOn = true ∧ said (.setEndpointId 1 254) s = some (0, 1, 0, [0, 254, 0]) ∧ (after (.setEndpointId 1 254) s).mss.eid = 254 ∧ said (.setEndpointId 0 7) s = some (0, 1, 2, []) ∧
    ((said .getEndpointId { s with mss := { s.mss with eid := 9 } }).map (fun x => (x.2.1, x.2.2.1, x.2.2.2.take 2))) = some (2, 0, [9, 0]) ∧ (said .getEndpointUuid s).map (fun x => (x.1, x.2.1, x.2.2.1)) = some (0, 3, 0) ∧
    (∀ ty ∈ [0, 1, 5, 0x7F, 0xFF], ((said (.getMctpVersionSupport ty) s).map (fun x => (x.2.2.1, x.2.2.2.head?))) = some (0, some 1)) ∧ said (.getMctpVersionSupport 2) s = some (0, 4, 0x80, []) ∧
    said .getMessageTypeSupport s = some (0, 5, 0, [4, 0, 1, 5, 0x7F]) ∧ ((said (.getVendorDefinedMessageSupport 0) s).map (fun x => x.2.2.2.take 2)) = some [0xFF, 0] ∧ said (.getVendorDefinedMessageSupport 255) s = some (0, 6, 2, []) := by decide +kernel
theorem witness_MonitoringRows :
    let s := put live [(F.MB_SENSOR_VALID, 0, 193, 1), (F.MB_SENSOR_VALUE, 0, 193, 77)]
    s.power.phase = .running ∧ s.mss.activate = false ∧ said (.setTid 254) s = some (1, 1, 0, []) ∧ (after (.setTid 254) s).mss.tid = 254 ∧ said .getPldmTypes s = some (1, 4, 0, [0x25, 0, 0, 0, 0, 0, 0, 0]) ∧
    (∀ ty ∈ [0, 2, 5], ((said (.getPldmVersion ty) s).map (fun x => (x.1, x.2.1, x.2.2.1))) = some (1, 3, 0) ∧ ((said (.getPldmCommands ty 1) s).map (fun x => (x.2.2.1, x.2.2.2.length))) = some (0, 32)) ∧
    ((said .getPdrRepositoryInfo s).map (fun x => parAt x.2.2.2 27 4)) = some 194 ∧ ((said (.getPdr 194 0 1 65535 0) s).map (fun x => (x.2.2.1, parAt x.2.2.2 0 4, parAt x.2.2.2 11 4))) = some (0, 0, 194) ∧
    ((said (.getPdr 1 0 1 256 0) s).map (fun x => (x.2.2.1, parAt x.2.2.2 0 4, parAt x.2.2.2 33 1))) = some (0, 2, pldmUnit (sensorKind 0)) ∧ said (.getPdr 195 0 1 256 0) s = some (1, 0x251, 0x82, []) ∧
    ((said (.getSensorReading 194 1) s).map (fun x => (x.2.2.1, parAt x.2.2.2 1 1, parAt x.2.2.2 6 4))) = some (0, 0, 77) ∧ ((said (.getSensorReading 1 0) s).map (fun x => (x.2.2.1, parAt x.2.2.2 1 1))) = some (0, 3) ∧
    said (.getSensorReading 0 0) s = some (1, 0x211, 0x80, []) ∧ said (.getSensorReading 195 0) s = some (1, 0x211, 0x80, []) ∧ (after (.setEventReceiver 1 0 255) s).mss.receiver = some 255 ∧
    (after (.setEventReceiver 0 0 255) (after (.setEventReceiver 1 0 255) s)).mss.receiver = none := by decide +kernel
theorem witness_UpdateRows :
    let s := fun (k : Nat) (u : Option Update) => ({ live with mss := { live.mss with pldm := k, update := u } } : State)
    let u : Update := ⟨1, none, [7], 5, 0, false, 0⟩
    (s 0 none).mssOn = true ∧ (s 0 none).mss.activate = false ∧ ((said .queryDeviceIdentifiers (s 0 none)).map (fun x => x.2.2.1)) = some 0 ∧ ((said .getFirmwareParameters (s 0 none)).map (fun x => x.2.2.1)) = some 0 ∧
    ((said .getStatus (s 3 none)).map (fun x => x.2.2.2.head?)) = some (some 3) ∧ said (.requestUpdate 32 1 1) (s 0 none) = some (1, 0x510, 0, [0, 0, 0]) ∧ (after (.requestUpdate 32 1 1) (s 0 none)).mss.maxXfer = 32 ∧
    said (.requestUpdate 32 1 1) (s 1 none) = some (1, 0x510, 0x81, []) ∧ said (.passComponentTable 4 10 1) (s 1 none) = some (1, 0x513, 0, [0, 0]) ∧ (after (.passComponentTable 4 10 1) (s 1 none)).mss.pldm = 2 ∧
    said (.passComponentTable 1 10 2) (s 1 none) = some (1, 0x513, 0, [1, 6]) ∧ (after (.updateComponent 10 1 0 5 (2 ^ 26)) (s 2 none)).mss.update = some ⟨1, none, [], 2 ^ 26, 0, false, 0⟩ ∧
    ((after (.updateComponent 10 1 0 5 (2 ^ 26)) (s 2 none)).out.map (fun o => match o with | .mctp _ k _ _ => k | _ => 0)) = [0x514, 0x515] ∧
    [1, 2, 3].length = min (min 4096 4096) (4 - [9].length) ∧ (after (.requestFirmwareData 0 [1, 2, 3]) (s 3 (some { u with bytes := [9], total := 4 }))).mss.pldm = 4 ∧
    said (.requestFirmwareData 0 [1, 2, 3]) (s 3 (some { u with bytes := [9], total := 4 })) = some (1, 0x516, 0, [0]) ∧
    (let x : State := { s 3 (some { u with total := 100 }) with mss := { (s 3 (some { u with total := 100 })).mss with maxXfer := 32 } }
     (List.replicate 32 8).length = min (min 4096 x.mss.maxXfer) (100 - u.bytes.length) ∧ said (.requestFirmwareData 0 (List.replicate 32 8)) x = some (1, 0x515, 0, [33, 0, 0, 0, 32, 0, 0, 0])) ∧
    (let x : State := { s 2 none with mss := { (s 2 none).mss with rec_ := ⟨0, some 1, 2, 0⟩ } }
     x.mss.rec_.pending.isSome = true ∧ x.anyLive = true ∧ (after (.activateFirmware 1) x).mss.activate = true ∧ ({ x with parts := [] } : State).anyLive = false ∧ (after (.activateFirmware 1) { x with parts := [] }).power.cause = 4) ∧
    said (.activateFirmware 1) (s 3 none) = some (1, 0x51A, 0x84, []) ∧ goes .cancelUpdateComponent (s 5 (some u)) = true ∧ ((s 3 (some u)).updateFail 8).mss.update = none ∧ ((s 3 (some u)).updateFail 8).g F.MB_UPDATE_STATE 0 = 4 ∧ goes .cancelUpdate (s 3 (some u)) = true ∧
    said .cancelUpdate (s 0 none) = some (1, 0x51D, 0x80, []) ∧ said .cancelUpdateComponent (s 0 none) = some (1, 0x51C, 0x80, []) := by decide +kernel
theorem test_chain_starts : 0 < Config.certChain.length := Nat.succ_pos _
theorem witness_MeasurementRows :
    let s := fun (k : Nat) => ({ live with mss := { live.mss with spdm := ⟨k, [1], [2], [3]⟩, measures := [11, 12, 13, 14, 15, 16, 17, 18, 19] } } : State)
    (s 0).power.phase = .running ∧ said .getVersion (s 0) = some (5, 0x04, 0, [0x10, 0x04, 0, 0, 0, 1, 0x00, 0x12]) ∧ (after .getVersion (s 3)).mss.spdm.stage = 1 ∧
    ((said (.getCapabilities 0 42 42) (s 1)).map (fun x => (x.2.1, parAt x.2.2.2 8 4))) = some (0x61, 0x16) ∧ said (.getCapabilities 0 42 42) (s 2) = some (5, 0x7F, 0, [0x12, 0x7F, 4, 0]) ∧
    ((said (.negotiateAlgorithms 1 32 4) (s 2)).map (fun x => (x.2.1, parAt x.2.2.2 12 4, parAt x.2.2.2 16 4))) = some (0x63, 32, 4) ∧ (after (.negotiateAlgorithms 1 32 4) (s 2)).mss.spdm.stage = 3 := by decide +kernel
theorem witness_MeasurementAnswers :
    let s := fun (k : Nat) => ({ live with mss := { live.mss with spdm := ⟨k, [1], [2], [3]⟩, measures := [11, 12, 13, 14, 15, 16, 17, 18, 19] } } : State)
    said .getDigests (s 2) = some (5, 0x7F, 0, [0x12, 0x7F, 4, 0]) ∧ ((said .getDigests (s 3)).map (fun x => x.2.2.2.take 4)) = some [0x12, 0x01, 0, 1] ∧ ((said (.getCertificate 0 0 65535) (s 3)).map (fun x => x.2.2.2.take 2)) = some [0x12, 0x02] ∧
    (∀ m ∈ [0, 1, 0xFF], ((said (.challenge 0 m 5) (s 3)).map (fun x => x.2.2.2.take 2)) = some [0x12, 0x03] ∧ (after (.challenge 0 m 5) (s 3)).mss.spdm.chal = []) := by decide +kernel
theorem witness_Measurements :
    let s := fun (k : Nat) => ({ live with mss := { live.mss with spdm := ⟨k, [1], [2], [3]⟩, measures := [11, 12, 13, 14, 15, 16, 17, 18, 19] } } : State)
    (∀ op ∈ [0, 9, 0xFF], ((said (.getMeasurements true op 5 0) (s 3)).map (fun x => x.2.2.2.take 2)) = some [0x12, 0x60] ∧ (after (.getMeasurements true op 5 0) (s 3)).mss.spdm.meas = []) ∧
    ((said (.getMeasurements false 9 5 0) (s 3)).map (fun x => (parAt x.2.2.2 8 1, (x.2.2.2.drop 15).take 64))) = some (9, leBytes 64 19) ∧ ((said (.getMeasurements false 0 5 0) (s 3)).map (fun x => parAt x.2.2.2 2 1)) = some 9 := by decide +kernel

/-- The module with its MSS changed. -/
def msd (f : Mss → Mss) : State := { live with mss := f live.mss }
def rec1 : LogRec := ⟨5, 0, 9, 4, 8, false, [(3, 1), (1, 1), (1, 1)]⟩
theorem witness_FlashRows :
    let u : Update := ⟨1, none, List.replicate 3 7, 2 * 65536 + 1, 1, true, 2⟩
    let up := fun (e : Bool) => msd (fun (m : Mss) => { m with update := some { u with erased := e } })
    let run := fun (op : FlashOp) (copy : Nat) => msd (fun (m : Mss) => { m with seq := some op, copy := copy, update := some u, logBuf := [rec1] })
    (msd id).mssOn = true ∧ holdupMj true 50000 49500 = some 20894 ∧ holdupMj true 53000 52000 = some 12646 ∧ holdupMj false 50000 49500 = none ∧
    (up false).mss.wanted.find? (fun x => x.kind == 1) = some (.slotErase 1) ∧ (up true).mss.wanted.find? (fun x => x.kind == 2) = some (.slotProgram 1) ∧ (up true).mss.wanted.find? (fun x => x.kind == 1) = none ∧
    (after (.holdupMeasure true 50000 49500 1) (up false)).mss.seq = some (.slotErase 1) ∧ (after (.holdupMeasure true 53000 52000 1) (up false)).mss.seq = none ∧ (after (.holdupMeasure true 53000 52000 1) (up false)).g F.MB_HOLDUP_REF_COUNT 0 = 1 ∧
    (after (.holdupMeasure false 50000 49500 2) (up true)).g F.MB_HOLDUP_FAILED 0 = 1 ∧ (after (.holdupMeasure true 53000 52000 2) (up true)).mss.seq = some (.slotProgram 1) ∧ (run .logErase 0).mss.seq.isSome = true ∧
    (FlashOp.logProgram [rec1]).mirrored = true ∧ (after .flashSequenceEnd (run (.logProgram [rec1]) 0)).mss.log = [rec1] ∧ (after .flashSequenceEnd (run (.logProgram [rec1]) 0)).mss.second = some (.logProgram [rec1]) ∧
    (after .flashSequenceEnd (run (.logProgram [rec1]) 1)).mss.logBuf = [] ∧ (after .flashSequenceEnd (run (.persist ⟨1000, 0, 1, [], [], []⟩) 0)).mss.store.cap = 1000 ∧
    (after .flashSequenceEnd (put (run (.persist ⟨1000, 0, 1, [], [], []⟩) 1) [(F.MB_STATUS_PERSIST_PENDING, 0, 0, 1)])).g F.MB_STATUS_PERSIST_PENDING 0 = 0 ∧ (after .flashSequenceEnd (run (.record ⟨1, none, 0, 0⟩) 0)).mss.rec_ = ⟨1, none, 0, 0⟩ ∧
    (after .flashSequenceEnd (run .fuse 0)).mss.svn = 1 ∧ (after .flashSequenceEnd (run .fuse 0)).mss.logBuf.map (·.code) = [4, 8] ∧ u.slot < 2 ∧ 1 + 1 < u.sectors ∧ u.sectors = 3 ∧
    ((after .flashSequenceEnd (run (.slotErase 1) 0)).mss.update.map (·.erased)) = some true ∧ ((after .flashSequenceEnd (run (.slotProgram 1) 0)).mss.update.map (fun u => (u.sector, u.erased))) = some (2, false) ∧
    (after .flashSequenceEnd (run (.slotProgram 1) 0)).g F.MB_UPDATE_KIB 0 = 128 ∧ (after .logRetry (msd (fun (m : Mss) => { m with logWait := true }))).mss.logWait = false := by decide +kernel
theorem witness_BootRows :
    let p := fun (x : Phase) (f : Mss → Mss) => ({ msd f with power := { Power.reset with phase := x } } : State)
    let ok : FwSlot := ⟨[], true⟩
    let both := fun (r : UpdateRec) (m : Mss) => { m with slotA := ok, slotB := ok, rec_ := r }
    (p .reset id).power.refclk = true ∧ (after (.endOfReset 7) (p .rising id)).g F.PWR_STATUS_ADDR 0 = 7 ∧ (after (.endOfReset 7) (p .reset id)).power.phase = .booting ∧
    (let w : State := { p .reset id with power := { (p .reset id).power with cause := 3 }, now := 99 }
     (after (.endOfReset 7) w).now = 99 ∧ (after (.endOfReset 7) w).g F.PWR_STATUS_ADDR 0 = 0) ∧
    ((p .running id).power.phase ≠ .rising ∧ (p .running id).power.phase ≠ .reset) ∧ (after (.endOfReset 7) (p .running id)).power.phase = .running ∧
    (p .booting (both ⟨1, none, 0, 0⟩)).mss.slotOk 1 = true ∧ (after (.boot true 50000 49500 [71]) (p .booting (both ⟨1, none, 0, 0⟩))).mss.booted = 1 ∧ (after (.boot true 50000 49500 [71]) (p .booting (both ⟨1, none, 0, 0⟩))).isFaulty 71 = true ∧
    (after (.boot true 50000 49500 []) (p .booting (both ⟨0, some 1, 3, 0⟩))).mss.booted = 1 ∧ (after (.boot true 50000 49500 []) (p .booting (both ⟨0, some 1, 3, 0⟩))).mss.rec_.tries = 2 ∧
    (after (.boot true 50000 49500 []) (p .booting (both ⟨0, some 1, 0, 0⟩))).g F.MB_ALERT_BOOTFAIL 0 = 1 ∧ (holdupMj false 50000 49500).getD 0 < 6000 ∧ (after (.boot false 50000 49500 []) (p .booting (both ⟨0, some 1, 3, 0⟩))).mss.booted = 0 ∧
    (after (.boot false 50000 49500 []) (p .booting (both ⟨0, some 1, 3, 0⟩))).g F.MB_ALERT_HOLDUP 0 = 1 ∧ (p .booting (both ⟨1, none, 0, 3⟩)).mss.slotOk 0 = false ∧ (p .booting (both ⟨1, none, 0, 3⟩)).mss.slotOk 1 = false ∧
    (after (.boot true 50000 49500 []) (p .booting (both ⟨1, none, 0, 3⟩))).power.phase = .recovery ∧
    (let b := fun (now : Nat) => ({ p .booting (both ⟨0, some 1, 2, 0⟩) with now := now } : State)
     (b 30000000000).mss.seq = none ∧ (b 0).mss.rec_.pending.isSome = true ∧ (after .bootWatchdog (b 29999999999)).power.phase = .booting ∧ (after .bootWatchdog (b 30000000000)).power.phase = .reset ∧ (after .bootWatchdog (b 30000000000)).power.cause = 2) ∧
    (cmds live).mayStart h0 0x0008 [] = true ∧ (cmds live).cmdBad h0 0 0 = 0 ∧ (after (.warmReset h0) (cmds live)).power.cause = 3 ∧ (cmds live).mayStart h1 0x0008 [] = true ∧ (cmds live).cmdBad h1 0 0 = 3 ∧
    (after (.warmReset h1) (cmds live)).power.phase = .running := by decide +kernel
theorem witness_SensorRows :
    let s := fun (l : List (Fld × Nat × Nat × Nat)) (f : Power → Power) => ({ put live l with power := f (put live l).power } : State)
    let w := (F.MB_SENSOR_WARN, 0, 71, 1)
    let p := fun (mw : Nat) => s [(F.MB_SENSOR_VALID, 0, 192, 1), (F.MB_SENSOR_VALUE, 0, 192, mw), (F.MB_PCAP_CAP, 0, 0, 3800), (F.MB_PCAP_CEIL, 0, 0, 25)] id
    (s [] id).mssOn = true ∧ sensorWarn 71 = some 100000 ∧ (after (.sensorPoll 71 100000) (s [] id)).g F.MB_SENSOR_WARN 0 71 = 1 ∧ (after (.sensorPoll 71 97999) (s [w] id)).g F.MB_SENSOR_WARN 0 71 = 0 ∧
    (after (.sensorPoll 71 98000) (s [w] id)).g F.MB_SENSOR_WARN 0 71 = 1 ∧ (after (.sensorPoll 71 98000) (s [] id)).g F.HALL_TEMP_NOW 71 = 1568 ∧ (after (.sensorPoll 193 (-5)) (s [] id)).g F.MB_SENSOR_VALUE 0 193 = 2 ^ 32 - 5 ∧
    (after .pcapTick (p 3800001)).g F.MB_PCAP_CEIL 0 = 24 ∧ (after .pcapTick (p 3800000)).g F.MB_PCAP_CEIL 0 = 25 ∧ (after .pcapTick (p 3686000)).g F.MB_PCAP_CEIL 0 = 25 ∧ (after .pcapTick (p 3685999)).g F.MB_PCAP_CEIL 0 = 26 ∧
    ((p 0).ownerOf 0).isSome = true ∧ (after .pcapTick { p 0 with power := { (p 0).power with throttle := some 3 } }).g F.MB_PCAP_CEIL 0 = 24 ∧
    (s [] id).power.thrLow = false ∧ (s [] id).ready = true ∧ (after .throttleAssert (s [] id)).power.throttle = some 0 ∧ (after .throttleAssert (s [] id)).g F.HALL_CLK_CURRENT 71 = 24 ∧ (s [(F.DEV_STATUS_READY, 0, 0, 0)] id).ready = false ∧
    (after .throttleAssert (s [(F.DEV_STATUS_READY, 0, 0, 0)] id)).power.throttle = none ∧ (after .throttleRelease (s [] (fun (x : Power) => { x with thrLow := true, throttle := some 3 }))).power.throttle = none ∧
    (after .throttleGlitch (s [] id)).g F.PWR_GLITCH_THROTTLE 0 = 1 ∧
    (let r := fun (now : Nat) => ({ s [] (fun (x : Power) => { x with throttle := some 3, thrReport := some 7 }) with now := now } : State)
     (after .throttleReportTimer (r 60000000006)).power.thrReport = some 7 ∧ (after .throttleReportTimer (r 60000000007)).power.thrReport = some 60000000007) := by decide +kernel
theorem witness_TripRows :
    let s := fun (now : Nat) => ({ msd (fun (m : Mss) => { m with tripSince := [(0, 5), (117, 5)] }) with now := now } : State)
    (s 0).mssOn = true ∧ (s 0).mss.seq = none ∧ tripTime 117 = 1000000000 ∧ tripTime 0 = 100000000 ∧ (after (.thermTrip 117 true 53000 52000) (s 1000000004)).power.phase = .running ∧
    (after (.thermTrip 117 true 53000 52000) (s 1000000005)).power.tripped = true ∧ (after (.thermTrip 117 true 53000 52000) (s 1000000005)).mss.log.map (·.code) = [9] ∧ (holdupMj true 40000 39000).getD 0 < 6000 ∧
    (after (.thermTrip 117 true 40000 39000) (s 1000000005)).mss.log = [] ∧ Sparse.find? (s 0).mss.tripSince 1 = none ∧ (s 0).powered = true ∧ (after (.hardwareTrip 85) (s 0)).power.tripped = true ∧
    ({ s 0 with power := { (s 0).power with phase := .off } } : State).powered = false ∧ (s 0).isFaulty 71 = false ∧ (after (.hallFieldFailure 71) (s 0)).isFaulty 71 = true ∧ (after (.hallFieldFailure 71) (s 0)).isFaulty 0 = false ∧
    (after (.hallFieldFailure 71) (after (.hallFieldFailure 71) (s 0))).mss.logBuf = (after (.hallFieldFailure 71) (s 0)).mss.logBuf ∧ ((after (.hallFieldFailure 71) (s 0)).mss.logBuf.head?.map (·.code)) = some 4 ∧ goes (.thermTrip 118 true 1 0) (s 0) = false ∧ goes (.hardwareTrip 86) (s 0) = false ∧ goes (.hallFieldFailure 72) (s 0) = false ∧
    goes (.sensorPoll 194 0) (s 0) = false := by decide +kernel
theorem witness_PowerRows :
    let s := fun (f : Power → Power) => ({ live with power := f live.power } : State)
    let ph := fun (x : Phase) (a : Bool) => s (fun (p : Power) => { p with phase := x, pwren := a })
    (after .modPwrenAssert (ph .off false)).power.phase = .rising ∧ (after .modPwrenAssert (ph .falling false)).power.again = true ∧ (after .modPwrenAssert (ph .running false)).power.phase = .running ∧ (s id).power.input = true ∧
    (s id).power.tripped = false ∧ (after .modPwrenAssert (ph .off true)).power.phase = .off ∧ (after .modPwrenDeassert (s id)).power.phase = .falling ∧ (after .modPwrenDeassert (s id)).frames = [] ∧ (after .modPwrenDeassert (ph .off true)).power.pwren = false ∧
    (after .inputPowerLoss (s id)).power.phase = .falling ∧ (after .inputPowerLoss (ph .off true)).power.input = false ∧ (after .inputPowerApplied (s (fun (p : Power) => { p with phase := .off, input := false }))).power.phase = .rising ∧
    (after .inputPowerApplied (s (fun (p : Power) => { p with phase := .off, input := false, pwren := false }))).power.phase = .off ∧
    (after .powerUpAfterPowerDown (s (fun (p : Power) => { p with phase := .falling, again := true }))).power.phase = .rising ∧ ({ s id with mss := { (s id).mss with seq := some .fuse } } : State).mss.seq.isSome = true ∧
    (after .modResetNLow (s id)).power.cause = 1 ∧ (after .modResetNLow (s id)).g F.PWR_STATUS_RESET_N 0 = 0 ∧ (after .modResetNLow (ph .rising true)).power.phase = .rising ∧ (after .refclkLoss (s id)).power.cause = 5 ∧
    (after .refclkLoss (ph .off true)).power.refclk = false ∧ (s id).mss.seq = none ∧ (s id).mssOn = true ∧ (after .resetGlitch (s id)).g F.PWR_GLITCH_RESET 0 = 1 := by decide +kernel
theorem witness_PinRows :
    let s := fun (f : Power → Power) => ({ put live [(F.PWR_STATUS_ADDR, 0, 0, 7)] with power := f live.power } : State)
    let low := s (fun (p : Power) => { p with resetN := false, boundary := 9 })
    (s id).mssOn = true ∧ (s id).mss.dynAddr = none ∧ (after (.entdaa 127) (s id)).mss.dynAddr = some 127 ∧ (after (.setdasa 0x37) (s id)).mss.dynAddr = some 0x37 ∧ (after (.setdasa 0x36) (s id)).mss.dynAddr = none ∧
    (after (.setdasa 0x37) (after (.entdaa 1) (s id))).mss.dynAddr = some 1 ∧ (s (fun (p : Power) => { p with phase := .off })).powered = false ∧ (s id).powered = true ∧ (after .idcode (s id)).power.tap = 1 ∧
    (after (.samplePreload 5) (s id)).power.boundary = 5 ∧ (s id).power.resetN = true ∧ (after .clamp (s id)).power.tap = 0 ∧ low.power.resetN = false ∧ (after .highz low).power.tap = 7 ∧ (after .extest low).out = [.drive 3 9] := by decide +kernel

theorem witness_RegisterRows :
    let s := put live [(F.PWR_GLITCH_PPS, 0, 0, 5), (F.PWR_GLITCH_RESET, 0, 0, 6), (F.MB_ALERT_BOOTFAIL, 0, 0, 1), (F.MB_ALERT_HOLDUP, 0, 0, 1)]
    let free := 0x1000000 + 0x200000 * 71 + 0x2008
    9 % 8 ≠ 0 ∧ (after (.registerWrite 9 5) (hosted 0 id globalR s)).g F.ROCE_NAK_ACC 33 = 1 ∧ s.foyer.qps = [] ∧ goes (.readClear 9) s = true ∧ regAt 0x0F000000 = none ∧ regAt 0x3FFFF8 = none ∧ ((regAt free).any (fun x => s.unseen x.1 x.2.1 x.2.2)) = true ∧ (after (.readClear 0x7FFFF8) s).out.length = 1 ∧
    ((regAt 0xF00810).map (fun x => (x.1 == R.PWR_GLITCH, s.unseen x.1 x.2.1 x.2.2))) = some (true, false) ∧ s.g F.PWR_GLITCH_PPS 0 = 5 ∧ (after (.readClear 0xF00810) s).g F.PWR_GLITCH_PPS 0 = 0 ∧ (after (.readClear 0xF00810) s).g F.PWR_GLITCH_RESET 0 = 0 ∧
    ((regAt 0x1002020).map (fun x => (x.1 == R.DBG_BP, x.2, s.unseen x.1 x.2.1 x.2.2))) = some (true, (0, 3), false) ∧ (after (.registerWrite 0x1002020 (2 ^ 64 - 1)) s).regs.rd R.DBG_BP 0 3 = BitVec.ofNat 64 (2 ^ 19 - 1) ∧
    s.power.phase = .running ∧ R.MB_SENSOR ∈ regsOf .mb ∧ 193 < R.MB_SENSOR.count ∧ (after (.regRead (R.MB_SENSOR.addr 0 193)) s).out.length = 1 ∧ (after (.regWrite 0xF00020 5) s).g F.MB_PCAP_CAP 0 = 1200 ∧
    (after (.regWrite 0xF00020 4095) s).g F.MB_PCAP_CAP 0 = 3800 ∧ (after (.regWrite 0xF00050 (31 * 256 + 1)) s).g F.MB_ALERT_ALERT_EN 0 = 31 ∧ inMailbox 0xF00004 = false ∧ inMailbox 0x1000000 = false := by decide +kernel
theorem witness_HallRegisterRows :
    let s := stand 0 0
    let t := withTile { tileAt 0 0 with dbgStop := true }
    (s.ownerOf 71).isNone = true ∧ (s.ownerOf 0).isSome = true ∧ (after (.hallClkWrite 0 127) s).g F.HALL_CLK_TARGET 0 = 72 ∧ (after (.hallClkWrite 0 23) s).g F.HALL_CLK_TARGET 0 = 24 ∧ (after (.clockChangeDone 71) s).g F.HALL_CLK_CURRENT 71 = 24 ∧
    (s.ownerOf (4607 / 64)).isNone = true ∧ (s.ownerOf (0 / 64)).isSome = true ∧ (after (.tstatClear 0 16) (put s [(F.TILE_TFIRST_A_VALID, 0, 4, 1)])).g F.TILE_TFIRST_A_VALID 0 4 = 0 ∧
    ((after (.srSeedWrite 0 5) (withTile { tileAt 0 0 with main := { (tileAt 0 0).main with srq := 9 } })).ctx 0 0).srq = 0 ∧ s.canIssue 0 0 = true ∧ (s.tile 0).bpPass < 4 ∧ (after (.dbgStop 0) s).canIssue 0 0 = false ∧
    (after (.dbgGo 0) t).canIssue 0 0 = true ∧ (t.tile 0).dbgStop = true ∧ (after (.dbgStep 0) t).canIssue 0 0 = true ∧ (after (.dbgStep 0) t).canIssue 0 1 = false ∧ (s.tile 0).dbgStop = false ∧
    (after (.landCtrlWrite 7 (2 ^ 32)) s).g F.LAND_CTRL_TIMEOUT 7 = 1 ∧ (after (.landCtrlWrite 7 (2 ^ 32)) s).g F.LAND_CTRL_AEVENT 7 = 1 ∧ goes (.hallClkWrite 72 0) s = false ∧ goes (.clockChangeDone 72) s = false ∧
    goes (.tstatClear 4608 0) s = false ∧ goes (.srSeedWrite 4608 0) s = false ∧ goes (.dbgStop 4608) s = false ∧ goes (.dbgGo 4608) s = false ∧ goes (.dbgStep 4608) s = false ∧ goes (.landCtrlWrite 8 0) s = false := by decide +kernel
theorem witness_MailboxRows :
    let s := put (hosted 0 id globalR live) [(F.MB_AQP_CFG_PORT, 0, 0, 3), (F.MB_AQP_CFG_RQPN, 0, 0, 77)]
    let f : State := (put { live with parts := [] } [(F.DEV_HALL_FAULT_HI_FAULT_HI, 0, 0, 192)])
    Sparse.lowestFree s.foyer.qps 1024 = some 0 ∧ (∀ e ∈ s.foyer.qps, e.2.kind = 0 → s.qp? e.1 = some e.2 ∧ e.2.ops = []) ∧ (((after .aqpCreate s).qp? 0).map (fun q => (q.kind, q.port, q.rqpn, q.ok))) = some (0, 3, 77, true) ∧
    (((after .aqpCreate s).qp? 1023).map (·.ok)) = some false ∧ s.anyLive = true ∧ f.anyLive = false ∧ f.isFaulty 70 = true ∧ f.isFaulty 71 = true ∧ (after (.faultClear [71]) f).isFaulty 70 = false ∧ (after (.faultClear [71]) f).isFaulty 71 = true ∧ (after (.faultClear [71]) f).g F.MB_FAULT_CLEAR_FAILED 0 = 1 := by decide +kernel
/-- Every queue pair number taken by a data queue pair. -/
def allQps : Sparse Qp := (List.range 1024).map (fun (n : Nat) => (n, Qp.fresh 2 0 5 1 0 2 2 0 100 200 0 0 0))
theorem lowestFrom_full (l : List Nat) : ∀ n k, (∀ i, k ≤ i → i < k + n → i ∈ l) → lowestFrom l n k = k + n
  | 0, _, _ => rfl
  | n + 1, k, h => by
    have hk : l.contains k = true := List.contains_iff_mem.mpr (h k (Nat.le_refl _) (by omega))
    unfold lowestFrom
    rw [if_pos hk, lowestFrom_full l n (k + 1) (fun i h1 h2 => h i (by omega) (by omega))]
    omega
theorem test_all_taken : Sparse.lowestFree allQps 1024 = none := by
  have h : lowestFrom (allQps.map (·.1)) allQps.length 0 = 0 + allQps.length := lowestFrom_full _ _ _ (fun i _ hi =>
    List.mem_map.mpr ⟨(i, Qp.fresh 2 0 5 1 0 2 2 0 100 200 0 0 0), List.mem_map.mpr ⟨i, List.mem_range.mpr (by simpa [allQps] using hi), rfl⟩, rfl⟩)
  unfold Sparse.lowestFree
  rw [h, show 0 + allQps.length = 1024 by simp [allQps]]
  rfl
theorem witness_NoQueuePairLeft : ∃ s : State, Sparse.lowestFree s.foyer.qps 1024 = none ∧ ∀ e ∈ s.foyer.qps, e.2.kind ≠ 0 :=
  ⟨live.upFoyer (fun x => { x with qps := allQps }), test_all_taken, fun e he => by
    obtain ⟨n, _, rfl⟩ := List.mem_map.mp (show e ∈ allQps from he); exact (by decide : (2 : Nat) ≠ 0)⟩

theorem witness_SafeStates : State.Safe { paged id with pending := [.nopCommand h0, .modPwrenAssert] } := ⟨by decide, by decide⟩
theorem witness_StepsInOrder : ({ live with pending := [.nopCommand h0] } : State).pending = [.nopCommand h0] ∧ live.pending = [] := ⟨rfl, rfl⟩
theorem witness_ColdReset : live.powered = true ∧ live.power.phase ≠ .rising ∧ R.TILE_SR_SEED ∈ regsOf .tile ∧ R.TILE_SR_SEED ≠ R.CQ_CFG := by decide
theorem witness_ScalarArithmetic :
    let r := fun (a b : Nat) => [(2, a), (3, b), (4, 9)]
    (∀ e ∈ [(Kind.alu, ins 1 0 1 2 3 0, 2 ^ 47, 5), (.alu, ins 1 1 0 2 3 0, 5, 6), (.alui, ins 8 1 31 2 0 (2 ^ 21), 5, 0), (.alui, ins 8 0 0 2 0 5, 5, 0), (.muldiv, ins 4 0 1 2 3 0, 2 ^ 40, 2 ^ 9), (.muldiv, ins 4 7 1 2 3 (4 * 2 ^ 12), 3, 4),
        (.muldiv, ins 4 3 1 2 3 0, 7, 0), (.muldiv, ins 4 6 1 2 3 0, 7, 0), (.muldiv, ins 4 3 1 2 3 0, 2 ^ 47, 2 ^ 48 - 1), (.muldiv, ins 4 5 1 2 3 0, 2 ^ 48 - 7, 2), (.muldiv, ins 4 4 1 2 3 0, 2 ^ 48 - 7, 2),
        (.muldiv, ins 4 6 0 2 3 0, 7, 2), (.cmp, ins 2 0 0 2 3 0, 1, 2), (.cmpi, ins 0xA 0 0 2 0 5, 1, 2), (.plog, ins 3 0 0 1 2 0, 1, 2)],
      ((standWith 0 e.2.1 (r e.2.2.1 e.2.2.2) []).guarded 0 0 e.2.1 && (standWith 0 e.2.1 (r e.2.2.1 e.2.2.2) []).stands 0 0 e.1 e.2.1) = true) ∧
    ((after (.muldiv 0 0) (standWith 0 (ins 4 5 1 2 3 0) (r (2 ^ 48 - 7) 2) [])).sreg 0 0 1).toInt = -1 ∧ ((after (.muldiv 0 0) (standWith 0 (ins 4 3 1 2 3 0) (r (2 ^ 48 - 7) 2) [])).sreg 0 0 1).toInt = -3 ∧
    ((after (.muldiv 0 0) (standWith 0 (ins 4 7 1 2 3 (4 * 2 ^ 12)) (r 3 4) [])).sreg 0 0 1).toNat = 21 ∧ ((after (.alui 0 0) (standWith 0 (ins 8 1 31 2 0 (2 ^ 21)) (r 5 0) [])).sreg 0 0 31).toNat = 2 ^ 21 + 5 := by decide +kernel
theorem witness_FreeHallHidden : live.g F.PART_OWNER_OWNED 71 = 0 ∧ (0x1000000 + 0x200000 * 71 + 0x11FFF8) % 8 = 0 ∧ 0x1000000 + 0x200000 * 71 + 0x11FFF8 ≠ 0x1000000 + 0x200000 * 71 + 0x100000 := by decide
theorem witness_FaultyHalls :
    let s := cmds live
    let f := after (.hallFieldFailure 71) s
    let ht : CmdHdr := { h0 with tpart := 1 }
    s.power.phase = .running ∧ f.g F.DEV_HALL_FAULT_HI_FAULT_HI 0 / 2 ^ 7 % 2 = 1 ∧ (after (.hallFieldFailure 63) s).g F.DEV_HALL_FAULT_FAULT_LO 0 / 2 ^ 63 % 2 = 1 ∧ f.starts (.partCreate ht 0 16 (2 ^ 71)) = true ∧ 71 ∈ maskHalls (2 ^ 71) ∧
    f.isFaulty 71 = true ∧ ((after (.partCreate ht 0 16 (2 ^ 71)) f).foyer.heldDone.map (·.2)) = [0x0102] ∧
    (let x : Creation := ⟨⟨ht, 0x0100, [], []⟩, 0, 16, [71]⟩
     let c := f.upFoyer (fun y => { y with creations := [x] })
     (c.foyer.creations.find? (fun x => x.cmd.hdr.tpart == 1)).map (·.halls) = some [71] ∧ (after (.creationAfterRelease 1) c).parts.length = 1) := by decide +kernel
theorem witness_CountersSaturate : F.TILE_ECC_CE_COUNT.lo + F.TILE_ECC_CE_COUNT.width ≤ 64 ∧ (put live [(F.TILE_ECC_CE_COUNT, 0, 0, 2 ^ 48 - 1)]).g F.TILE_ECC_CE_COUNT 0 = 2 ^ F.TILE_ECC_CE_COUNT.width - 1 ∧
    F.PWR_GLITCH_PPS.reg = F.PWR_GLITCH_RESET.reg ∧ (F.PWR_GLITCH_PPS.lo + F.PWR_GLITCH_PPS.width ≤ F.PWR_GLITCH_RESET.lo ∨ F.PWR_GLITCH_RESET.lo + F.PWR_GLITCH_RESET.width ≤ F.PWR_GLITCH_PPS.lo) := by decide
/-- Word 5 of tile 0 holds 9 under a pattern of flipped bits. -/
def flip (x : Nat) : State := withTile { tileAt 0 0 with mem := [(5, storeWord 9 ^^^ BitVec.ofNat 104 x)] }
theorem witness_WordErrors :
    let syn := fun (s : State) => ((Sparse.get 0 (s.tile 0).mem 5).toNat / 2 ^ 96) ^^^ eccCheck ((Sparse.get 0 (s.tile 0).mem 5).toNat % 2 ^ 96)
    syn (flip 0) = 0 ∧ syn (withTile { tileAt 0 0 with mem := [(5, poisonStored)] }) = 0xFF ∧ eccCols[95]? = some (syn (flip (2 ^ 95))) ∧ syn (flip (2 ^ 103)) = 2 ^ 7 ∧ ((flip (2 ^ 95)).readWord 0 5 0 0).2 = (9, false) ∧
    ((flip (2 ^ 103)).readWord 0 5 0 0).2 = (9, false) ∧ syn (flip 3) ≠ 0 ∧ syn (flip 3) ≠ 0xFF ∧ (eccCols.contains (syn (flip 3))) = false ∧ (∀ k ∈ List.range 8, syn (flip 3) ≠ 2 ^ k) ∧ ((flip 3).readWord 0 5 0 0).2 = (0, true) := by decide +kernel
theorem witness_RoundingModes :
    ((0 : Int) < 2) ∧ (roundAt 0 false 6 0 2 0).1 = 2 ∧ (roundAt 5 false 6 0 2 0).1 = 2 ∧ (roundAt 0 false 10 0 2 0).1 = 2 ∧ (roundAt 5 false 10 0 2 0).1 = 3 ∧ (roundAt 1 false 11 0 2 0).1 = 2 ∧ (roundAt 3 true 9 0 2 0).1 = 3 ∧ (roundAt 2 true 9 0 2 0).1 = 2 ∧
    (∃ F, fpOf 0 = some F ∧ F.decode false 0x3FC00000 = .fin false 0xC00000 (-23) ∧ F.roundT 4 false 7 false 0xC00000 (-23) = (0x3FC00000, 0)) := by
  refine ⟨by decide, by decide +kernel, by decide +kernel, by decide +kernel, by decide +kernel, by decide +kernel, by decide +kernel, by decide +kernel, ⟨8, 23, 127, true⟩, by decide, by decide +kernel, by decide +kernel⟩
theorem witness_LinesLieApart : (131071 < 131072 ∧ 466032 < 466033) ∧ (place 466032 131071).1 < 32 ∧ (place 466032 131071).2.2.1 / 576 < 7456528 ∧ place 0 0 ≠ place 0 1 := by decide +kernel
theorem witness_IntegerCodes : (0x80 < 2 ^ fmtBits 9 ∧ intDecode 9 0x80 = -128 ∧ intEncode 9 (-128) = 0x80) ∧ (15 < 2 ^ fmtBits 12 ∧ intDecode 12 15 = 15) ∧ ((-2 ^ 31 : Int) < 2 ^ (fmtBits 13 - 1) ∧ intDecode 13 (2 ^ 31) = -2 ^ 31) := by decide +kernel

/-! Commands that name what the module does not have: the first of each kind that is refused, beside the last that is not. -/

theorem test_wf_units : ([Instr.alu 4607 1, .tileArrival 4607, .galleryScrubRead 71 7, .creationAfterRelease 7, .syncPulse 1, .frameLineRead 466032 131071, .fillLineArrival 71 767 1023, .copyDone 524287,
    .patrolScrub 31, .refresh 31 15 true, .replayNotice 7 1, .riskIndexUpdate [(71, 1)] [(31, 1)], .keepalive (frameOf 10 0 0 0 0 0), .ackTimer 8191 0, .roceSend { request 0 0 0 [] with port := 3 }, .cnp 1023 ethOk, .linkUp 71,
    .tailDoorbell 63 0, .eheadDoorbell 63 8 0, .launch { h0 with queue := 63 }, .boot true 1 0 [71], .sensorPoll 193 0, .hallClkWrite 71 0, .portModeWrite 35 0, .thermTrip 117 true 1 0, .hardwareTrip 85,
    .pfcPauseExpiry 71 7].all Instr.wf) = true := by decide
theorem test_ill_formed : (([Instr.alu 4608 0, .alu 0 2, .tileArrival 4608, .galleryScrubRead 72 0, .galleryScrubRead 0 8, .creationAfterRelease 8, .syncPulse 2, .frameLineRead 466033 0, .frameLineRead 0 131072, .fillLineArrival 72 0 0,
    .fillLineArrival 0 768 0, .fillLineArrival 0 0 1024, .copyDone 524288, .patrolScrub 32, .refresh 0 16 true, .replayNotice 0 2, .riskIndexUpdate [(0, 1), (72, 1)] [], .riskIndexUpdate [] [(32, 1)],
    .keepalive { frameOf 10 0 0 0 0 0 with sub := 64 }, .ackTimer 8192 0, .roceSend { request 0 0 0 [] with port := 4 }, .cnp 1024 ethOk, .linkUp 72, .tailDoorbell 64 0, .eheadDoorbell 0 9 0, .launch { h0 with queue := 64 },
    .boot true 1 0 [0, 72], .sensorPoll 194 0, .hallClkWrite 72 0, .portModeWrite 36 0, .thermTrip 118 true 1 0, .hardwareTrip 86, .pfcPauseExpiry 0 8] : List Instr).all (fun (i : Instr) => !i.wf && !goes i live)) = true := by decide +kernel
theorem test_no_word_spells : decodeTableWord 0 0 = none ∧ (live.withFetchWord 48 0).pending = [] := ⟨rfl, rfl⟩
end Sys2Proof.Tests
end

section
/-! Every row keeps the queue and the canonical form of frame memory (`exec_holds`), and answers a next state when its command is well-formed (`exec_goes`); from these, a step.
A row's lemma composes those of the functions that the row calls; the rows of one short shape are proved in `exec_holds` itself. -/

namespace Sys2Proof.Machine

section
variable {Q : List Instr} {s : State}

/-- A tile row that issues at once. -/
theorem plainRow_holds {n c : Nat} {k : Kind} {body : State → Nat → State} (hb : ∀ s w, s.Holds Q → (body s w).Holds Q) (hq : s.Holds Q) :
    Res.Holds Q (onTile n c (s.issuePlain n c k body)) :=
  onTile_holds _ _ (State.issuePlain_holds _ _ _ _ _ hb hq)

/-! Rows of Machine/Scalar. -/

theorem execLdh_holds {n c : Nat} (hq : s.Holds Q) : Res.Holds Q (execLdh n c s) :=
  onTile_holds _ _ (State.issue_holds _ _ _ _ _ _ (fun _ _ h => loadBits_holds _ _ _ _ _ _ _ _ h) hq)

theorem execSth_holds {n c : Nat} (hq : s.Holds Q) : Res.Holds Q (execSth n c s) :=
  onTile_holds _ _ (State.issue_holds _ _ _ _ _ _ (fun _ _ h => storeBits_holds _ _ _ _ _ _ _ h) hq)

theorem execLde_holds {n c : Nat} (hq : s.Holds Q) : Res.Holds Q (execLde n c s) :=
  onTile_holds _ _ (State.issue_holds _ _ _ _ _ _ (fun _ _ h => State.ite_holds (State.tileFault_holds _ _ _ _ _ _ _ h) (loadBits_holds _ _ _ _ _ _ _ _ h)) hq)

theorem execSte_holds {n c : Nat} (hq : s.Holds Q) : Res.Holds Q (execSte n c s) :=
  onTile_holds _ _ (State.issue_holds _ _ _ _ _ _ (fun _ _ h => State.ite_holds (State.tileFault_holds _ _ _ _ _ _ _ h) (storeBits_holds _ _ _ _ _ _ _ h)) hq)

theorem execMfs_holds {n c : Nat} (hq : s.Holds Q) : Res.Holds Q (execMfs n c s) :=
  plainRow_holds (fun _ _ h => State.ite_holds (State.tileFault_holds _ _ _ _ _ _ _ h) (State.ite_holds (State.setSreg_holds _ _ _ _ _ h) (State.setSreg_holds _ _ _ _ _
      (statusRead_holds _ _ _ _ h)))) hq

theorem execMts_holds {n c : Nat} (hq : s.Holds Q) : Res.Holds Q (execMts n c s) :=
  plainRow_holds (fun _ _ h => State.ite_holds (State.tileFault_holds _ _ _ _ _ _ _ h) (State.ite_holds (State.ite_holds (State.setVl_holds _ _ _ _ h) h)
      (statusWrite_holds _ _ _ _ _ h))) hq

theorem execLoop_holds {n c : Nat} (hq : s.Holds Q) : Res.Holds Q (execLoop n c s) :=
  plainRow_holds (fun _ _ h => State.ite_holds (State.setPc_holds _ _ _ _ (State.setSreg_holds _ _ _ _ _ h)) (State.setSreg_holds _ _ _ _ _ h)) hq

/-! Rows of Machine/Matrix. -/

theorem execMxStart_holds {n : Nat} (hq : s.Holds Q) : Res.Holds Q (execMxStart n s) := by
  unfold execMxStart
  refine onTile_holds _ _ ?_
  split
  · exact State.ite_holds (State.ite_holds (State.mxEndK_holds _ _ _ (State.upInstr_holds _ _ _ _ (State.mxInit_holds _ _ _ hq))) (State.upInstr_holds _ _ _ _
      (State.mxInit_holds _ _ _ hq))) hq
  · exact hq

theorem execMxKstep_holds {n : Nat} (hq : s.Holds Q) : Res.Holds Q (execMxKstep n s) := by
  unfold execMxKstep
  refine onTile_holds _ _ ?_
  split
  · extract_lets d k e bank s1 r s2 s3 s4
    have h1 : s1.Holds Q := State.readWords_holds _ _ _ _ _ hq
    have h2 : s2.Holds Q := State.inc_holds _ _ _ _ _ (State.raiseAll_holds _ _ _ _ _ _ (State.upTile_holds _ _ _ h1))
    have h4 : s4.Holds Q := State.upInstr_holds _ _ _ _ (State.inc_holds _ _ _ _ _ (State.upTile_holds _ _ _ h2))
    exact State.ite_holds (State.mxEndK_holds _ _ _ h4) h4
  · exact hq

theorem execMxDrainEnd_holds {n : Nat} (hq : s.Holds Q) : Res.Holds Q (execMxDrainEnd n s) := by
  unfold execMxDrainEnd
  refine onTile_holds _ _ ?_
  split
  · split
    · exact State.complete_holds _ _ _ (State.inc_holds _ _ _ _ _ (State.inc_holds _ _ _ _ _ (State.raiseAll_holds _ _ _ _ _ _ (State.foldl_holds _ _ (fun _ _ h =>
        State.applyWrite_holds _ _ _ _ h) (State.upTile_holds _ _ _ hq)))))
    · exact State.upTile_holds _ _ _ hq
  · exact hq

/-! Rows of Machine/Vector. -/

theorem execVxStart_holds {n c : Nat} (hq : s.Holds Q) : Res.Holds Q (execVxStart n c s) := by
  unfold execVxStart
  refine onTile_holds _ _ ?_
  split
  · exact State.ite_holds (State.foldl_holds _ _ (fun _ _ h => State.upInstr_holds _ _ _ _ h) hq) hq
  · exact hq

theorem execVxDone_holds {n c : Nat} (hq : s.Holds Q) : Res.Holds Q (execVxDone n c s) := by
  unfold execVxDone
  refine onTile_holds _ _ ?_
  extract_lets ch s1 outs s2
  have h1 : s1.Holds Q := State.foldl_holds _ _ (fun _ _ h => State.readWords_holds _ _ _ _ _ h) hq
  have h2 : s2.Holds Q := State.foldl_holds _ _ (fun _ _ h => State.raise_holds _ _ _ _ _ _ h) h1
  refine State.foldl_holds _ _ (fun s p h => ?_) h2
  have hw := State.foldl_holds (fun s w => s.applyWrite n p.1.flight w) p.2.words (fun _ _ h => State.applyWrite_holds _ _ _ _ h) h
  exact State.complete_holds _ _ _ (State.inc_holds _ _ _ _ _ (State.inc_holds _ _ _ _ _ (State.inc_holds _ _ _ _ _ hw)))

/-! Rows of Machine/Engine. -/

theorem execAlcoveCloseRetire_holds {n c : Nat} (hq : s.Holds Q) : Res.Holds Q (execAlcoveCloseRetire n c s) := by
  unfold execAlcoveCloseRetire
  refine onTile_holds _ _ ?_
  split
  · refine State.ite_holds ?_ hq
    split
    · exact State.alcSet_holds _ _ _ _ (State.setWait_holds _ _ _ _ hq)
    · exact State.setWait_holds _ _ _ _ hq
  · exact hq

/-! Rows of Machine/StreamEngine. -/

theorem execStStart_holds {n id : Nat} (hq : s.Holds Q) : Res.Holds Q (execStStart n id s) := by
  unfold execStStart
  refine onTile_holds _ _ ?_
  split
  · refine State.ite_holds ?_ hq
    extract_lets s1 r s2 s3
    have h1 : s1.Holds Q := State.upInstr_holds _ _ _ _ (State.readWords_holds _ _ _ _ _ hq)
    have h2 : s2.Holds Q := State.upTile_holds _ _ _ (State.clearReads_holds _ _ _ h1)
    have h3 : s3.Holds Q := State.inc_holds _ _ _ _ _ (State.inc_holds _ _ _ _ _ (State.raiseAll_holds _ _ _ _ _ _ h2))
    exact State.ite_holds h1 (State.ite_holds (State.complete_holds _ _ _ h3) h3)
  · exact hq

theorem execStWordGroupArrival_holds {n id : Nat} (hq : s.Holds Q) : Res.Holds Q (execStWordGroupArrival n id s) := by
  unfold execStWordGroupArrival
  refine onTile_holds _ _ ?_
  split
  · refine State.ite_holds ?_ hq
    extract_lets o keep s1 s2 s3 s4 s5
    have h1 : s1.Holds Q := State.foldl_holds _ _ (fun _ _ h => State.applyWrite_holds _ _ _ _ h) hq
    have h2 : s2.Holds Q := State.ite_holds (State.pendFault_holds _ _ _ h1) h1
    have h3 : s3.Holds Q := State.inc_holds _ _ _ _ _ (State.raiseAll_holds _ _ _ _ _ _ h2)
    have h5 : s5.Holds Q := State.upTile_holds _ _ _ (State.inc_holds _ _ _ _ _ h3)
    exact State.stWindow_holds _ _ (State.ite_holds (State.upInstr_holds _ _ _ _ h5) (State.complete_holds _ _ _ h5))
  · exact hq

theorem execStWriteAck_holds {n : Nat} (hq : s.Holds Q) : Res.Holds Q (execStWriteAck n s) := by
  unfold execStWriteAck
  refine onTile_holds _ _ ?_
  split
  · exact State.stWindow_holds _ _ (State.outputLine_holds _ _ _ (State.upTile_holds _ _ _ hq))
  · exact hq

/-! Rows of Machine/Exchange. -/

theorem execXcStart_holds {n : Nat} (hq : s.Holds Q) : Res.Holds Q (execXcStart n s) := by
  unfold execXcStart
  refine onTile_holds _ _ ?_
  split
  · exact State.ite_holds (State.ite_holds (State.xcSent_holds _ _ _ (State.upInstr_holds _ _ _ _ hq)) (State.upInstr_holds _ _ _ _ hq)) hq
  · exact hq

theorem execXcEntrySend_holds {n : Nat} (hq : s.Holds Q) : Res.Holds Q (execXcEntrySend n s) := by
  unfold execXcEntrySend
  refine onTile_holds _ _ ?_
  split
  · refine State.ite_holds hq ?_
    extract_lets r e q u s1 s2
    have hr : r.1.Holds Q := State.readWord_holds _ _ _ _ _ hq
    have h1 : s1.Holds Q := State.upTile_holds _ _ _ (State.inc_holds _ _ _ _ _ (State.readWords_holds _ _ _ _ _ hr))
    have h2 : s2.Holds Q := State.upInstr_holds _ _ _ _ (State.xcSend_holds _ _ _ _ _ h1)
    exact State.ite_holds (State.tileFault_holds _ _ _ _ _ _ _ (State.upInstr_holds _ _ _ _ hr)) (State.ite_holds (State.xcSent_holds _ _ _ h2) h2)
  · exact hq

theorem execMulticastRoot_holds {idx : Nat} (hq : s.Holds Q) : Res.Holds Q (execMulticastRoot idx s) := by
  unfold execMulticastRoot
  refine next_holds ?_
  split
  · split
    · refine State.ite_holds hq ?_
      split
      · exact State.ite_holds (State.mcastAt_holds _ _ _ _ _ _ _ _ (State.sendBan_holds _ _ _ _ hq)) (State.refuse6_holds _ _ _ _ _ _ (State.dropPkt_holds _ _ hq))
      · exact State.refuse6_holds _ _ _ _ _ _ (State.dropPkt_holds _ _ hq)
    · exact hq
  · exact hq

theorem execMeshPacket_holds {idx : Nat} (hq : s.Holds Q) : Res.Holds Q (execMeshPacket idx s) := by
  unfold execMeshPacket
  refine next_holds ?_
  split
  · refine State.ite_holds hq (State.ite_holds (State.upPkt_holds _ _ _ hq) (State.ite_holds (State.tagDrop_holds _ _ hq) ?_))
    split
    · exact State.mcastAt_holds _ _ _ _ _ _ _ _ hq
    · exact State.upPkt_holds _ _ _ hq
  · exact hq

theorem execExchangeDelivery_holds {idx : Nat} (hq : s.Holds Q) : Res.Holds Q (execExchangeDelivery idx s) := by
  unfold execExchangeDelivery
  refine next_holds ?_
  split
  · split
    · exact State.ite_holds hq (State.sendBan_holds _ _ _ _ (State.exchAccess_holds _ _ _ _ _ (State.dropPkt_holds _ _ hq)))
    · exact State.ite_holds hq (State.ite_holds (State.exchAccess_holds _ _ _ _ _ (State.dropPkt_holds _ _ hq)) (State.foldl_holds _ _ (fun _ _ h => State.sendBan_holds _
        _ _ _ h) (State.exchAccess_holds _ _ _ _ _ (State.dropPkt_holds _ _ hq))))
    · exact hq
  · exact hq

theorem execReductionContribution_holds {idx : Nat} (hq : s.Holds Q) : Res.Holds Q (execReductionContribution idx s) := by
  unfold execReductionContribution
  refine next_holds ?_
  split
  · split
    · refine State.ite_holds hq ?_
      extract_lets h s1
      have h1 : s1.Holds Q := State.dropPkt_holds _ _ hq
      clear_value s1
      split
      · exact State.refuse6_holds _ _ _ _ _ _ h1
      · extract_lets s2 l s3
        have h2 : s2.Holds Q := State.upHall_holds _ _ _ (State.sendBan_holds _ _ _ _ h1)
        have h3 : s3.Holds Q := State.inc_holds _ _ _ _ _ (State.upHall_holds _ _ _ h2)
        exact State.ite_holds (State.refuse6_holds _ _ _ _ _ _ h1) (State.ite_holds (State.upHall_holds _ _ _ h2) (State.handPkt_holds _ _ _ _ _ _ h3))
    · exact hq
  · exact hq

theorem execXcAck_holds {idx : Nat} (hq : s.Holds Q) : Res.Holds Q (execXcAck idx s) := by
  unfold execXcAck
  refine next_holds ?_
  split
  · split
    · exact State.xcSettle_holds _ _ _ (State.upTile_holds _ _ _ (State.dropBan_holds _ _ hq))
    · extract_lets n fl s1 s2 s3
      have h1 : s1.Holds Q := State.dropBan_holds _ _ hq
      have h2 : s2.Holds Q := State.ite_holds h1
        (State.w_holds _ _ _ _ _ (State.w_holds _ _ _ _ _ (State.w_holds _ _ _ _ _ (State.w_holds _ _ _ _ _ (State.inc_holds _ _ _ _ _ h1)))))
      have h3 : s3.Holds Q := State.ite_holds (State.pendFault_holds _ _ _ h2) h2
      exact State.ite_holds h2 (State.xcSettle_holds _ _ _ (State.upTile_holds _ _ _ h3))
    · exact hq
  · exact hq

/-! Rows of Machine/Channels. -/

theorem execCloseOutRetire_holds {n : Nat} (hq : s.Holds Q) : Res.Holds Q (execCloseOutRetire n s) := by
  unfold execCloseOutRetire
  refine onTile_holds _ _ ?_
  split
  · exact State.ite_holds (State.msgServe_holds _ _ (State.complete_holds _ _ _ (State.w_holds _ _ _ _ _ (State.w_holds _ _ _ _ _ (State.w_holds _ _ _ _ _ hq))))) hq
  · exact hq

theorem execCloseInRetire_holds {n : Nat} (hq : s.Holds Q) : Res.Holds Q (execCloseInRetire n s) := by
  unfold execCloseInRetire
  refine onTile_holds _ _ ?_
  split
  · exact State.ite_holds (State.msgServe_holds _ _ (State.complete_holds _ _ _ (State.w_holds _ _ _ _ _ (State.upIn_holds _ _ _ _ (State.ite_holds hq
      (State.toSender_holds _ _ _ _ _ hq)))))) hq
  · exact hq

theorem execMessageSend_holds {n c cls : Nat} (hq : s.Holds Q) : Res.Holds Q (execMessageSend n c cls s) := by
  unfold execMessageSend
  refine onTile_holds _ _ ?_
  split
  · exact State.ite_holds (State.msgServe_holds _ _ (State.sendHead_holds _ _ _ hq)) hq
  · exact hq

theorem execMessageAck_holds {idx : Nat} (hq : s.Holds Q) : Res.Holds Q (execMessageAck idx s) := by
  unfold execMessageAck
  refine next_holds ?_
  split
  · split
    · exact State.msgAcked_holds _ _ _ _ _ (State.dropBan_holds _ _ hq)
    · exact hq
  · exact hq

theorem execCreditReturn_holds {idx : Nat} (hq : s.Holds Q) : Res.Holds Q (execCreditReturn idx s) := by
  unfold execCreditReturn
  refine next_holds ?_
  split
  · split
    · exact State.creditIn_holds _ _ _ _ (State.dropBan_holds _ _ hq)
    · exact hq
  · exact hq

theorem execOpeningGrant_holds {idx : Nat} (hq : s.Holds Q) : Res.Holds Q (execOpeningGrant idx s) := by
  unfold execOpeningGrant
  refine next_holds ?_
  split
  · split
    · exact State.w_holds _ _ _ _ _ (State.dropBan_holds _ _ hq)
    · exact hq
  · exact hq

/-! Rows of Machine/Messages. -/

theorem execMessageArrival_holds {idx : Nat} (hq : s.Holds Q) : Res.Holds Q (execMessageArrival idx s) := by
  unfold execMessageArrival
  refine next_holds ?_
  split
  · split
    · refine State.ite_holds hq ?_
      split
      · exact State.msgRefuse_holds _ _ _ _ _ _ _ _ _ (State.dropPkt_holds _ _ hq)
      · dsimp only
        split
        · exact State.msgAccept_holds _ _ _ _ _ _ _ (State.upTile_holds _ _ _ hq)
        · exact State.upPkt_holds _ _ _ (State.upTile_holds _ _ _ hq)
    · exact hq
  · exact hq

theorem execHeldDeliveryResume_holds {idx : Nat} (hq : s.Holds Q) : Res.Holds Q (execHeldDeliveryResume idx s) := by
  unfold execHeldDeliveryResume
  refine next_holds ?_
  split
  · split
    · refine State.ite_holds hq ?_
      split
      · exact State.msgAccept_holds _ _ _ _ _ _ _ hq
      · exact hq
    · exact hq
  · exact hq

theorem execWrapMarker_holds {idx : Nat} (hq : s.Holds Q) : Res.Holds Q (execWrapMarker idx s) := by
  unfold execWrapMarker
  refine next_holds ?_
  split
  · split
    · refine State.ite_holds hq ?_
      split
      · exact State.msgRefuse_holds _ _ _ _ _ _ _ _ _ (State.dropPkt_holds _ _ hq)
      · exact State.msgReply_holds _ _ _ _ _ _ (State.upIn_holds _ _ _ _ (State.deliver_holds _ _ _ _ (State.dropPkt_holds _ _ hq)))
    · exact hq
  · exact hq

theorem execMessageLastWord_holds {n k : Nat} (hq : s.Holds Q) : Res.Holds Q (execMessageLastWord n k s) := by
  unfold execMessageLastWord
  refine onTile_holds _ _ ?_
  split
  · exact State.joinServe_holds _ _ _ (State.upMsg_holds _ _ _ _ _ (State.upTile_holds _ _ _ (State.deliver_holds _ _ _ _ hq)))
  · exact hq

theorem execDoorbell_holds {idx : Nat} (hq : s.Holds Q) : Res.Holds Q (execDoorbell idx s) := by
  unfold execDoorbell
  refine next_holds ?_
  split
  · split
    · refine State.ite_holds (State.upIn_holds _ _ _ _ (State.dropBan_holds _ _ hq)) ?_
      split
      · exact State.joinServe_holds _ _ _ (State.upMsg_holds _ _ _ _ _ (State.dropBan_holds _ _ hq))
      · exact State.upIn_holds _ _ _ _ (State.dropBan_holds _ _ hq)
    · exact hq
  · exact hq

theorem execHandlerEntry_holds {n : Nat} (hq : s.Holds Q) : Res.Holds Q (execHandlerEntry n s) := by
  unfold execHandlerEntry
  refine onTile_holds _ _ (State.ite_holds hq ?_)
  split
  · exact State.popItem_holds _ _ _ _ hq
  · exact State.ite_holds (State.popItem_holds _ _ _ _ (State.offerable_holds _ _ _ hq)) (State.offerable_holds _ _ _ hq)
  · exact State.upTile_holds _ _ _ hq

theorem execHret_holds {n c : Nat} (hq : s.Holds Q) : Res.Holds Q (execHret n c s) :=
  plainRow_holds (fun _ _ h => State.inc_holds _ _ _ _ _ (State.setWait_holds _ _ _ _ (State.handlerEnd_holds _ _ h))) hq

/-! Rows of Machine/Landing. -/

theorem execLandingTimeout_holds {p l : Nat} (hq : s.Holds Q) : Res.Holds Q (execLandingTimeout p l s) := by
  unfold execLandingTimeout
  refine res_ite (fault_holds _) (next_holds ?_)
  split
  · split
    · exact State.ite_holds hq (State.event_holds _ _ _ _ (State.wreg_holds _ _ _ _ _ (State.inc_holds _ _ _ _ _ (State.upLanding_holds _ _ _ _ hq))))
    · exact hq
  · exact hq

/-! Rows of Machine/Lines. -/

theorem execLineReadRequest_holds {n id a : Nat} (hq : s.Holds Q) : Res.Holds Q (execLineReadRequest n id a s) := by
  unfold execLineReadRequest
  refine onTile_holds _ _ ?_
  split
  · refine State.ite_holds hq (State.stWindow_holds _ _ (State.ite_holds ?peer ?own))
    case peer => exact State.ite_holds (State.waitLine_holds _ _ _ _ (State.peerSend_holds _ _ _ _ _ _ _ _ _ _ hq)) hq
    case own =>
      refine State.ite_holds (State.giveLine_holds _ _ _ _ _ (State.memRefuse_holds _ _ _ _ _ _ _ hq)) (State.ite_holds ?_ ?_)
      · exact State.ite_holds (State.waitLine_holds _ _ _ _ (State.inc_holds _ _ _ _ _ hq)) hq
      · exact State.ite_holds (State.waitLine_holds _ _ _ _ hq) (State.serveRead_holds _ _ _ _ _ hq)
  · exact hq

theorem execFrameLineRead_holds {f l : Nat} (hq : s.Holds Q) : Res.Holds Q (execFrameLineRead f l s) := by
  unfold execFrameLineRead
  refine res_ite (fault_holds _) (next_holds ?_)
  dsimp only
  split
  · refine State.ite_holds hq ?_
    split
    · exact State.hwm_holds _ _ _ _ _ (State.readFrame_holds _ _ _ _ _ hq)
    · exact State.readFrame_holds _ _ _ _ _ hq
  · exact State.readFrame_holds _ _ _ _ _ hq

theorem execFillLineArrival_holds {h k l : Nat} (hq : s.Holds Q) : Res.Holds Q (execFillLineArrival h k l s) := by
  unfold execFillLineArrival
  refine res_ite (fault_holds _) (next_holds ?_)
  split
  · exact State.ite_holds hq (State.serveWaits_holds _ _ _ _ (State.upSlot_holds _ _ _ _ hq))
  · exact hq
  · exact hq

theorem execWriteBackDone_holds {h k : Nat} (hq : s.Holds Q) : Res.Holds Q (execWriteBackDone h k s) := by
  unfold execWriteBackDone
  refine res_ite (fault_holds _) (next_holds ?_)
  split
  · exact State.ite_holds (State.freeSlot_holds _ _ _ (State.writeBack_holds _ _ _ hq)) hq
  · exact hq

theorem execLineWriteRequest_holds {n : Nat} (hq : s.Holds Q) : Res.Holds Q (execLineWriteRequest n s) := by
  unfold execLineWriteRequest
  refine onTile_holds _ _ ?_
  split
  · split
    · exact State.ite_holds hq (State.ite_holds (State.ite_holds hq (State.outTaken_holds _ _ _ _ _ (State.peerSend_holds _ _ _ _ _ _ _ _ _ _ hq))) (State.ite_holds hq
        (State.ownWrite_holds _ _ _ _ _ hq)))
    · exact hq
  · exact hq

theorem execPageMapCut_holds (hq : s.Holds Q) : Res.Holds Q (execPageMapCut s) := by
  unfold execPageMapCut
  refine next_holds ?_
  split
  · refine State.ite_holds hq ?_
    split
    · exact State.cmdDone_holds _ _ _ (State.foldl_holds _ _ (fun _ _ h => State.applyEntry_holds _ _ _ h) hq)
    · exact State.foldl_holds _ _ (fun _ _ h => State.applyEntry_holds _ _ _ h) hq
  · exact hq

theorem execCopyDone_holds {e : Nat} (hq : s.Holds Q) : Res.Holds Q (execCopyDone e s) := by
  unfold execCopyDone
  refine res_ite (fault_holds _) (next_holds (State.ite_holds hq (State.ite_holds (State.releaseHeld_holds _ _ hq) ?_)))
  split
  · exact State.ite_holds (State.releaseHeld_holds _ _ (State.setPage_holds _ _ _ (State.copyPage_holds _ _ _ _ hq))) (State.copyPage_holds _ _ _ _ hq)
  · exact hq

theorem execRepairTimeout_holds {e l : Nat} (hq : s.Holds Q) : Res.Holds Q (execRepairTimeout e l s) := by
  unfold execRepairTimeout
  refine res_ite (fault_holds _) (next_holds ?_)
  split
  · exact State.ite_holds hq (State.servePeerReads_holds _ (State.repairFail_holds _ _ _ hq))
  · exact hq

theorem execRepairPageCopyDone_holds {e : Nat} (hq : s.Holds Q) : Res.Holds Q (execRepairPageCopyDone e s) := by
  unfold execRepairPageCopyDone
  refine res_ite (fault_holds _) (next_holds ?_)
  split
  · split
    · exact State.setPage_holds _ _ _ hq
    · exact State.ite_holds (State.event_holds _ _ _ _ (State.retireFrame_holds _ _ (State.setPage_holds _ _ _ (State.copyPage_holds _ _ _ _ hq)))) (State.copyPage_holds
        _ _ _ _ hq)
  · exact hq

theorem execPatrolScrub_holds {m : Nat} (hq : s.Holds Q) : Res.Holds Q (execPatrolScrub m s) := by
  unfold execPatrolScrub
  refine res_ite (fault_holds _) (next_holds ?_)
  extract_lets k c g f ls s1
  have h1 : s1.Holds Q := State.foldl_holds _ _ (fun _ _ h => State.classifyFrame_holds _ _ _ _ _ h) (State.useGroup_holds _ _ _ hq)
  exact State.ite_holds h1 h1

theorem execMr4Readout_holds {m codes temp : Nat} (hq : s.Holds Q) : Res.Holds Q (execMr4Readout m codes temp s) :=
  res_ite (fault_holds _) (next_holds (State.sensorRead_holds _ _ _ (State.w_holds _ _ _ _ _ (State.w_holds _ _ _ _ _ hq))))

/-! Rows of Machine/Prefetch. -/

theorem execPrefetchBlockPlaced_holds {p j i : Nat} (hq : s.Holds Q) : Res.Holds Q (execPrefetchBlockPlaced p j i s) := by
  unfold execPrefetchBlockPlaced
  refine res_ite (fault_holds _) (next_holds ?_)
  split
  · exact hq
  split
  · exact hq
  refine State.ite_holds hq ?_
  extract_lets b e why rs hs r todo s1 s2 s3
  have hr : r.1.Holds Q := by
    refine ite_ind (P := fun x : State × Bool => x.1.Holds Q) (State.event_holds _ _ _ _ (State.inc_holds _ _ _ _ _ hq)) (ite_ind (P := fun x : State × Bool => x.1.Holds Q) ?_ ?_)
    · refine ite_ind (P := fun x : State × Bool => x.1.Holds Q) hq ?_
      exact State.foldl_holds _ _ (fun _ _ h => State.freeSlot_holds _ _ _ (State.writeBack_holds _ _ _ h)) hq
    · exact State.foldl_holds_fst _ _ (fun _ _ h => ite_ind (P := fun x : State × Bool => x.1.Holds Q) (State.pfPlace_holds _ _ _ _ _ h) h) hq
  have h1 : s1.Holds Q := State.upPf_holds _ _ _ hr
  have h2 : s2.Holds Q := State.ite_holds (State.inc_holds _ _ _ _ _ h1) h1
  have h3 : s3.Holds Q := by
    refine State.foldl_holds _ _ (fun s w h => ?_) h2
    split
    · exact State.ite_holds (State.serveJoined_holds _ _ _ _ _ h) h
    · exact h
  exact State.ite_holds hr (State.pfActivate_holds _ _ _ h3)

/-! Rows of Machine/Spill. -/

theorem execSpill_holds {n k : Nat} (hq : s.Holds Q) : Res.Holds Q (execSpill n k s) := by
  unfold execSpill
  refine onTile_holds _ _ (State.ite_holds hq ?_)
  split
  · exact hq
  · split
    · exact State.inc_holds _ _ _ _ _ hq
    · exact State.upTile_holds _ _ _ hq

theorem execSpillCopyDone_holds {n : Nat} (hq : s.Holds Q) : Res.Holds Q (execSpillCopyDone n s) := by
  unfold execSpillCopyDone
  refine onTile_holds _ _ ?_
  split
  · split
    · exact State.upTile_holds _ _ _ hq
    · refine State.ite_holds (State.upTile_holds _ _ _ hq) ?_
      extract_lets q ls w s1 s2 s3
      have hw : w.1.Holds Q := State.spWrite_holds _ _ _ _ _ _ (State.readWords_holds _ _ _ _ _ hq)
      have h2 : s2.Holds Q := State.setCell_holds _ _ _ _ _ (State.upTile_holds _ _ _ hw)
      have h3 : s3.Holds Q := State.inc_holds _ _ _ _ _ (State.inc_holds _ _ _ _ _ h2)
      exact State.ite_holds hw (State.ringServe_holds _ _ _ (State.upMsg_holds _ _ _ _ _ h3))
  · exact hq

theorem execSpillReadback_holds {n : Nat} (hq : s.Holds Q) : Res.Holds Q (execSpillReadback n s) := by
  unfold execSpillReadback
  refine onTile_holds _ _ ?_
  dsimp only
  split
  · refine State.ite_holds hq (State.ite_holds (State.tileCell_holds _ _ _ _ hq) ?_)
    split
    · split
      · exact State.upIn_holds _ _ _ _ (State.foldl_holds _ _ (fun _ _ h => State.writeWord_holds _ _ _ _ _ h) (State.spRead_holds _ _ _ _ _ _ (State.tileCell_holds _ _ _
          _ hq)))
      · exact State.spRead_holds _ _ _ _ _ _ (State.tileCell_holds _ _ _ _ hq)
    · exact State.tileCell_holds _ _ _ _ hq
  · exact hq

/-! Rows of Machine/Collective. -/

theorem execContributionWrite_holds {n : Nat} (hq : s.Holds Q) : Res.Holds Q (execContributionWrite n s) := by
  unfold execContributionWrite
  refine onTile_holds _ _ ?_
  split
  · split
    · refine State.ite_holds hq ?_
      split
      · exact State.ownWrite_holds _ _ _ _ _ hq
      · exact State.ite_holds (State.ite_holds (State.contribAccept_holds _ _ _ _ (State.ownWrite_holds _ _ _ _ _ hq)) (State.ownWrite_holds _ _ _ _ _ hq))
          (State.contribHold_holds _ _ _ (State.outTaken_holds _ _ _ _ _ hq))
    · exact hq
  · exact hq

theorem execHeldLineAccept_holds {p j : Nat} (hq : s.Holds Q) : Res.Holds Q (execHeldLineAccept p j s) := by
  unfold execHeldLineAccept
  refine res_ite (fault_holds _) (next_holds ?_)
  split
  · exact hq
  split
  · exact hq
  refine State.ite_holds hq (State.ite_holds (State.heldDone_holds _ _ _ ?_) (State.ite_holds (State.ite_holds (State.askCopy_holds _ _ _ hq) hq) ?_))
  · split
    · exact State.memRefuse_holds _ _ _ _ _ _ _ hq
    · exact hq
    · exact State.event_holds _ _ _ _ hq
    · exact State.event_holds _ _ _ _ (State.partFault_holds _ _ hq)
  · extract_lets r
    have hr : r.1.Holds Q := by
      simp only [r]
      split
      · exact State.hallWrite_holds _ _ _ _ _ _ hq
      · exact State.writeLine_holds _ _ _ _ _ hq
    exact State.ite_holds (State.heldDone_holds _ _ _ (State.contribAccept_holds _ _ _ _ hr)) hr

theorem execBucketStart_holds {p b : Nat} (hq : s.Holds Q) : Res.Holds Q (execBucketStart p b s) := by
  unfold execBucketStart
  refine res_ite (fault_holds _) (next_holds ?_)
  split
  · exact State.ite_holds hq (State.collSteps_holds _ _ (State.collStart_holds _ _ _ hq))
  · exact hq

theorem execBucketPublish_holds {p : Nat} (hq : s.Holds Q) : Res.Holds Q (execBucketPublish p s) := by
  unfold execBucketPublish
  refine res_ite (fault_holds _) (next_holds ?_)
  dsimp only
  split
  · exact State.ite_holds (State.collPublish_holds _ _ _ (State.collSteps_holds _ _ hq)) (State.collSteps_holds _ _ hq)
  · exact State.collSteps_holds _ _ hq

theorem execNoticeDelivery_holds {idx : Nat} (hq : s.Holds Q) : Res.Holds Q (execNoticeDelivery idx s) := by
  unfold execNoticeDelivery
  refine next_holds ?_
  split
  · split
    · refine State.ite_holds hq ?_
      extract_lets s1 src s2 s3
      have h1 : s1.Holds Q := State.dropPkt_holds _ _ hq
      have h3 : s3.Holds Q := by
        simp only [s3]
        split
        · exact State.ite_holds (State.upTile_holds _ _ _ (State.deliver_holds _ _ _ _ h1)) (State.deliver_holds _ _ _ _ h1)
        · exact State.ite_holds (State.partFault_holds _ _ (State.alcViolation_holds _ _ _ _ _ _ _ _ _ h1)) (State.alcViolation_holds _ _ _ _ _ _ _ _ _ h1)
      exact State.ite_holds h3 (State.noticeDone_holds _ _ _ h3)
    · exact hq
  · exact hq

theorem execCollectiveSlow_holds {p b : Nat} (hq : s.Holds Q) : Res.Holds Q (execCollectiveSlow p b s) := by
  unfold execCollectiveSlow
  refine res_ite (fault_holds _) (next_holds ?_)
  split
  · exact State.ite_holds hq (State.event_holds _ _ _ _ (State.w_holds _ _ _ _ _ (State.w_holds _ _ _ _ _ (State.w_holds _ _ _ _ _ (State.inc_holds _ _ _ _ _
      (State.upRun_holds _ _ _ _ hq))))))
  · exact hq

theorem State.moveSend_holds {Q : List Instr} (s : State) (p b : Nat) (l : List (Nat × Option (List (Nat × Bool)))) (hq : s.Holds Q) : (s.moveSend p b l).Holds Q := by
  refine State.foldl_holds _ _ (fun s x h => ?_) hq
  split
  · exact State.toHost_holds _ _ _ _ _ h
  · exact State.toHost_holds _ _ _ _ _ (State.collFailed_holds _ _ _ _ h)

theorem execPermuteStart_holds {p : Nat} (hq : s.Holds Q) : Res.Holds Q (execPermuteStart p s) := by
  unfold execPermuteStart
  refine res_ite (fault_holds _) (next_holds ?_)
  split
  · exact hq
  next r _ =>
  extract_lets b d below tell q start mine
  have ht : ∀ {t : State} zs, t.Holds Q → (tell t zs).Holds Q := fun _ h => State.foldl_holds _ _ (fun _ _ h => State.toHost_holds _ _ _ _ _ h) h
  have hu : ∀ {t : State} m, t.Holds Q → (start t m).Holds Q := fun _ h => State.upRun_holds _ _ _ _ h
  have hr : q.1.Holds Q := State.collRead_holds _ _ _ _ hq
  clear_value tell q start
  refine State.ite_holds hq ?_
  split
  · exact hr
  · exact State.collSteps_holds _ _ (ht _ (hu _ (State.collFailed_holds _ _ _ _ hr)))
  · next l _ =>
    extract_lets m why ok t
    have hm : t.1.Holds Q := State.moveReads_holds _ _ _ _ _ hr
    have hf : ∀ w m zs, (State.collSteps (tell (start (q.1.collFailed p b w) m) zs) p).Holds Q := fun _ _ _ =>
      State.collSteps_holds _ _ (ht _ (hu _ (State.collFailed_holds _ _ _ _ hr)))
    refine State.ite_holds (hf _ _ _) (State.ite_holds (hf _ _ _) ?_)
    split
    · exact hm
    · exact State.collSteps_holds _ _ (State.moveSend_holds _ _ _ _ (hu _ hm))

/-! Rows of Machine/Protect. -/

theorem execSnapshotPageSent_holds {p : Nat} (hq : s.Holds Q) : Res.Holds Q (execSnapshotPageSent p s) := by
  unfold execSnapshotPageSent
  refine res_ite (fault_holds _) (next_holds ?_)
  split
  · refine State.ite_holds hq ?_
    extract_lets todo pick st st' off tr s1 s2 s3
    have h3 : s3.Holds Q := State.inc_holds _ _ _ _ _ (State.wreg_holds _ _ _ _ _ (State.jobEnd_holds _ _ hq))
    clear_value pick s3
    split
    · dsimp only
      have hr : ∀ e, (s.pageImage e).1.Holds Q := fun _ => State.pageImage_holds _ _ hq
      split
      · exact hr _
      · exact State.snapWrite_holds _ _ _ _ _ (State.inc_holds _ _ _ _ _ (State.upProt_holds _ _ _ (State.pageSent_holds _ _ (hr _))))
    · split
      · exact State.snapWrite_holds _ _ _ _ _ (State.upProt_holds _ _ _ hq)
      · exact State.snapWrite_holds _ _ _ _ _ (State.upProt_holds _ _ _ hq)
      · exact State.event_holds _ _ _ _ h3
  · exact hq

theorem execRestoreShadowDone_holds {p step epoch : Nat} {pages : List (Nat × List Nat)} (hq : s.Holds Q) : Res.Holds Q (execRestoreShadowDone p step epoch pages s) := by
  unfold execRestoreShadowDone
  refine res_ite (fault_holds _) (next_holds ?_)
  split
  · refine State.ite_holds hq (State.ite_holds (State.cmdDone_holds _ _ _ (State.upProt_holds _ _ _ hq)) (State.ite_holds hq ?_))
    extract_lets s1 s2 s3 s4
    have h1 : s1.Holds Q := by
      refine State.foldl_holds _ _ (fun s q h => ?_) hq
      exact State.foldl_holds _ _ (fun _ _ h => State.writeFrame_holds _ _ _ _ _ h) (State.clearFrame_holds _ _ (State.dropPage_holds _ _ h))
    have h3 : s3.Holds Q := State.foldl_holds _ _ (fun _ _ h => State.upTensor_holds _ _ _ _ h) (State.upPages_holds _ _ _ h1)
    have h4 : s4.Holds Q := State.upProt_holds _ _ _ (State.w_holds _ _ _ _ _ (State.w_holds _ _ _ _ _ h3))
    exact State.cmdDone_holds _ _ _ (State.event_holds _ _ _ _ h4)
  · exact hq

theorem execRiskIndexUpdate_holds {fec mem : List (Nat × Nat)} (hq : s.Holds Q) : Res.Holds Q (execRiskIndexUpdate fec mem s) := by
  unfold execRiskIndexUpdate
  refine res_ite (fault_holds _) (next_holds ?_)
  extract_lets s1 s2 m now hist add r1 day hour full cep tp flaps ues fp e hp up index s3 s4 old s5 t1 t2 t3 want bar
  have h1 : s1.Holds Q := State.foldl_holds _ _ (fun _ _ h => State.inc_holds _ _ _ _ _ h) hq
  have h2 : s2.Holds Q := State.foldl_holds _ _ (fun _ _ h => State.inc_holds _ _ _ _ _ h) h1
  have h3 : s3.Holds Q := State.upMss_holds _ _ h2
  have h4 : s4.Holds Q := State.ite_holds (State.persist_holds _ _ h3) h3
  have h5 : s5.Holds Q := State.wreg_holds _ _ _ _ _ h4
  clear_value s5
  refine State.ite_holds (State.riskTier_holds _ _ _ _ h5) (State.ite_holds ?_ (State.upMss_holds _ _ h5))
  exact State.ite_holds (State.riskTier_holds _ _ _ _ h5) (State.upMss_holds _ _ h5)

/-! Rows of Machine/Buddy. -/

theorem execReplayNotice_holds {p k : Nat} (hq : s.Holds Q) : Res.Holds Q (execReplayNotice p k s) := by
  unfold execReplayNotice
  refine res_ite (fault_holds _) (next_holds ?_)
  dsimp only
  split
  · exact State.sendDigests_holds _ _ _ hq
  · refine State.ite_holds (State.sendDigests_holds _ _ _ hq) ?_
    split
    · exact State.sendDigests_holds _ _ _ hq
    · exact State.ite_holds (State.sendDigests_holds _ _ _ hq) (State.handPkt_holds _ _ _ _ _ _ (State.upInLink_holds _ _ _ _ (State.w_holds _ _ _ _ _
        (State.sendDigests_holds _ _ _ hq))))

theorem execDoneWrite_holds {n : Nat} (hq : s.Holds Q) : Res.Holds Q (execDoneWrite n s) := by
  unfold execDoneWrite
  refine onTile_holds _ _ ?_
  split
  · split
    · exact State.ite_holds hq (State.ite_holds (State.ownWrite_holds _ _ _ _ _ hq) (State.ite_holds (State.sendDigests_holds _ _ _ (State.upInLink_holds _ _ _ _
        (State.sendCtrl_holds _ _ _ _ _ _ _ _ _ (State.w_holds _ _ _ _ _ (State.w_holds _ _ _ _ _ (State.ownWrite_holds _ _ _ _ _ hq)))))) (State.partFault_holds _ _
        (State.ownWrite_holds _ _ _ _ _ hq))))
    · exact hq
  · exact hq

theorem execLandingComplete_holds {p : Nat} (hq : s.Holds Q) : Res.Holds Q (execLandingComplete p s) := by
  unfold execLandingComplete
  refine res_ite (fault_holds _) (next_holds ?_)
  dsimp only
  split
  · refine State.ite_holds ?_ ?_
    · split
      · exact State.commitSlice_holds _ _ (State.landGroup_holds _ _ hq)
      · exact State.landGroup_holds _ _ hq
    · refine State.landDone_holds _ _ _ _ _ (fun _ h => State.pfActivate_holds _ _ _ (State.protLanding_holds _ _ _ h)) ?_
      split
      · exact State.commitSlice_holds _ _ (State.landGroup_holds _ _ hq)
      · exact State.landGroup_holds _ _ hq
  · exact State.landGroup_holds _ _ hq

/-! Rows of Machine/SwtRows. -/

theorem execSwtWrite_holds {f : SwtFrame} (hq : s.Holds Q) : Res.Holds Q (execSwtWrite f s) := by
  unfold execSwtWrite
  refine swtRow_holds _ _ _ _ hq (fun _ _ _ _ h => ?_)
  dsimp only
  split
  · exact State.dack_holds _ _ _ _ _ _ (State.peerRefuse_holds _ _ _ _ _ h)
  · split
    · exact State.ite_holds (State.askCopy_holds _ _ _ h) h
    · exact State.ite_holds (State.peerLines_holds _ _ _ _ _ _ _ h) (State.dack_holds _ _ _ _ _ _ (State.peerLines_holds _ _ _ _ _ _ _ h))

theorem execSwtRead_holds {f : SwtFrame} (hq : s.Holds Q) : Res.Holds Q (execSwtRead f s) := by
  refine swtRow_holds _ _ _ _ hq (fun s c q _ h => ?_)
  extract_lets x r
  have hr : r.1.Holds Q := State.answerRead_holds _ _ _ h
  clear_value r
  exact ite_ind (P := fun x : State × Bool => x.1.Holds Q) hr (State.inc_holds _ _ _ _ _ hr)

theorem execReadResp_holds {f : SwtFrame} (hq : s.Holds Q) : Res.Holds Q (execReadResp f s) := by
  unfold execReadResp
  refine swtRow_holds _ _ _ _ hq (fun _ _ _ _ h => ?_)
  split
  · exact State.ite_holds (State.dropPend_holds _ _ _ h) (State.foldl_holds _ _ (fun _ _ h1 => State.giveLine_holds _ _ _ _ _ h1) (State.dropPend_holds _ _ _ h))
  · exact h

theorem execSwtMsg_holds {f : SwtFrame} (hq : s.Holds Q) : Res.Holds Q (execSwtMsg f s) := by
  unfold execSwtMsg
  refine swtRow_holds _ _ _ _ hq (fun _ _ _ _ h => ?_)
  dsimp only
  split
  · exact State.ite_holds (State.sendPkt_holds _ _ _ _ _ _ _ h) (State.sendBan_holds _ _ _ _ (State.sendPkt_holds _ _ _ _ _ _ _ h))
  · exact State.dack_holds _ _ _ _ _ _ (State.ite_holds h (State.holdCredit_holds _ _ _ _ _ _ h))

theorem execDack_holds {f : SwtFrame} (hq : s.Holds Q) : Res.Holds Q (execDack f s) := by
  unfold execDack
  refine swtRow_holds _ _ _ _ hq (fun _ _ _ _ h => ?_)
  dsimp only
  split
  · exact State.stWindow_holds _ _ (State.upTile_holds _ _ _ (State.dropPend_holds _ _ _ h))
  · exact State.msgAcked_holds _ _ _ _ _ (State.dropPend_holds _ _ _ h)
  · exact h

theorem execCredit_holds {f : SwtFrame} (hq : s.Holds Q) : Res.Holds Q (execCredit f s) :=
  swtRow_holds _ _ _ _ hq (fun _ _ _ _ h => State.foldl_holds _ _ (fun _ _ h1 => State.ite_holds (State.ite_holds (State.w_holds _ _ _ _ _ h1) (State.creditIn_holds _ _ _
      _ h1)) h1) h)

theorem execLandPacket_holds {f : SwtFrame} (hq : s.Holds Q) : Res.Holds Q (execLandPacket f s) := by
  refine swtRow_holds _ _ _ _ hq (fun s c _ _ h => ?_)
  extract_lets p l bits d
  split
  · exact h
  · refine ite_ind (P := fun x : State × Bool => x.1.Holds Q) h (ite_ind (P := fun x : State × Bool => x.1.Holds Q) (State.event_holds _ _ _ _ (State.partFault_holds _ _ h)) ?_)
    split
    · exact ite_ind (P := fun x : State × Bool => x.1.Holds Q) (State.landGroup_holds _ _ (State.upLanding_holds _ _ _ _ h)) h
    · exact State.ite_holds (State.upLanding_holds _ _ _ _ h) h
    · exact State.ite_holds (State.upPart_holds _ _ _ h) h
    · exact h

theorem execColl_holds {f : SwtFrame} (hq : s.Holds Q) : Res.Holds Q (execColl f s) := by
  unfold execColl
  refine swtRow_holds _ _ _ _ hq (fun _ _ _ _ h => ?_)
  dsimp only
  split
  · split
    · exact State.legArrive_holds _ _ _ _ (State.linkBind_holds _ _ _ h)
    · exact State.linkBind_holds _ _ _ h
  · exact State.collArrive_holds _ _ _ h

theorem execRepair_holds {f : SwtFrame} (hq : s.Holds Q) : Res.Holds Q (execRepair f s) := by
  refine swtRow_holds _ _ _ _ hq (fun s c _ _ h => ?_)
  extract_lets s1 r
  have h1 : s1.Holds Q := State.linkBind_holds _ _ _ h
  have hr : r.1.Holds Q := by
    simp only [r]
    split
    · exact State.shadowLine_holds _ _ _ _ _ h1
    · exact h1
  clear_value r
  dsimp only
  split
  · exact State.peerSend_holds _ _ _ _ _ _ _ _ _ _ hr
  · exact State.peerSend_holds _ _ _ _ _ _ _ _ _ _ hr

theorem execRepairResp_holds {f : SwtFrame} (hq : s.Holds Q) : Res.Holds Q (execRepairResp f s) := by
  unfold execRepairResp
  refine swtRow_holds _ _ _ _ hq (fun _ _ _ _ h => State.ite_holds ?_ ?_)
  · split
    · exact State.dropPend_holds _ _ _ h
    · exact h
  · refine State.ite_holds ?_ ?_
    · refine State.servePeerReads_holds _ (State.repairLine_holds _ _ _ _ ?_)
      split
      · exact State.dropPend_holds _ _ _ h
      · exact h
    · refine State.servePeerReads_holds _ (State.repairFail_holds _ _ _ ?_)
      split
      · exact State.dropPend_holds _ _ _ h
      · exact h

theorem execSpRecord_holds {f : SwtFrame} (hq : s.Holds Q) : Res.Holds Q (execSpRecord f s) := by
  unfold execSpRecord
  refine swtRow_holds _ _ _ _ hq (fun _ _ _ _ h => ?_)
  dsimp only
  split
  · exact State.recordArrive_holds _ _ _ _ (State.linkBind_holds _ _ _ h)
  · exact State.linkBind_holds _ _ _ h

theorem execSpPage_holds {f : SwtFrame} (hq : s.Holds Q) : Res.Holds Q (execSpPage f s) := by
  unfold execSpPage
  refine swtRow_holds _ _ _ _ hq (fun _ _ _ _ h => ?_)
  dsimp only
  split
  · exact State.pageArrive_holds _ _ _ _ _ _ (State.linkBind_holds _ _ _ h)
  · exact State.linkBind_holds _ _ _ h

theorem execAck_holds {f : SwtFrame} (hq : s.Holds Q) : Res.Holds Q (execAck f s) := by
  unfold execAck
  have hc := State.swtCheck_holds s f hq
  refine res_ite (fault_holds _) (res_ite (next_holds hq) ?_)
  split
  · next e => rw [e] at hc; exact next_holds hc
  · next e => rw [e] at hc; exact next_holds (State.ackIn_holds _ _ _ _ _ _ _ (State.inc_holds _ _ _ _ _ hc))

theorem execAckTimer_holds {ctx cls : Nat} (hq : s.Holds Q) : Res.Holds Q (execAckTimer ctx cls s) := by
  unfold execAckTimer
  refine res_ite (fault_holds _) (next_holds ?_)
  split
  · exact State.ite_holds (State.sendAck_holds _ _ _ hq) hq
  · exact hq

theorem execRetransmitTimeout_holds {ctx : Nat} (hq : s.Holds Q) : Res.Holds Q (execRetransmitTimeout ctx s) := by
  unfold execRetransmitTimeout
  refine res_ite (fault_holds _) (next_holds ?_)
  split
  · exact State.ite_holds (State.foldl_holds _ _ (fun _ _ h => State.retransmit_holds _ _ _ _ h) hq) hq
  · exact hq

theorem execCreditPacketTimer_holds {ctx : Nat} (hq : s.Holds Q) : Res.Holds Q (execCreditPacketTimer ctx s) := by
  unfold execCreditPacketTimer
  refine res_ite (fault_holds _) (next_holds ?_)
  split
  · exact State.ite_holds hq (State.peerSend_holds _ _ _ _ _ _ _ _ _ _ (State.upPeer_holds _ _ _ hq))
  · exact hq

theorem execContextDownTimer_holds {ctx : Nat} (hq : s.Holds Q) : Res.Holds Q (execContextDownTimer ctx s) := by
  unfold execContextDownTimer
  refine res_ite (fault_holds _) (next_holds ?_)
  split
  · exact State.ite_holds (State.peerDown_holds _ _ _ hq) (State.ite_holds (State.peerDown_holds _ _ _ hq) hq)
  · exact hq

theorem execKeepaliveTimer_holds {ctx : Nat} (hq : s.Holds Q) : Res.Holds Q (execKeepaliveTimer ctx s) := by
  unfold execKeepaliveTimer
  refine res_ite (fault_holds _) (next_holds ?_)
  split
  · exact State.ite_holds (State.sendCtrl_holds _ _ _ _ _ _ _ _ _ hq) hq
  · exact hq

/-! Rows of Machine/HallClear. -/

theorem execFaultClear_holds {failed : List Nat} (hq : s.Holds Q) : Res.Holds Q (execFaultClear failed s) :=
  next_holds (State.ite_holds (State.w_holds _ _ _ _ _ hq) (State.w_holds _ _ _ _ _ (State.foldl_holds _ _ (fun _ _ h => State.ite_holds (State.w_holds _ _ _ _ _ h)
      (State.mssLog_holds _ _ _ _ (State.setFault_holds _ _ _ (State.clearHall_holds _ _ _ h)))) hq)))

/-! Rows of Machine/Roce. -/

theorem execRdmaRead_holds {k : RocePkt} (hq : s.Holds Q) : Res.Holds Q (execRdmaRead k s) := by
  unfold execRdmaRead
  have hc := State.roceCheck_holds s k true hq
  refine res_ite (fault_holds _) ?_
  extract_lets who run
  have hr : ∀ t q again, t.Holds Q → Res.Holds Q (run t q again) := fun t q again h => by
    simp only [run]
    have h1 : (t.regionCheck q k.rkey k.va k.len false).1.Holds Q := State.regionCheck_holds _ _ _ _ _ _ h
    generalize t.regionCheck q k.rkey k.va k.len false = r at h1
    refine res_ite (next_holds (State.roceNak_holds _ _ _ _ _ h1)) ?_
    have hd := fun who => State.regionRead_holds r.1 r.2.2.1 who k.va k.len h1
    split
    · exact next_holds (State.regionRead_holds _ _ _ _ _ hq)
    · exact next_holds (State.readResponses_holds _ _ _ _ _ (State.ite_holds (hd _) (State.upQp_holds _ _ _ (hd _))))
  split
  · next e => rw [e] at hc; exact next_holds hc
  · next e => rw [e] at hc; exact hr _ _ _ hc
  · next e => rw [e] at hc; exact hr _ _ _ hc

theorem execRoceNak_holds {n psn code : Nat} {rnr : Option Nat} {e : EthHead} (hq : s.Holds Q) : Res.Holds Q (execRoceNak n psn code rnr e s) := by
  refine reqRow_holds _ _ _ hq (fun s q h => ?_)
  extract_lets k s1
  have h1 : s1.Holds Q := State.upQp_holds _ _ _ (State.qpAcked_holds _ _ _ _ h)
  clear_value s1
  split
  · exact State.upQp_holds _ _ _ h1
  · exact State.ite_holds (State.qpRetry_holds _ _ h1) (State.qpError_holds _ _ _ h1)

theorem execLocalAckTimeout_holds {n : Nat} (hq : s.Holds Q) : Res.Holds Q (execLocalAckTimeout n s) := by
  unfold execLocalAckTimeout
  refine res_ite (fault_holds _) (next_holds ?_)
  split
  · exact State.ite_holds (State.qpRetry_holds _ _ hq) hq
  · exact hq

theorem execRnrRetryTimer_holds {n : Nat} (hq : s.Holds Q) : Res.Holds Q (execRnrRetryTimer n s) := by
  unfold execRnrRetryTimer
  refine res_ite (fault_holds _) (next_holds ?_)
  split
  · split
    · exact State.ite_holds hq (State.ite_holds (State.qpError_holds _ _ _ hq) (State.resend_holds _ _ (State.upQp_holds _ _ _ hq)))
    · exact hq
  · exact hq

/-! Rows of Machine/Ports. -/

theorem execDroppedFrame_holds {f : EthIn} {pause : Bool} {unc : Nat} (hq : s.Holds Q) : Res.Holds Q (execDroppedFrame f pause unc s) :=
  res_ite (fault_holds _) (next_holds (State.ite_holds hq (State.ite_holds (State.rxDrop_holds _ _ _ _ (State.macIn_holds _ _ _ (State.inc_holds _ _ _ _ _ hq)))
      (State.macIn_holds _ _ _ (State.inc_holds _ _ _ _ _ hq)))))

theorem execLinkUp_holds {x : Nat} (hq : s.Holds Q) : Res.Holds Q (execLinkUp x s) :=
  res_ite (fault_holds _) (next_holds (State.ite_holds hq (State.refreshLinks_holds _ (State.event_holds _ _ _ _ (State.w_holds _ _ _ _ _ (State.w_holds _ _ _ _ _
      (State.w_holds _ _ _ _ _ (State.w_holds _ _ _ _ _ (State.w_holds _ _ _ _ _ hq)))))))))

theorem execLinkDown_holds {x lfault rfault : Nat} (hq : s.Holds Q) : Res.Holds Q (execLinkDown x lfault rfault s) :=
  res_ite (fault_holds _) (next_holds (State.ite_holds hq (State.w_holds _ _ _ _ _ (State.w_holds _ _ _ _ _ (State.linkDrop_holds _ _ _ hq)))))

theorem execPfcFrame_holds {x enable : Nat} {times : List Nat} (hq : s.Holds Q) : Res.Holds Q (execPfcFrame x enable times s) :=
  res_ite (fault_holds _) (next_holds (State.ite_holds hq (State.resumeTx_holds _ _ (State.foldl_holds _ _ (fun _ _ h => h) (State.inc_holds _ _ _ _ _ (State.inc_holds _
      _ _ _ _ hq))))))

theorem execNeighbourDiscovery_holds {f : EthIn} {v6 own : Bool} {asker : Nat} (hq : s.Holds Q) : Res.Holds Q (execNeighbourDiscovery f v6 own asker s) :=
  res_ite (fault_holds _) (next_holds (State.ite_holds hq (State.ite_holds (State.macIn_holds _ _ _ hq) (State.ite_holds (State.sendFrame_holds _ _ _ _ (State.macIn_holds
      _ _ _ hq)) (State.rxDrop_holds _ _ _ _ (State.macIn_holds _ _ _ hq))))))

theorem execPtpEventMessage_holds {f : EthIn} {kind domain seq t : Nat} (hq : s.Holds Q) : Res.Holds Q (execPtpEventMessage f kind domain seq t s) := by
  unfold execPtpEventMessage
  refine res_ite (fault_holds _) (next_holds (State.ite_holds hq ?_))
  extract_lets m s1 p2p ports s2 s3
  have h1 : s1.Holds Q := State.macIn_holds _ _ _ hq
  have h2 : s2.Holds Q := h1
  have h3 : s3.Holds Q := State.ite_holds (State.ptpSteer_holds _ _ h2) h2
  clear_value s3 s2 s1
  refine State.ite_holds h1 (State.ite_holds (State.sendFrame_holds _ _ _ _ (State.sendFrame_holds _ _ _ _ h1)) (State.ite_holds h1 ?_))
  split
  · exact State.sendFrame_holds _ _ _ _ h3
  · split
    · exact State.ite_holds h1 (State.ptpSteer_holds _ _ h1)
    · exact h1
  · split
    · exact State.ite_holds h1 h1
    · exact h1
  · exact h1

/-! Rows of Machine/Registers. -/

theorem execRegRead_holds {a : Nat} (hq : s.Holds Q) : Res.Holds Q (execRegRead a s) := by
  unfold execRegRead
  split
  · exact next_holds hq
  · split
    · exact next_holds (State.emit_holds _ _ (State.ctlRead_holds _ _ hq))
    · exact next_holds (State.emit_holds _ _ hq)

theorem execRegWrite_holds {a v : Nat} (hq : s.Holds Q) : Res.Holds Q (execRegWrite a v s) := by
  unfold execRegWrite
  split
  · exact next_holds hq
  · split
    · exact next_holds (State.emit_holds _ _ (State.ctlWrite_holds _ _ _ hq))
    · exact next_holds (State.emit_holds _ _ hq)

theorem execReadClear_holds {a : Nat} (hq : s.Holds Q) : Res.Holds Q (execReadClear a s) :=
  next_holds (State.ite_holds (State.emit_holds _ _ (State.ctlRead_holds _ _ hq)) (State.ctlRefuse_holds _ hq))

/-! Rows of Machine/Command. -/

theorem execTakePacket_holds (hq : s.Holds Q) : Res.Holds Q (execTakePacket s) := by
  unfold execTakePacket
  refine res_ite (next_holds hq) ?_
  split
  · exact next_holds hq
  next q _ =>
  extract_lets c r b ns ok n w all s1 h op ps fail
  have hr : r.1.Holds Q := State.ringSlots_holds _ _ _ _ hq
  have h1 : s1.Holds Q := State.upFoyer_holds _ _ (State.w_holds _ _ _ _ _ (State.ringSlots_holds _ _ _ _ hr))
  have hf : ∀ st, Res.Holds Q (fail st) := fun _ => next_holds (State.cmdDone_holds _ _ _ h1)
  refine res_ite (next_holds hq) (res_ite (hf _) ?_)
  split
  · exact hf _
  · exact res_ite (hf _) (res_ite (hf _) (res_ite (hf _) (next_holds (State.upFoyer_holds _ _ h1))))

/-! Rows of Machine/Flash. -/

theorem execFlashSequenceEnd_holds (hq : s.Holds Q) : Res.Holds Q (execFlashSequenceEnd s) := by
  unfold execFlashSequenceEnd
  refine next_holds ?_
  split
  · exact hq
  · exact State.ite_holds (State.upMss_holds _ _ (State.ite_holds (State.flashApply_holds _ _ hq) hq)) (State.ite_holds (State.upMss_holds _ _ (State.upMss_holds _ _
      (State.ite_holds (State.flashApply_holds _ _ hq) hq))) (State.flashThen_holds _ _ (State.upMss_holds _ _ (State.ite_holds (State.flashApply_holds _ _ hq) hq))))

/-! Rows of Machine/QueueCmds. -/

theorem State.regionAdd_holds {Q : List Instr} (s : State) (r : Region_) (hq : s.Holds Q) (x : Nat × State) (h : s.regionAdd r = some x) : x.2.Holds Q := by
  unfold State.regionAdd at h
  split at h
  · nomatch h
  · cases h; exact State.upFoyer_holds _ _ hq

theorem execQueueCreate_holds {h : CmdHdr} {queue logslots cring : Nat} (hq : s.Holds Q) : Res.Holds Q (execQueueCreate h queue logslots cring s) := by
  refine command_holds _ _ _ _ _ _ hq (fun s _ p h => ?_)
  refine out_ite (refuse_holds _ h) (out_ite (refuse_holds _ h) ?_)
  split
  · exact refuse_holds _ h
  · refine out_ite (refuse_holds _ h) ?_
    split
    · exact refuse_holds _ h
    · next e =>
      have ht := State.regionAdd_holds _ _ h _ e
      exact done_holds _ _ (State.upFoyer_holds _ _ (State.w_holds _ _ _ _ _ (State.wreg_holds _ _ _ _ _
        (State.foldl_holds _ _ (fun _ _ h => State.wreg_holds _ _ _ _ _ h) ht))))

theorem execQueueDestroy_holds {h : CmdHdr} {queue : Nat} (hq : s.Holds Q) : Res.Holds Q (execQueueDestroy h queue s) :=
  command_holds _ _ _ _ _ _ hq (fun _ _ _ h => out_ite (refuse_holds _ h) (done_holds _ _ (State.ite_holds (State.upFoyer_holds _ _ h) (State.destroyQueue_holds _ _
      (State.upFoyer_holds _ _ h)))))

theorem execQpCreate_holds {h : CmdHdr} {kind queue port gidx retry rnr mtu rqpn spsn rpsn rgid : Nat} (hq : s.Holds Q) :
    Res.Holds Q (execQpCreate h kind queue port gidx retry rnr mtu rqpn spsn rpsn rgid s) := by
  unfold execQpCreate
  refine command_holds _ _ _ _ _ _ hq (fun _ _ _ h => out_ite (refuse_holds _ h) ?_)
  split
  · exact refuse_holds _ h
  · refine out_ite (refuse_holds _ h) ?_
    split
    · exact refuse_holds _ h
    · exact done_holds _ _ (State.upFoyer_holds _ _ h)

theorem execQpDestroy_holds {h : CmdHdr} {qpn : Nat} (hq : s.Holds Q) : Res.Holds Q (execQpDestroy h qpn s) := by
  unfold execQpDestroy
  refine command_holds _ _ _ _ _ _ hq (fun _ _ _ h => ?_)
  split
  · exact refuse_holds _ h
  · exact out_ite (refuse_holds _ h) (done_holds _ _ (State.upFoyer_holds _ _ (State.qpStop_holds _ _ h)))

theorem execEvringSet_holds {h : CmdHdr} {hbuf logrec : Nat} (hq : s.Holds Q) : Res.Holds Q (execEvringSet h hbuf logrec s) := by
  unfold execEvringSet
  refine command_holds _ _ _ _ _ _ hq (fun _ _ _ h => out_ite (refuse_holds _ h) ?_)
  split
  · exact refuse_holds _ h
  · exact out_ite (refuse_holds _ h) (done_holds _ _ (State.wreg_holds _ _ _ _ _ (State.wreg_holds _ _ _ _ _ (State.wreg_holds _ _ _ _ _ h))))

theorem execEventMask_holds {h : CmdHdr} {mask : Nat} (hq : s.Holds Q) : Res.Holds Q (execEventMask h mask s) :=
  command_holds _ _ _ _ _ _ hq (fun _ _ _ h => done_holds _ _ (State.foldl_holds _ _ (fun _ _ h1 => State.wreg_holds _ _ _ _ _ h1) h))

theorem execRegionReg_holds {h : CmdHdr} {kind access tile base len : Nat} (hq : s.Holds Q) : Res.Holds Q (execRegionReg h kind access tile base len s) := by
  refine command_holds _ _ _ _ _ _ hq (fun s _ p h => ?_)
  extract_lets add
  have ha : ∀ r, CmdOut.Holds Q (add r) := fun r => by
    simp only [add]
    split
    · next e => exact done_holds _ _ (State.regionAdd_holds _ _ h _ e)
    · exact refuse_holds _ h
  have hr := fun st => refuse_holds (l := Q) (s := s) st h
  refine out_ite (hr _) ?_
  split
  · exact out_ite (hr _) (out_ite (hr _) (ha _))
  · exact out_ite (hr _) (out_ite (hr _) (ha _))
  · exact out_ite (hr _) (out_ite (hr _) (ha _))

theorem execRegionDereg_holds {h : CmdHdr} {rkey : Nat} (hq : s.Holds Q) : Res.Holds Q (execRegionDereg h rkey s) := by
  unfold execRegionDereg
  refine command_holds _ _ _ _ _ _ hq (fun _ _ _ h => ?_)
  split
  · exact out_ite (done_holds _ _ (State.upFoyer_holds _ _ h)) (refuse_holds _ h)
  · exact refuse_holds _ h

theorem execHostbufReg_holds {h : CmdHdr} {qpn rkey raddr len : Nat} (hq : s.Holds Q) : Res.Holds Q (execHostbufReg h qpn rkey raddr len s) := by
  unfold execHostbufReg
  refine command_holds _ _ _ _ _ _ hq (fun _ _ _ h => ?_)
  split
  · exact refuse_holds _ h
  · refine out_ite (refuse_holds _ h) ?_
    split
    · exact refuse_holds _ h
    · exact done_holds _ _ (State.drainDone_holds _ _ _ (State.upFoyer_holds _ _ h))

theorem execHostbufDereg_holds {h : CmdHdr} {hbuf : Nat} (hq : s.Holds Q) : Res.Holds Q (execHostbufDereg h hbuf s) := by
  unfold execHostbufDereg
  refine command_holds _ _ _ _ _ _ hq (fun _ _ _ h => ?_)
  split
  · exact out_ite (refuse_holds _ h) (out_ite (refuse_holds _ h) (done_holds _ _ (State.upFoyer_holds _ _ h)))
  · exact refuse_holds _ h

/-! Rows of Machine/Partition. -/

theorem execPartCreate_holds {h : CmdHdr} {adopt quota mask : Nat} (hq : s.Holds Q) : Res.Holds Q (execPartCreate h adopt quota mask s) := by
  unfold execPartCreate
  refine command_holds _ _ _ _ _ _ hq (fun _ _ _ h => out_ite (refuse_holds _ h) ?_)
  split
  · exact done_holds _ _ (State.partOn_holds _ _ _ _ _ h)
  · exact refuse_holds _ h
  · exact later_holds (State.upFoyer_holds _ _ h)

theorem execCreationAfterRelease_holds {p : Nat} (hq : s.Holds Q) : Res.Holds Q (execCreationAfterRelease p s) := by
  unfold execCreationAfterRelease
  refine res_ite (fault_holds _) (next_holds ?_)
  split
  · exact hq
  · split
    · exact hq
    · exact State.cmdDone_holds _ _ _ (State.partOn_holds _ _ _ _ _ (State.upFoyer_holds _ _ hq))
    · exact State.cmdDone_holds _ _ _ (State.upFoyer_holds _ _ hq)

theorem execPartKill_holds {h : CmdHdr} {capture cbase : Nat} (hq : s.Holds Q) : Res.Holds Q (execPartKill h capture cbase s) :=
  command_holds _ _ _ _ _ _ hq (fun _ _ _ h => out_ite (refuse_holds _ h) (later_holds (State.beginEnd_holds _ _ _ _ _ h)))

theorem execShareOffer_holds {h : CmdHdr} {share other : Nat} (hq : s.Holds Q) : Res.Holds Q (execShareOffer h share other s) := by
  unfold execShareOffer
  refine command_holds _ _ _ _ _ _ hq (fun _ _ _ h => out_ite (refuse_holds _ h) (out_ite (refuse_holds _ h) ?_))
  split
  · exact out_ite (refuse_holds _ h) (done_holds _ _ h)
  · exact done_holds _ _ h

theorem execPeergroupSet_holds {h : CmdHdr} {group : Nat} {ctxs : List Nat} (hq : s.Holds Q) : Res.Holds Q (execPeergroupSet h group ctxs s) :=
  command_holds _ _ _ _ _ _ hq (fun _ _ _ h => out_ite (refuse_holds _ h) (out_ite (refuse_holds _ h) (done_holds _ _ h)))

theorem execLandgroupSet_holds {h : CmdHdr} {mode flags rank size : Nat} {ctxs : List Nat} (hq : s.Holds Q) : Res.Holds Q (execLandgroupSet h mode flags rank size ctxs s) := by
  refine command_holds _ _ _ _ _ _ hq (fun s c p h => ?_)
  extract_lets used held shape bound s1 s2 s3
  have hr := fun st => refuse_holds (l := Q) (s := s) st h
  have h1 : s1.Holds Q := State.upPart_holds _ _ _ (State.w_holds _ _ _ _ _ h)
  have h2 : s2.Holds Q := State.wreg_holds _ _ _ _ _ h1
  have h3 : s3.Holds Q := State.ite_holds (State.wreg_holds _ _ _ _ _ (State.wreg_holds _ _ _ _ _ h2)) (State.ite_holds (State.wreg_holds _ _ _ _ _ h2) h2)
  exact out_ite (hr _) (out_ite (hr _) (out_ite (hr _) (out_ite (hr _) (done_holds _ _ h3))))

/-! Rows of Machine/Launch. -/

theorem execImageLoad_holds {h : CmdHdr} {src len : Nat} {img : Option Image} (hq : s.Holds Q) : Res.Holds Q (execImageLoad h src len img s) := by
  refine command_holds _ _ _ _ _ _ hq (fun s _ p h => ?_)
  refine out_ite (refuse_holds _ h) (out_ite (refuse_holds _ h) ?_)
  extract_lets a r
  have hr : r.1.Holds Q := State.readLines_holds _ _ _ h
  split
  · exact wait_holds
  · exact refuse_holds _ hr
  · refine out_ite (refuse_holds _ hr) (out_ite (refuse_holds _ hr) (out_ite (refuse_holds _ hr) ?_))
    refine done_holds _ _ (State.upPart_holds _ _ _ (State.foldl_holds _ _ (fun s x h => ?_) hr))
    extract_lets t s1 s2
    have h1 : s1.Holds Q := State.foldl_holds _ _ (fun _ _ h => State.writeWord_holds _ _ _ _ _ h) h
    have h2 : s2.Holds Q := State.upTile_holds _ _ _ (State.w_holds _ _ _ _ _ (State.w_holds _ _ _ _ _ h1))
    exact State.w_holds _ _ _ _ _ (State.w_holds _ _ _ _ _ (State.w_holds _ _ _ _ _ h2))

theorem execLaunch_holds {h : CmdHdr} (hq : s.Holds Q) : Res.Holds Q (execLaunch h s) := by
  refine command_holds _ _ _ _ _ _ hq (fun s _ p h => ?_)
  split
  · exact refuse_holds _ h
  refine out_ite (refuse_holds _ h) ?_
  split
  · exact refuse_holds _ h
  refine out_ite (refuse_holds _ h) ?_
  split
  · exact refuse_holds _ h
  · next t e =>
    have ht : t.Holds Q := State.imageOpens_holds _ _ _ h _ e
    exact later_holds (State.checkLaunch_holds _ _ (State.pfActivate_holds _ _ _ (State.upPart_holds _ _ _
      (State.foldl_holds _ _ (fun _ _ h => State.launchTile_holds _ _ _ h) (State.foldl_holds _ _ (fun _ _ h => State.loadRouter_holds _ _ _ h) ht)))))

/-! Rows of Machine/Reset. -/

theorem execWarmReset_holds {h : CmdHdr} (hq : s.Holds Q) : Res.Holds Q (execWarmReset h s) :=
  res_ite (fault_holds _) (res_ite (next_holds hq) (next_holds (State.ite_holds (State.warmReset_holds _ _ (State.cmdDone_holds _ _ _ (State.upFoyer_holds _ _ hq)))
      (State.cmdDone_holds _ _ _ (State.upFoyer_holds _ _ hq)))))

theorem execHallClearDone_holds {h words lines cells : Nat} (hq : s.Holds Q) : Res.Holds Q (execHallClearDone h words lines cells s) := by
  unfold execHallClearDone
  refine res_ite (fault_holds _) (next_holds ?_)
  split
  · exact hq
  · extract_lets qs busy ok s1 s2 x'
    have h1 : s1.Holds Q := State.w_holds _ _ _ _ _ (State.clearHall_holds _ _ _ hq)
    have h2 : s2.Holds Q := State.ite_holds h1 (State.markHall_holds _ _ _ _ h1)
    exact State.ite_holds hq (State.ite_holds (State.activateNow_holds _ (State.endRelease_holds _ _ h2)) (State.upFoyer_holds _ _ h2))

theorem execEndOfReset_holds {addr : Nat} (hq : s.Holds Q) : Res.Holds Q (execEndOfReset addr s) :=
  next_holds (State.ite_holds hq (State.w_holds _ _ _ _ _ (State.w_holds _ _ _ _ _ (State.w_holds _ _ _ _ _ (State.ite_holds (State.ite_holds hq hq) (State.w_holds _ _ _
      _ _ (State.ite_holds hq hq)))))))

theorem execBoot_holds {reached : Bool} {v1 v2 : Nat} {fails : List Nat} (hq : s.Holds Q) : Res.Holds Q (execBoot reached v1 v2 fails s) := by
  unfold execBoot
  refine res_ite (fault_holds _) (next_holds (State.ite_holds hq ?_))
  extract_lets warm e x s1 s2 t1
  have h1 : s1.Holds Q := State.ite_holds (State.holdupShow_holds _ _ hq) hq
  have h2 : s2.Holds Q := State.upMss_holds _ _ h1
  clear_value s2 x
  split
  · exact h2
  · extract_lets s3 s4 s5 w s6 s7 s8
    have h4 : s4.Holds Q := State.bootUnits_holds _ _ _ (State.upMss_holds _ _ h2)
    have h5 : s5.Holds Q := State.w_holds _ _ _ _ _ (State.w_holds _ _ _ _ _ (State.w_holds _ _ _ _ _ h4))
    have h6 : s6.Holds Q := h5
    have h8 : s8.Holds Q := State.bootUpdate_holds _ _ _ _ (State.mssLog_holds _ _ _ _ h6)
    exact State.ite_holds (State.throttleOn_holds _ h8) h8

/-! Rows of Machine/Pins. -/

theorem execPcapTick_holds (hq : s.Holds Q) : Res.Holds Q (execPcapTick s) := by
  refine next_holds (State.ite_holds hq ?_)
  extract_lets p cap c held new d ps above overMs s1 s2 s3 s4
  have h1 : s1.Holds Q := State.w_holds _ _ _ _ _ (State.w_holds _ _ _ _ _ hq)
  have h2 : s2.Holds Q := State.hwm_holds _ _ _ _ _ (State.w_holds _ _ _ _ _ (State.w_holds _ _ _ _ _ h1))
  have h3 : s3.Holds Q := State.upMss_holds _ _ h2
  have h4 : s4.Holds Q := State.ite_holds (State.mssLog_holds _ _ _ _ (State.w_holds _ _ _ _ _ h3)) h3
  refine State.foldl_holds _ _ (fun s h ht => ?_) h4
  have hs := State.showCapped_holds _ h (State.tceilStep_holds s h ht)
  exact State.ite_holds hs (State.w_holds _ _ _ _ _ hs)

theorem execThrottleAssert_holds (hq : s.Holds Q) : Res.Holds Q (execThrottleAssert s) :=
  next_holds (State.ite_holds hq (State.ite_holds (State.throttleOn_holds _ (State.w_holds _ _ _ _ _ hq)) (State.w_holds _ _ _ _ _ hq)))

theorem execThrottleRelease_holds (hq : s.Holds Q) : Res.Holds Q (execThrottleRelease s) := by
  refine next_holds (State.ite_holds hq (State.ite_holds (State.w_holds _ _ _ _ _ hq) ?_))
  have hf : ∀ {t : State}, t.Holds Q → State.Holds Q ((List.range numHalls).foldl (fun (s : State) (h : Nat) => s.w F.HALL_CLK_FLOOR h 0 0) t) :=
    State.foldl_holds _ _ (fun _ _ h => State.w_holds _ _ _ _ _ h)
  exact hf (State.w_holds _ _ _ _ _ hq)

theorem execThrottleReportTimer_holds (hq : s.Holds Q) : Res.Holds Q (execThrottleReportTimer s) := by
  unfold execThrottleReportTimer
  refine next_holds ?_
  split
  · exact State.ite_holds hq (State.event_holds _ _ _ _ hq)
  · exact hq

theorem execModPwrenAssert_holds (hq : s.Holds Q) : Res.Holds Q (execModPwrenAssert s) := by
  unfold execModPwrenAssert
  refine next_holds (State.ite_holds hq ?_)
  split
  · exact State.powerUp_holds _ hq
  · exact hq
  · exact hq

theorem execInputPowerApplied_holds (hq : s.Holds Q) : Res.Holds Q (execInputPowerApplied s) :=
  next_holds (State.ite_holds hq (State.ite_holds hq (State.ite_holds (State.powerUp_holds _ hq) hq)))

theorem execPpsEdge_holds (hq : s.Holds Q) : Res.Holds Q (execPpsEdge s) :=
  next_holds (State.ite_holds hq (State.ite_holds (State.inc_holds _ _ _ _ _ hq) (State.ite_holds hq (State.ite_holds (State.w_holds _ _ _ _ _ (State.ite_holds
      (State.w_holds _ _ _ _ _ (State.w_holds _ _ _ _ _ hq)) (State.w_holds _ _ _ _ _ hq))) (State.ite_holds (State.w_holds _ _ _ _ _ (State.w_holds _ _ _ _ _ hq))
      (State.w_holds _ _ _ _ _ hq))))))

theorem execThermTrip_holds {i : Nat} {reached : Bool} {v1 v2 : Nat} (hq : s.Holds Q) : Res.Holds Q (execThermTrip i reached v1 v2 s) := by
  unfold execThermTrip
  refine res_ite (fault_holds _) (next_holds (State.ite_holds hq ?_))
  extract_lets e s1 s2 s3 s4
  have h2 : s2.Holds Q := State.mssLog_holds _ _ _ _ (State.w_holds _ _ _ _ _ (State.flashFinish_holds _ hq))
  have h3 : s3.Holds Q := State.ite_holds (State.upMss_holds _ _ h2) h2
  have h4 : s4.powerDown.Holds Q := State.powerDown_holds _ (State.upMss_holds _ _ h3)
  exact h4

theorem execHardwareTrip_holds {i : Nat} (hq : s.Holds Q) : Res.Holds Q (execHardwareTrip i s) :=
  have hd : s.powerDown.Holds Q := State.powerDown_holds _ hq
  res_ite (fault_holds _) (next_holds (State.ite_holds hq hd))

/-! Rows of Machine/PageCmds. -/

theorem execPageMap_holds {h : CmdHdr} {page n rs : Nat} (hq : s.Holds Q) : Res.Holds Q (execPageMap h page n rs s) := by
  refine command_holds _ _ _ _ _ _ hq (fun s c p h => ?_)
  extract_lets es quota held
  have hr := fun st => refuse_holds (l := Q) (s := s) st h
  refine out_ite (hr _) (out_ite (hr _) (out_ite (hr _) ?_))
  split
  · exact hr _
  · extract_lets s1 u r
    have h1 : s1.Holds Q := State.foldl_holds _ _ (fun _ _ h => State.clearFrame_holds _ _ h) h
    have hu : r.2.Holds Q := by
      simp only [r]
      split
      · exact State.undef_holds _ h1
      · exact h1
    exact out_ite (done_holds _ _ hu) (later_holds hu)

theorem execPageFree_holds {h : CmdHdr} {page n all : Nat} (hq : s.Holds Q) : Res.Holds Q (execPageFree h page n all s) := by
  unfold execPageFree
  refine command_holds _ _ _ _ _ _ hq (fun _ _ _ h => out_ite (refuse_holds _ h) (out_ite (refuse_holds _ h) ?_))
  split
  · exact refuse_holds _ h
  · exact out_ite (refuse_holds _ h) (out_ite (refuse_holds _ h) (out_ite (out_ite (done_holds _ _ h) (later_holds h)) (out_ite (done_holds _ _ h) (later_holds h))))

theorem execPageAttr_holds {h : CmdHdr} {page n rs : Nat} (hq : s.Holds Q) : Res.Holds Q (execPageAttr h page n rs s) :=
  command_holds _ _ _ _ _ _ hq (fun _ _ _ h => out_ite (refuse_holds _ h) (out_ite (refuse_holds _ h) (out_ite wait_holds (out_ite (done_holds _ _ h) (later_holds h)))))

theorem execPrefetchSet_holds {h : CmdHdr} {nent period ahead sbase : Nat} (hq : s.Holds Q) : Res.Holds Q (execPrefetchSet h nent period ahead sbase s) := by
  refine command_holds _ _ _ _ _ _ hq (fun s _ p h => ?_)
  refine out_ite (refuse_holds _ h) (out_ite (refuse_holds _ h) ?_)
  extract_lets r
  have hr : r.1.Holds Q := State.readLines_holds _ _ _ h
  clear_value r
  split
  · exact wait_holds
  · refine out_ite (refuse_holds _ hr) (done_holds _ _ (State.pfShow_holds _ _ (State.upPf_holds _ _ _ ?_)))
    exact State.w_holds _ _ _ _ _ (State.w_holds _ _ _ _ _ (State.w_holds _ _ _ _ _ (State.w_holds _ _ _ _ _
      (State.foldl_holds _ _ (fun _ _ h => State.upHall_holds _ _ _ h) hr))))

theorem execCopypoolSet_holds {h : CmdHdr} {frames : Nat} (hq : s.Holds Q) : Res.Holds Q (execCopypoolSet h frames s) := by
  refine command_holds _ _ _ _ _ _ hq (fun s _ p h => ?_)
  dsimp only
  split
  · exact refuse_holds _ h
  · exact done_holds _ _ h

theorem execOutputSet_holds {h : CmdHdr} {hbuf obase olen : Nat} (hq : s.Holds Q) : Res.Holds Q (execOutputSet h hbuf obase olen s) := by
  unfold execOutputSet
  refine command_holds _ _ _ _ _ _ hq (fun _ _ _ h => ?_)
  split
  · exact refuse_holds _ h
  · exact out_ite (refuse_holds _ h) (out_ite (refuse_holds _ h) (done_holds _ _ h))

theorem execOutputLineCopy_holds {p : Nat} (hq : s.Holds Q) : Res.Holds Q (execOutputLineCopy p s) := by
  unfold execOutputLineCopy
  refine res_ite (fault_holds _) (next_holds ?_)
  split
  · exact hq
  split
  · exact hq
  extract_lets h r
  have hr : r.1.Holds Q := ite_ind (P := fun x : State × Option LineVal => x.1.Holds Q) (State.holdRead_holds _ _ _ _ _ hq) (State.readLine_holds _ _ hq)
  clear_value r
  split
  · exact hr
  · exact State.ite_holds hr (State.hostOp_holds _ _ _ _ _ hr)

/-! Rows of Machine/PeerCmds. -/

theorem execPeerAdd_holds {h : CmdHdr} {ctx rport rctx pmax enc spray raddr : Nat} (hq : s.Holds Q) : Res.Holds Q (execPeerAdd h ctx rport rctx pmax enc spray raddr s) :=
  command_holds _ _ _ _ _ _ hq (fun _ _ _ h => out_ite (refuse_holds _ h) (out_ite (refuse_holds _ h) (out_ite (refuse_holds _ h) (done_holds _ _ h))))

theorem execPeerRemove_holds {h : CmdHdr} {ctx : Nat} (hq : s.Holds Q) : Res.Holds Q (execPeerRemove h ctx s) :=
  command_holds _ _ _ _ _ _ hq (fun _ _ _ h => out_ite (refuse_holds _ h) (done_holds _ _ (State.peerDown_holds _ _ _ h)))

theorem execPeerKeyWrite_holds {h : CmdHdr} {ctx slot dir salt key : Nat} (hq : s.Holds Q) : Res.Holds Q (execPeerKeyWrite h ctx slot dir salt key s) :=
  command_holds _ _ _ _ _ _ hq (fun _ _ _ h => out_ite (refuse_holds _ h) (done_holds _ _ (State.peerPump_holds _ _ _ (State.setKey_holds _ _ _ _ _ h))))

theorem execPeerKeySend_holds {h : CmdHdr} {ctx slot dir salt key : Nat} (hq : s.Holds Q) : Res.Holds Q (execPeerKeySend h ctx slot dir salt key s) :=
  command_holds _ _ _ _ _ _ hq (fun _ _ _ h => out_ite (refuse_holds _ h) (out_ite (refuse_holds _ h) (done_holds _ _ (State.peerPump_holds _ _ _ (State.upPeer_holds _ _
      _ h)))))

theorem execPeerKeyRetire_holds {h : CmdHdr} {ctx slot dir salt key : Nat} (hq : s.Holds Q) : Res.Holds Q (execPeerKeyRetire h ctx slot dir salt key s) :=
  command_holds _ _ _ _ _ _ hq (fun _ _ _ h => out_ite (refuse_holds _ h) (done_holds _ _ (State.setKey_holds _ _ _ _ _ h)))

theorem execCollGroup_holds {h : CmdHdr} {rank size node prev next : Nat} {ctxs : List Nat} (hq : s.Holds Q) : Res.Holds Q (execCollGroup h rank size node prev next ctxs s) :=
  command_holds _ _ _ _ _ _ hq (fun _ _ _ h => out_ite (refuse_holds _ h) (out_ite (refuse_holds _ h) (done_holds _ _ (State.w_holds _ _ _ _ _ (State.w_holds _ _ _ _ _
      (State.w_holds _ _ _ _ _ (State.w_holds _ _ _ _ _ (State.foldl_holds _ _ (fun _ _ h1 => State.w_holds _ _ _ _ _ (State.w_holds _ _ _ _ _ h1)) (State.w_holds _ _ _ _ _
      (State.w_holds _ _ _ _ _ (State.w_holds _ _ _ _ _ h)))))))))))

theorem execPlanSet_holds {h : CmdHdr} {nbuck btab cbase climit rbase rhalf : Nat} (hq : s.Holds Q) : Res.Holds Q (execPlanSet h nbuck btab cbase climit rbase rhalf s) := by
  refine command_holds _ _ _ _ _ _ hq (fun s _ p h => ?_)
  have hr := fun st => refuse_holds (l := Q) (s := s) st h
  refine out_ite (hr _) (out_ite (hr _) (out_ite (hr _) (out_ite (hr _) ?_)))
  extract_lets r s1 s2 s3
  have h1 : s1.Holds Q := State.readLines_holds _ _ _ h
  have h2 : s2.Holds Q := State.w_holds _ _ _ _ _ (State.w_holds _ _ _ _ _ (State.w_holds _ _ _ _ _ h1))
  have h3 : s3.Holds Q := State.w_holds _ _ _ _ _ (State.w_holds _ _ _ _ _ (State.w_holds _ _ _ _ _ (State.w_holds _ _ _ _ _ h2)))
  clear_value s3
  split
  · exact wait_holds
  · exact out_ite (refuse_holds _ h1) (done_holds _ _ (State.collPost_holds _ _ (State.upColl_holds _ _ _ (State.w_holds _ _ _ _ _ h3))))

theorem execShardReg_holds {h : CmdHdr} {shard group fmt epoch step elems slot0 slot1 : Nat} (hq : s.Holds Q) : Res.Holds Q (execShardReg h shard group fmt epoch step elems slot0 slot1 s) :=
  command_holds _ _ _ _ _ _ hq (fun _ _ _ h => out_ite (refuse_holds _ h) (out_ite (refuse_holds _ h) (out_ite (refuse_holds _ h) (done_holds _ _ (State.upColl_holds _ _
      _ h)))))

theorem execShardDereg_holds {h : CmdHdr} {shard : Nat} (hq : s.Holds Q) : Res.Holds Q (execShardDereg h shard s) :=
  command_holds _ _ _ _ _ _ hq (fun _ _ _ h => out_ite (refuse_holds _ h) (out_ite (refuse_holds _ h) (done_holds _ _ (State.upColl_holds _ _ _ h))))

/-! Rows of Machine/ProtCmds. -/

theorem execTensorReg_holds {h : CmdHdr} {entries : List Nat} (hq : s.Holds Q) : Res.Holds Q (execTensorReg h entries s) :=
  command_holds _ _ _ _ _ _ hq (fun _ _ _ h => out_ite (refuse_holds _ h) (out_ite (refuse_holds _ h) (out_ite (refuse_holds _ h) (done_holds _ _ (State.upProt_holds _ _
      _ h)))))

theorem execTensorSet_holds {h : CmdHdr} {index force rate : Nat} (hq : s.Holds Q) : Res.Holds Q (execTensorSet h index force rate s) :=
  command_holds _ _ _ _ _ _ hq (fun _ _ _ h => out_ite (refuse_holds _ h) (out_ite (refuse_holds _ h) (done_holds _ _ (State.upTensor_holds _ _ _ _ h))))

theorem execLinkOut_holds {h : CmdHdr} {ctx : Nat} (hq : s.Holds Q) : Res.Holds Q (execLinkOut h ctx s) :=
  command_holds _ _ _ _ _ _ hq (fun _ _ _ h => out_ite (refuse_holds _ h) (out_ite (refuse_holds _ h) (done_holds _ _ (State.w_holds _ _ _ _ _ (State.w_holds _ _ _ _ _
      (State.w_holds _ _ _ _ _ (State.w_holds _ _ _ _ _ (State.w_holds _ _ _ _ _ (State.ite_holds (State.linkLose_holds _ _ h) h)))))))))

theorem execLinkIn_holds {h : CmdHdr} {link lsteps ntile shpage shn naddr lbase done : Nat} (hq : s.Holds Q) : Res.Holds Q (execLinkIn h link lsteps ntile shpage shn naddr lbase done s) :=
  command_holds _ _ _ _ _ _ hq (fun _ _ _ h => out_ite (refuse_holds _ h) (out_ite (refuse_holds _ h) (out_ite (refuse_holds _ h) (done_holds _ _ (State.upProt_holds _ _
      _ (State.w_holds _ _ _ _ _ (State.w_holds _ _ _ _ _ (State.w_holds _ _ _ _ _ (State.w_holds _ _ _ _ _ (State.w_holds _ _ _ _ _ (State.w_holds _ _ _ _ _
      (State.clearIn_holds _ _ _ h))))))))))))

theorem execLinkRemove_holds {h : CmdHdr} {link : Nat} (hq : s.Holds Q) : Res.Holds Q (execLinkRemove h link s) :=
  command_holds _ _ _ _ _ _ hq (fun _ _ _ h => out_ite (refuse_holds _ h) (out_ite (out_ite (refuse_holds _ h) (done_holds _ _ (State.w_holds _ _ _ _ _ (State.w_holds _ _
      _ _ _ (State.w_holds _ _ _ _ _ (State.w_holds _ _ _ _ _ (State.ite_holds (State.linkLose_holds _ _ h) h))))))) (out_ite (refuse_holds _ h) (done_holds _ _
      (State.upProt_holds _ _ _ (State.clearIn_holds _ _ _ h))))))

theorem execSnapbufSet_holds {h : CmdHdr} {hbufA hbufB : Nat} (hq : s.Holds Q) : Res.Holds Q (execSnapbufSet h hbufA hbufB s) :=
  command_holds _ _ _ _ _ _ hq (fun _ _ _ h => out_ite (refuse_holds _ h) (done_holds _ _ (State.upProt_holds _ _ _ h)))

theorem execRestoreShadow_holds {h : CmdHdr} {first count ctx : Nat} (hq : s.Holds Q) : Res.Holds Q (execRestoreShadow h first count ctx s) :=
  command_holds _ _ _ _ _ _ hq (fun _ _ _ h => out_ite (refuse_holds _ h) (out_ite (refuse_holds _ h) (later_holds (State.upProt_holds _ _ _ h))))

theorem execRestoreSnap_holds {h : CmdHdr} {buf : Nat} (hq : s.Holds Q) : Res.Holds Q (execRestoreSnap h buf s) := by
  refine command_holds _ _ _ _ _ _ hq (fun s _ p h => ?_)
  have hr := fun st => refuse_holds (l := Q) (s := s) st h
  refine out_ite (hr _) ?_
  split
  · exact hr _
  extract_lets hb
  split
  · exact hr _
  · exact out_ite (hr _) (out_ite (hr _) (out_ite (hr _) (later_holds (State.restoreRead_holds _ _ _ _ _ (State.upProt_holds _ _ _ h)))))

/-! Rows of Machine/Queries. -/

theorem execTelemRead_holds {h : CmdHdr} {kind id hbuf off : Nat} (hq : s.Holds Q) : Res.Holds Q (execTelemRead h kind id hbuf off s) := by
  unfold execTelemRead
  refine command_holds _ _ _ _ _ _ hq (fun _ _ _ h => ?_)
  split
  · split
    · exact hostReply_holds _ _ _ _ _ h
    · exact refuse_holds _ h
  · split
    · exact hostReply_holds _ _ _ _ _ h
    · exact refuse_holds _ h
  · exact hostReply_holds _ _ _ _ _ h
  · exact refuse_holds _ h

theorem execEvlogRead_holds {h : CmdHdr} {from_ count hbuf off : Nat} (hq : s.Holds Q) : Res.Holds Q (execEvlogRead h from_ count hbuf off s) :=
  command_holds _ _ _ _ _ _ hq (fun _ _ _ h => out_ite (refuse_holds _ h) (hostReply_holds _ _ _ _ _ h))

theorem execFwUpdate_holds {h : CmdHdr} {hbuf len : Nat} (hq : s.Holds Q) : Res.Holds Q (execFwUpdate h hbuf len s) := by
  unfold execFwUpdate
  refine command_holds _ _ _ _ _ _ hq (fun _ _ _ h => ?_)
  split
  · exact refuse_holds _ h
  · exact out_ite (refuse_holds _ h) (out_ite (refuse_holds _ h) (out_ite (refuse_holds _ h) (later_holds (State.hostOp_holds _ _ _ _ _ (State.updateStart_holds _ _ _
      h)))))

theorem execReadResponse_holds {n psn : Nat} {data : List Nat} {e : EthHead} (hq : s.Holds Q) : Res.Holds Q (execReadResponse n psn data e s) := by
  unfold execReadResponse
  refine reqRow_holds _ _ _ hq (fun _ _ h => ?_)
  dsimp only
  split
  · refine State.ite_holds (State.qpAcked_holds _ _ _ _ h) ?_
    split
    · exact State.restoreData_holds _ _ _ _ (State.upQp_holds _ _ _ (State.qpAcked_holds _ _ _ _ h))
    · exact State.updateData_holds _ _ (State.upQp_holds _ _ _ (State.qpAcked_holds _ _ _ _ h))
    · exact State.opDone_holds _ _ (State.upQp_holds _ _ _ (State.qpAcked_holds _ _ _ _ h))
  · exact State.qpAcked_holds _ _ _ _ h

/-! Rows of Machine/Mctp. -/

theorem execRequestFirmwareData_holds {cc : Nat} {data : List Nat} (hq : s.Holds Q) : Res.Holds Q (execRequestFirmwareData cc data s) := by
  unfold execRequestFirmwareData
  split
  · exact next_holds (State.pldmData_holds _ _ _ hq)
  · exact next_holds hq

theorem execMctpPass_holds {h : CmdHdr} {hbuf off : Nat} {msg : List Nat} (hq : s.Holds Q) : Res.Holds Q (execMctpPass h hbuf off msg s) := by
  refine command_holds _ _ _ _ _ _ hq (fun s c p h => ?_)
  split
  · exact refuse_holds _ h
  · next r e =>
    have hr : r.1.Holds Q := State.inBand_holds _ _ h _ e
    refine out_ite (done_holds _ _ hr) ?_
    have ho := hostReply_holds { c with result := [(r.2.length, 2)] } 8 hbuf off r.2 hr
    split
    · exact done_holds _ _ h
    · exact ho

/-! Rows of Machine/Scrub. -/

theorem execScrubRead_holds {n : Nat} (hq : s.Holds Q) : Res.Holds Q (execScrubRead n s) :=
  onTile_holds _ _ (State.ite_holds (State.upTile_holds _ _ _ (State.ite_holds (State.foldl_holds _ _ (fun _ _ h => State.writeCorrection_holds _ _ _
      (State.readWord_holds _ _ _ _ _ h)) hq) hq)) (State.upTile_holds _ _ _ (State.w_holds _ _ _ _ _ (State.inc_holds _ _ _ _ _ (State.ite_holds (State.foldl_holds _ _ (fun
      _ _ h => State.writeCorrection_holds _ _ _ (State.readWord_holds _ _ _ _ _ h)) hq) hq)))))

theorem execGalleryScrubRead_holds {h k : Nat} (hq : s.Holds Q) : Res.Holds Q (execGalleryScrubRead h k s) := by
  unfold execGalleryScrubRead
  refine res_ite (fault_holds _) (next_holds ?_)
  extract_lets l key r s1 f
  have hr : r.1.Holds Q := State.readSlot_holds _ _ _ _ hq
  have h1 : s1.Holds Q := by
    simp only [s1]
    split
    · refine State.ite_holds ?_ hq
      split
      · exact hr
      · have hf := fun f a => State.readFrame_holds r.1 f a (some h) false hr
        split
        · exact State.upSlot_holds _ _ _ _ (hf _ _)
        · exact hf _ _
    · exact hq
  clear_value s1
  refine State.ite_holds (State.upHall_holds _ _ _ h1) (State.upHall_holds _ _ _ ?_)
  exact State.w_holds _ _ _ _ _ (State.inc_holds _ _ _ _ _ h1)

/-! Rows of Machine/Sync. -/

theorem execWaitLand_holds {n c : Nat} (hq : s.Holds Q) : Res.Holds Q (execWaitLand n c s) :=
  plainRow_holds (fun _ _ h => State.ite_holds (State.tileFault_holds _ _ _ _ _ _ _ h) (State.ite_holds h (State.setWait_holds _ _ _ _ h))) hq

theorem execFenceDone_holds {n c : Nat} (hq : s.Holds Q) : Res.Holds Q (execFenceDone n c s) := by
  unfold execFenceDone
  refine onTile_holds _ _ ?_
  split
  · exact State.ite_holds (State.setWait_holds _ _ _ _ hq) hq
  · exact hq

theorem execTileArrival_holds {n : Nat} (hq : s.Holds Q) : Res.Holds Q (execTileArrival n s) := by
  unfold execTileArrival
  refine onTile_holds _ _ ?_
  split
  · have ha : ∀ k p, State.Holds Q ((s.inc F.XC_LAND_WAIT_COUNT n 0 k).arrive n p) := fun _ _ => State.arrive_holds _ _ _ (State.inc_holds _ _ _ _ _ hq)
    refine State.ite_holds hq (State.ite_holds (State.checkEnd_holds _ _ (State.landGroup_holds _ _ (State.setWait_holds _ _ _ _ hq))) (State.ite_holds hq ?_))
    exact State.landGroup_holds _ _ (State.ite_holds (State.setWait_holds _ _ _ _ (ha _ _)) (State.setSreg_holds _ _ _ _ _ (State.setWait_holds _ _ _ _ (ha _ _))))
  · exact hq

theorem execSegOn_holds {n c : Nat} (hq : s.Holds Q) : Res.Holds Q (execSegOn n c s) :=
  plainRow_holds (fun _ _ h => State.ite_holds h (State.setWait_holds _ _ _ _ (State.w_holds _ _ _ _ _ h))) hq

theorem execSegmentClearDone_holds {n k : Nat} (hq : s.Holds Q) : Res.Holds Q (execSegmentClearDone n k s) := by
  unfold execSegmentClearDone
  refine onTile_holds _ _ (State.ite_holds hq ?_)
  dsimp only
  split
  · exact State.ite_holds (State.setWait_holds _ _ _ _ (State.upTile_holds _ _ _ (State.w_holds _ _ _ _ _ (State.w_holds _ _ _ _ _ hq)))) (State.upTile_holds _ _ _
      (State.w_holds _ _ _ _ _ (State.w_holds _ _ _ _ _ hq)))
  · exact State.upTile_holds _ _ _ (State.w_holds _ _ _ _ _ (State.w_holds _ _ _ _ _ hq))

theorem execSegmentPowerDown_holds {n : Nat} (hq : s.Holds Q) : Res.Holds Q (execSegmentPowerDown n s) := by
  unfold execSegmentPowerDown
  refine onTile_holds _ _ ?_
  split
  · exact State.ite_holds hq (State.ite_holds (State.foldl_holds _ _ (fun _ _ h => State.alcShut_holds _ _ _ h) hq) (State.setWait_holds _ _ _ _ (State.upTile_holds _ _ _
      (State.w_holds _ _ _ _ _ (State.foldl_holds _ _ (fun _ _ h => State.alcShut_holds _ _ _ h) hq)))))
  · exact hq

theorem execDispatchAfterStall_holds {n c : Nat} (hq : s.Holds Q) : Res.Holds Q (execDispatchAfterStall n c s) := by
  unfold execDispatchAfterStall
  refine onTile_holds _ _ ?_
  split
  · exact State.ite_holds hq (State.perform_holds _ _ _ _ _ (fun _ h => State.redispatch_holds _ _ _ _ h) (State.setWait_holds _ _ _ _ (State.inc_holds _ _ _ _ _ hq)))
  · exact hq

theorem execFetchLineFill_holds {n k : Nat} (hq : s.Holds Q) : Res.Holds Q (execFetchLineFill n k s) :=
  onTile_holds _ _ (State.ite_holds hq (State.foldl_holds _ _ (fun _ _ h => State.ite_holds (State.setWait_holds _ _ _ _ h) h) (State.upTile_holds _ _ _
      (State.readWords_holds _ _ _ _ _ hq))))

/-! Rows of Machine/SyncPins. -/

theorem execSyncPulse_holds {pin : Nat} (hq : s.Holds Q) : Res.Holds Q (execSyncPulse pin s) :=
  res_ite (fault_holds _) (next_holds (State.ite_holds hq (State.ite_holds (State.event_holds _ _ _ _ (State.partFault_holds _ _ (State.w_holds _ _ _ _ _ hq)))
      (State.landGroup_holds _ _ (State.w_holds _ _ _ _ _ hq)))))

theorem execStuckSync_holds {pin : Nat} (hq : s.Holds Q) : Res.Holds Q (execStuckSync pin s) :=
  res_ite (fault_holds _) (next_holds (State.ite_holds (State.event_holds _ _ _ _ (State.w_holds _ _ _ _ _ hq)) hq))

/-- No row changes the queue behind it, and every row keeps frame memory canonical. -/
theorem exec_holds (i : Instr) (hq : s.Holds Q) : Res.Holds Q (exec i s) := by
  unfold exec
  cases i with
  | illegal | nop => exact plainRow_holds (fun _ _ h => h) hq
  | alu | alui | li | muldiv => exact plainRow_holds (fun _ _ h => State.setSreg_holds _ _ _ _ _ h) hq
  | cmp | cmpi | plog => exact plainRow_holds (fun _ _ h => State.setPred_holds _ _ _ _ _ h) hq
  | ldh => exact execLdh_holds hq
  | sth => exact execSth_holds hq
  | lde => exact execLde_holds hq
  | ste => exact execSte_holds hq
  | mfs => exact execMfs_holds hq
  | mts => exact execMts_holds hq
  | setvl => exact plainRow_holds (fun _ _ h => State.setSreg_holds _ _ _ _ _ (State.setVl_holds _ _ _ _ h)) hq
  | br | jr => exact plainRow_holds (fun _ _ h => State.setPc_holds _ _ _ _ h) hq
  | call | callr => exact plainRow_holds (fun _ _ h => State.setPc_holds _ _ _ _ (State.setSreg_holds _ _ _ _ _ h)) hq
  | loop => exact execLoop_holds hq
  | mx | vx | st => exact plainRow_holds (fun _ _ h => State.dispatch_holds _ _ _ _ _ h) hq
  | xc => exact plainRow_holds (fun _ _ h => State.xcRecvCheck_holds _ _ (State.dispatch_holds _ _ _ _ _ h)) hq
  | send | openOut | openIn | closeOut | closeIn => exact plainRow_holds (fun _ _ h => State.msgIssue_holds _ _ _ _ h) hq
  | alcOpen => exact plainRow_holds (fun _ _ h => State.alcOpenIssue_holds _ _ _ _ h) hq
  | alcClose => exact plainRow_holds (fun _ _ h => State.alcCloseIssue_holds _ _ _ _ h) hq
  | land | landOpen => exact plainRow_holds (fun _ _ h => State.landIssue_holds _ _ _ _ _ h) hq
  | waitLand => exact execWaitLand_holds hq
  | fence | segOff => exact plainRow_holds (fun _ _ h => State.ite_holds h (State.setWait_holds _ _ _ _ h)) hq
  | halt => exact plainRow_holds (fun _ _ h => State.setWait_holds _ _ _ _ h) hq
  | hret => exact execHret_holds hq
  | segOn => exact execSegOn_holds hq
  | dispatchAfterStall => exact execDispatchAfterStall_holds hq
  | fetchLineFill => exact execFetchLineFill_holds hq
  | tileArrival => exact execTileArrival_holds hq
  | fenceDone => exact execFenceDone_holds hq
  | segmentClearDone => exact execSegmentClearDone_holds hq
  | segmentPowerDown => exact execSegmentPowerDown_holds hq
  | alcoveCloseRetire => exact execAlcoveCloseRetire_holds hq
  | closeOutRetire => exact execCloseOutRetire_holds hq
  | closeInRetire => exact execCloseInRetire_holds hq
  | handlerEntry => exact execHandlerEntry_holds hq
  | mxStart => exact execMxStart_holds hq
  | mxKstep => exact execMxKstep_holds hq
  | mxDrainEnd => exact execMxDrainEnd_holds hq
  | vxStart => exact execVxStart_holds hq
  | vxDone => exact execVxDone_holds hq
  | stStart => exact execStStart_holds hq
  | stWordGroupArrival => exact execStWordGroupArrival_holds hq
  | stWriteAck => exact execStWriteAck_holds hq
  | xcStart => exact execXcStart_holds hq
  | xcEntrySend => exact execXcEntrySend_holds hq
  | exchangeDelivery => exact execExchangeDelivery_holds hq
  | xcAck => exact execXcAck_holds hq
  | multicastRoot => exact execMulticastRoot_holds hq
  | reductionContribution => exact execReductionContribution_holds hq
  | meshPacket => exact execMeshPacket_holds hq
  | messageSend => exact execMessageSend_holds hq
  | messageArrival => exact execMessageArrival_holds hq
  | wrapMarker => exact execWrapMarker_holds hq
  | doorbell => exact execDoorbell_holds hq
  | messageLastWord => exact execMessageLastWord_holds hq
  | messageAck => exact execMessageAck_holds hq
  | creditReturn => exact execCreditReturn_holds hq
  | openingGrant => exact execOpeningGrant_holds hq
  | heldDeliveryResume => exact execHeldDeliveryResume_holds hq
  | spill => exact execSpill_holds hq
  | spillCopyDone => exact execSpillCopyDone_holds hq
  | spillReadback => exact execSpillReadback_holds hq
  | correctionWriteBack => exact onTile_holds _ _ (State.writeCorrection_holds _ _ _ hq)
  | scrubRead => exact execScrubRead_holds hq
  | scrubForced => exact onTile_holds _ _ (State.ite_holds hq (State.w_holds _ _ _ _ _ hq))
  | galleryScrubRead => exact execGalleryScrubRead_holds hq
  | galleryScrubForced => exact res_ite (fault_holds _) (next_holds (State.ite_holds hq (State.w_holds _ _ _ _ _ hq)))
  | hallClearDone => exact execHallClearDone_holds hq
  | creationAfterRelease => exact execCreationAfterRelease_holds hq
  | landingComplete => exact execLandingComplete_holds hq
  | landingTimeout => exact execLandingTimeout_holds hq
  | syncPulse => exact execSyncPulse_holds hq
  | syncGlitch | refresh => exact res_ite (fault_holds _) (next_holds (State.ite_holds (State.inc_holds _ _ _ _ _ hq) hq))
  | stuckSync => exact execStuckSync_holds hq
  | stuckSyncClear | clockChangeDone => exact res_ite (fault_holds _) (next_holds (State.w_holds _ _ _ _ _ hq))
  | lineReadRequest => exact execLineReadRequest_holds hq
  | lineWriteRequest => exact execLineWriteRequest_holds hq
  | frameLineRead => exact execFrameLineRead_holds hq
  | fillLineArrival => exact execFillLineArrival_holds hq
  | writeBackDone => exact execWriteBackDone_holds hq
  | pageMapCut => exact execPageMapCut_holds hq
  | prefetchBlockPlaced => exact execPrefetchBlockPlaced_holds hq
  | copyDone => exact execCopyDone_holds hq
  | repairTimeout => exact execRepairTimeout_holds hq
  | repairPageCopyDone => exact execRepairPageCopyDone_holds hq
  | patrolScrub => exact execPatrolScrub_holds hq
  | mr4Readout => exact execMr4Readout_holds hq
  | contributionWrite => exact execContributionWrite_holds hq
  | heldLineAccept => exact execHeldLineAccept_holds hq
  | bucketStart => exact execBucketStart_holds hq
  | bucketPublish => exact execBucketPublish_holds hq
  | noticeDelivery => exact execNoticeDelivery_holds hq
  | collectiveSlow => exact execCollectiveSlow_holds hq
  | permuteStart => exact execPermuteStart_holds hq
  | replayNotice => exact execReplayNotice_holds hq
  | doneWrite => exact execDoneWrite_holds hq
  | linkLost => exact res_ite (fault_holds _) (next_holds (State.ite_holds (State.linkLose_holds _ _ hq) hq))
  | snapshotPageSent => exact execSnapshotPageSent_holds hq
  | riskIndexUpdate => exact execRiskIndexUpdate_holds hq
  | restoreShadowDone => exact execRestoreShadowDone_holds hq
  | swtWrite => exact execSwtWrite_holds hq
  | swtRead => exact execSwtRead_holds hq
  | readResp => exact execReadResp_holds hq
  | swtMsg => exact execSwtMsg_holds hq
  | dack => exact execDack_holds hq
  | credit => exact execCredit_holds hq
  | landPacket => exact execLandPacket_holds hq
  | coll => exact execColl_holds hq
  | repair => exact execRepair_holds hq
  | repairResp => exact execRepairResp_holds hq
  | keepalive => exact swtRow_holds _ _ _ _ hq (fun _ _ _ _ h => h)
  | partEnd => exact swtRow_holds _ _ _ _ hq (fun _ _ _ _ h => State.peerDown_holds _ _ _ h)
  | spAck => exact swtRow_holds _ _ _ _ hq (fun _ _ _ _ h => State.ite_holds (State.spAck_holds _ _ _ _ h) h)
  | spRecord => exact execSpRecord_holds hq
  | spPage => exact execSpPage_holds hq
  | spDigest => exact swtRow_holds _ _ _ _ hq (fun _ _ _ _ h => State.ite_holds (State.spDigest_holds _ _ _ _ _ h) h)
  | ack => exact execAck_holds hq
  | ackTimer => exact execAckTimer_holds hq
  | retransmitTimeout => exact execRetransmitTimeout_holds hq
  | creditPacketTimer => exact execCreditPacketTimer_holds hq
  | contextDownTimer => exact execContextDownTimer_holds hq
  | keepaliveTimer => exact execKeepaliveTimer_holds hq
  | roceSend | sendWithImmediate => exact roceAppend_holds _ hq
  | rdmaWrite => exact roceWrite_holds _ _ hq (fun _ _ h => h)
  | rdmaWriteWithImmediate => exact roceWrite_holds _ _ hq (fun _ _ h => State.ite_holds (State.immDoorbell_holds _ _ _ _ h) h)
  | rdmaRead => exact execRdmaRead_holds hq
  | roceAck => exact reqRow_holds _ _ _ hq (fun _ _ h => State.qpAcked_holds _ _ _ _ h)
  | roceNak => exact execRoceNak_holds hq
  | readResponse => exact execReadResponse_holds hq
  | localAckTimeout => exact execLocalAckTimeout_holds hq
  | cnp => exact reqRow_holds _ _ _ hq (fun _ _ h => State.upQp_holds _ _ _ h)
  | cnpRateTimer => exact res_ite (fault_holds _) (next_holds (State.upQp_holds _ _ _ hq))
  | ptpEventMessage => exact execPtpEventMessage_holds hq
  | neighbourDiscovery => exact execNeighbourDiscovery_holds hq
  | pfcFrame => exact execPfcFrame_holds hq
  | droppedFrame => exact execDroppedFrame_holds hq
  | linkUp => exact execLinkUp_holds hq
  | linkDown => exact execLinkDown_holds hq
  | takePacket => exact execTakePacket_holds hq
  | tailDoorbell => exact res_ite (fault_holds _) (next_holds (State.setTail_holds _ _ _ hq))
  | cheadDoorbell => exact res_ite (fault_holds _) (next_holds (State.setChead_holds _ _ _ hq))
  | eheadDoorbell => exact res_ite (fault_holds _) (next_holds (State.setEhead_holds _ _ _ _ hq))
  | outputLineCopy => exact execOutputLineCopy_holds hq
  | nopCommand | partQuery => exact command_holds _ _ _ _ _ _ hq (fun _ _ _ h => done_holds _ _ h)
  | devQuery | sensorRead => exact command_holds _ _ _ _ _ _ hq (fun _ _ _ h => hostReply_holds _ _ _ _ _ h)
  | queueCreate => exact execQueueCreate_holds hq
  | queueDestroy => exact execQueueDestroy_holds hq
  | qpCreate => exact execQpCreate_holds hq
  | qpDestroy => exact execQpDestroy_holds hq
  | evringSet => exact execEvringSet_holds hq
  | eventMask => exact execEventMask_holds hq
  | warmReset => exact execWarmReset_holds hq
  | partCreate => exact execPartCreate_holds hq
  | partRelease => exact command_holds _ _ _ _ _ _ hq (fun _ _ _ h => later_holds (State.beginEnd_holds _ _ _ _ _ h))
  | partKill => exact execPartKill_holds hq
  | shareOffer => exact execShareOffer_holds hq
  | shareEnd => exact command_holds _ _ _ _ _ _ hq (fun _ _ _ h => out_ite (done_holds _ _ h) (refuse_holds _ h))
  | peergroupSet => exact execPeergroupSet_holds hq
  | landgroupSet => exact execLandgroupSet_holds hq
  | imageLoad => exact execImageLoad_holds hq
  | launch => exact execLaunch_holds hq
  | outputSet => exact execOutputSet_holds hq
  | pageMap => exact execPageMap_holds hq
  | pageFree => exact execPageFree_holds hq
  | pageAttr => exact execPageAttr_holds hq
  | regionReg => exact execRegionReg_holds hq
  | regionDereg => exact execRegionDereg_holds hq
  | hostbufReg => exact execHostbufReg_holds hq
  | hostbufDereg => exact execHostbufDereg_holds hq
  | prefetchSet => exact execPrefetchSet_holds hq
  | copypoolSet => exact execCopypoolSet_holds hq
  | peerAdd => exact execPeerAdd_holds hq
  | peerRemove => exact execPeerRemove_holds hq
  | peerKeyWrite => exact execPeerKeyWrite_holds hq
  | peerKeySend => exact execPeerKeySend_holds hq
  | peerKeyRetire => exact execPeerKeyRetire_holds hq
  | collGroup => exact execCollGroup_holds hq
  | planSet => exact execPlanSet_holds hq
  | shardReg => exact execShardReg_holds hq
  | shardDereg => exact execShardDereg_holds hq
  | tensorReg => exact execTensorReg_holds hq
  | tensorSet => exact execTensorSet_holds hq
  | linkOut => exact execLinkOut_holds hq
  | linkIn => exact execLinkIn_holds hq
  | linkRemove => exact execLinkRemove_holds hq
  | snapbufSet => exact execSnapbufSet_holds hq
  | snapshotNow => exact command_holds _ _ _ _ _ _ hq (fun _ _ _ h => done_holds _ _ (State.w_holds _ _ _ _ _ h))
  | restoreShadow => exact execRestoreShadow_holds hq
  | restoreSnap => exact execRestoreSnap_holds hq
  | telemRead => exact execTelemRead_holds hq
  | evlogRead => exact execEvlogRead_holds hq
  | mctpPass => exact execMctpPass_holds hq
  | fwUpdate => exact execFwUpdate_holds hq
  | boot => exact execBoot_holds hq
  | bootWatchdog => exact next_holds (State.ite_holds hq (State.coldReset_holds _ _ (State.upMss_holds _ _ hq)))
  | holdupMeasure => exact next_holds (State.ite_holds hq (State.flashTry_holds _ _ _ (State.holdupShow_holds _ _ hq)))
  | flashSequenceEnd => exact execFlashSequenceEnd_holds hq
  | logRetry | entdaa | setdasa => exact next_holds (State.ite_holds (State.upMss_holds _ _ hq) hq)
  | sensorPoll => exact res_ite (fault_holds _) (next_holds (State.ite_holds (State.sensorRead_holds _ _ _ hq) hq))
  | pcapTick => exact execPcapTick_holds hq
  | throttleReportTimer => exact execThrottleReportTimer_holds hq
  | setEndpointId | getEndpointId | getEndpointUuid | getMctpVersionSupport | getMessageTypeSupport | getVendorDefinedMessageSupport => exact controlRow_holds _ _ hq
  | getTid | setTid | getPldmVersion | getPldmTypes | getPldmCommands | getPdrRepositoryInfo | getPdr | getSensorReading | setEventReceiver | queryDeviceIdentifiers
  | getFirmwareParameters | requestUpdate | passComponentTable | updateComponent | activateFirmware | getStatus | cancelUpdateComponent | cancelUpdate =>
    exact pldmRow_holds _ _ _ hq
  | requestFirmwareData => exact execRequestFirmwareData_holds hq
  | getVersion | getCapabilities | negotiateAlgorithms | getDigests | getCertificate | challenge | getMeasurements => exact spdmRow_holds _ hq
  | regRead => exact execRegRead_holds hq
  | regWrite => exact execRegWrite_holds hq
  | hallClkWrite => exact res_ite (fault_holds _) (next_holds (State.clkWrite_holds _ _ _ hq))
  | tstatClear | srSeedWrite | dbgStop | dbgGo | dbgStep => exact onTile_holds _ _ (State.writeReg_holds _ _ _ _ _ hq)
  | landCtrlWrite => exact res_ite (fault_holds _) (next_holds (State.landCtrlWrite_holds _ _ _ hq))
  | portModeWrite => exact res_ite (fault_holds _) (next_holds (State.portCfgWrite_holds _ _ _ hq))
  | ptpDiscWrite => exact res_ite (fault_holds _) (next_holds (State.ptpWrite_holds _ _ _ hq))
  | aqpCreate => exact next_holds (State.aqpCreate_holds _ hq)
  | faultClear => exact execFaultClear_holds hq
  | registerWrite => exact next_holds (State.ite_holds (State.ctlWrite_holds _ _ _ hq) (State.ctlRefuse_holds _ hq))
  | readClear => exact execReadClear_holds hq
  | modPwrenAssert => exact execModPwrenAssert_holds hq
  | modPwrenDeassert | inputPowerLoss => exact next_holds (State.ite_holds hq (State.powerDown_holds _ hq))
  | endOfReset => exact execEndOfReset_holds hq
  | modResetNLow => exact next_holds (State.ite_holds hq (State.w_holds _ _ _ _ _ (State.coldReset_holds _ _ hq)))
  | resetGlitch | throttleGlitch | ppsGlitch => exact next_holds (State.ite_holds (State.inc_holds _ _ _ _ _ hq) hq)
  | throttleAssert => exact execThrottleAssert_holds hq
  | throttleRelease => exact execThrottleRelease_holds hq
  | ppsEdge => exact execPpsEdge_holds hq
  | ppsLost => exact next_holds (State.ite_holds hq (State.w_holds _ _ _ _ _ (State.w_holds _ _ _ _ _ hq)))
  | refclkLoss => exact next_holds (State.ite_holds hq (State.coldReset_holds _ _ hq))
  | refclkRestored | smbusStuck => exact next_holds hq
  | thermTrip => exact execThermTrip_holds hq
  | hardwareTrip => exact execHardwareTrip_holds hq
  | bypass => exact next_holds (State.tapTo_holds _ _ hq)
  | idcode => exact next_holds (State.ite_holds (State.emit_holds _ _ (State.tapTo_holds _ _ hq)) hq)
  | samplePreload => exact next_holds (State.ite_holds hq (State.emit_holds _ _ (State.undef_holds _ hq)))
  | extest | extestPulse | extestTrain | clamp | highz => exact next_holds (State.tapDrive_holds _ _ hq)
  | hallFieldFailure => exact res_ite (fault_holds _) (next_holds (State.ite_holds hq (State.markHall_holds _ _ _ _ hq)))
  | inputPowerApplied => exact execInputPowerApplied_holds hq
  | powerUpAfterPowerDown => exact next_holds (State.ite_holds (State.powerUp_holds _ hq) hq)
  | pfcPauseExpiry => exact res_ite (fault_holds _) (next_holds (State.ite_holds hq (State.resumeTx_holds _ _ hq)))
  | rnrRetryTimer => exact execRnrRetryTimer_holds hq

end

/-- An outcome that is a next state. -/
def Res.Goes (r : Res) : Prop := ∃ t, r = .next t

theorem next_goes (t : State) : Res.Goes (.next t) := ⟨t, rfl⟩
theorem ite_goes {c : Prop} [Decidable c] {a b : Res} (ha : a.Goes) (hb : b.Goes) : Res.Goes (if c then a else b) := ite_ind ha hb
/-- A row that faults only for a unit that the module does not have. -/
theorem unless_goes {c : Prop} [Decidable c] {f : Fault} {r : Res} (hc : ¬ c) (hr : r.Goes) : Res.Goes (if c then .fault f else r) := by
  rwa [if_neg hc]

/-- A row of one unit, of two, of three (`Instr.wf`). -/
theorem guard_goes {a b : Nat} {f : Fault} {t : State} (h : decide (a < b) = true) : Res.Goes (if b ≤ a then .fault f else .next t) :=
  unless_goes (Nat.not_le.mpr (of_decide_eq_true h)) (next_goes t)
theorem guard_goes₂ {a b c d : Nat} {f : Fault} {t : State} (h : (decide (a < b) && decide (c < d)) = true) :
    Res.Goes (if b ≤ a ∨ d ≤ c then .fault f else .next t) := by
  simp only [Bool.and_eq_true, decide_eq_true_eq] at h
  exact unless_goes (by omega) (next_goes t)
theorem guard_goes₃ {a b c d x y : Nat} {f : Fault} {t : State} (h : (decide (a < b) && decide (c < d) && decide (x < y)) = true) :
    Res.Goes (if b ≤ a ∨ d ≤ c ∨ y ≤ x then .fault f else .next t) := by
  simp only [Bool.and_eq_true, decide_eq_true_eq] at h
  exact unless_goes (by omega) (next_goes t)

theorem onTile_goes {n c : Nat} {s : State} (h : (tileOk n && ctxOk c) = true) : (onTile n c s).Goes := by
  simp only [tileOk, ctxOk, Bool.and_eq_true, decide_eq_true_eq] at h
  exact ⟨s, if_pos h⟩
/-- A row of a tile's main context. -/
theorem onTile_goes_main {n : Nat} {s : State} (h : tileOk n = true) : (onTile n 0 s).Goes :=
  onTile_goes (by rw [h]; rfl)

section
variable {s : State}

theorem command_goes {h : CmdHdr} {op perm need : Nat} {pars : List Par} {body : State → RunCmd → Nat → CmdOut} (hw : queueOk h.queue = true) :
    (s.command h op perm need pars body).Goes := by
  unfold State.command
  refine unless_goes (Nat.not_le.mpr (of_decide_eq_true hw)) (ite_goes (next_goes _) (ite_goes (next_goes _) ?_))
  split
  · exact next_goes _
  · exact next_goes _
  · exact next_goes _

theorem swtRow_goes {f : SwtFrame} {typ : Nat} {sub : Option Nat} {user : State → PeerCtx → Nat → Nat → State × Bool} (hw : fabricOk f.sub = true) :
    (s.swtRow f typ sub user).Goes := by
  unfold State.swtRow
  refine unless_goes (Nat.not_le.mpr (of_decide_eq_true hw)) (ite_goes (next_goes _) ?_)
  split
  · exact next_goes _
  · exact ite_goes (next_goes _) (next_goes _)

theorem controlRow_goes {code : Nat} {b : List Nat} : (s.controlRow code b).Goes := ite_goes (next_goes _) (next_goes _)
theorem pldmRow_goes {ty cmd : Nat} {b : List Nat} : (s.pldmRow ty cmd b).Goes := ite_goes (next_goes _) (next_goes _)
theorem spdmRow_goes {b : List Nat} : (s.spdmRow b).Goes := ite_goes (next_goes _) (next_goes _)
theorem reqRow_goes {n : Nat} {e : EthHead} {f : State → Qp → State} (hw : qpOk n = true) : (s.reqRow n e f).Goes := guard_goes hw

theorem roceAppend_goes {k : RocePkt} (hw : decide (k.port < 4) = true) : (s.roceAppend k).Goes := by
  unfold State.roceAppend
  refine unless_goes (Nat.not_le.mpr (of_decide_eq_true hw)) ?_
  split
  · exact next_goes _
  · exact next_goes _
  · exact next_goes _

theorem roceWrite_goes {k : RocePkt} {done : State → Qp → State} (hw : decide (k.port < 4) = true) : (s.roceWrite k done).Goes := by
  unfold State.roceWrite
  refine unless_goes (Nat.not_le.mpr (of_decide_eq_true hw)) ?_
  split
  · exact next_goes _
  · exact next_goes _
  · refine ite_goes (next_goes _) (ite_goes (next_goes _) ?_)
    split
    · exact next_goes _
    · exact ite_goes (next_goes _) (next_goes _)

/-! The rows of no common shape. -/

theorem execMr4Readout_goes {m codes temp : Nat} (hw : memcOk m = true) : (execMr4Readout m codes temp s).Goes :=
  unless_goes (Nat.not_le.mpr (of_decide_eq_true hw)) (next_goes _)

theorem execRiskIndexUpdate_goes {fec mem : List (Nat × Nat)} (hw : (fec.all (fun x => subOk x.1) && mem.all (fun x => memcOk x.1)) = true) :
    (execRiskIndexUpdate fec mem s).Goes := by
  refine unless_goes ?_ (next_goes _)
  simpa [subOk, memcOk] using hw

theorem execBoot_goes {reached : Bool} {v1 v2 : Nat} {fails : List Nat} (hw : fails.all hallOk = true) : (execBoot reached v1 v2 fails s).Goes := by
  refine unless_goes ?_ (next_goes _)
  simp only [List.any_eq_true, decide_eq_true_eq, not_exists, not_and, Nat.not_le]
  exact fun x hx => of_decide_eq_true (List.all_eq_true.mp hw x hx)

theorem execAck_goes {f : SwtFrame} (hw : fabricOk f.sub = true) : (execAck f s).Goes := by
  unfold execAck
  refine unless_goes (Nat.not_le.mpr (of_decide_eq_true hw)) (ite_goes (next_goes _) ?_)
  split
  · exact next_goes _
  · exact next_goes _

theorem execRdmaWrite_goes {k : RocePkt} (hw : decide (k.port < 4) = true) : (execRdmaWrite k s).Goes := by
  unfold execRdmaWrite; exact roceWrite_goes hw
theorem execRdmaWriteWithImmediate_goes {k : RocePkt} (hw : decide (k.port < 4) = true) : (execRdmaWriteWithImmediate k s).Goes := by
  unfold execRdmaWriteWithImmediate; exact roceWrite_goes hw

theorem execRdmaRead_goes {k : RocePkt} (hw : decide (k.port < 4) = true) : (execRdmaRead k s).Goes := by
  unfold execRdmaRead
  refine unless_goes (Nat.not_le.mpr (of_decide_eq_true hw)) ?_
  extract_lets who run
  have hr : ∀ t q again, Res.Goes (run t q again) := fun t q again => by
    refine ite_goes (next_goes _) ?_
    extract_lets d
    split
    · exact next_goes _
    · exact next_goes _
  split
  · exact next_goes _
  · exact hr _ _ _
  · exact hr _ _ _

theorem execTakePacket_goes : (execTakePacket s).Goes := by
  unfold execTakePacket
  refine ite_goes (next_goes _) ?_
  split
  · exact next_goes _
  refine ite_goes (next_goes _) (ite_goes (next_goes _) ?_)
  split
  · exact next_goes _
  · exact ite_goes (next_goes _) (ite_goes (next_goes _) (ite_goes (next_goes _) (next_goes _)))

theorem execWarmReset_goes {h : CmdHdr} (hw : queueOk h.queue = true) : (execWarmReset h s).Goes :=
  unless_goes (Nat.not_le.mpr (of_decide_eq_true hw)) (ite_goes (next_goes _) (next_goes _))

theorem execRequestFirmwareData_goes {cc : Nat} {data : List Nat} : (execRequestFirmwareData cc data s).Goes := ite_goes (next_goes _) (next_goes _)
theorem execRegRead_goes {a : Nat} : (execRegRead a s).Goes := ite_goes (next_goes _) (ite_goes (next_goes _) (next_goes _))
theorem execRegWrite_goes {a v : Nat} : (execRegWrite a v s).Goes := ite_goes (next_goes _) (ite_goes (next_goes _) (next_goes _))

end

/-- A command that names only units the module has answers a next state. -/
theorem exec_goes (i : Instr) (s : State) (h : i.wf = true) : Res.Goes (exec i s) := by
  unfold exec
  cases i with
  | illegal | alu | alui | li | cmp | cmpi | plog | muldiv | ldh | sth | lde | ste | mfs | mts | setvl | br | call | jr | loop | callr | mx | vx | st | xc | send
  | openOut | openIn | closeOut | closeIn | alcOpen | alcClose | nop | land | landOpen | waitLand | fence | halt | hret | segOn | segOff | dispatchAfterStall
  | fenceDone | alcoveCloseRetire | vxStart | vxDone | messageSend => exact onTile_goes h
  | fetchLineFill | tileArrival | segmentClearDone | segmentPowerDown | closeOutRetire | closeInRetire | handlerEntry | mxStart | mxKstep | mxDrainEnd | stStart
  | stWordGroupArrival | stWriteAck | xcStart | xcEntrySend | messageLastWord | spill | spillCopyDone | spillReadback | correctionWriteBack | scrubRead | scrubForced
  | lineReadRequest | lineWriteRequest | contributionWrite | doneWrite | tstatClear | srSeedWrite | dbgStop | dbgGo | dbgStep => exact onTile_goes_main h
  | exchangeDelivery | xcAck | multicastRoot | reductionContribution | meshPacket | messageArrival | wrapMarker | doorbell | messageAck | creditReturn | openingGrant
  | heldDeliveryResume | pageMapCut | noticeDelivery | bootWatchdog | holdupMeasure | flashSequenceEnd | logRetry | pcapTick | throttleReportTimer | aqpCreate
  | faultClear | registerWrite | readClear | modPwrenAssert | modPwrenDeassert | inputPowerLoss | endOfReset | modResetNLow | resetGlitch | throttleAssert
  | throttleRelease | throttleGlitch | ppsEdge | ppsGlitch | ppsLost | refclkLoss | refclkRestored | smbusStuck | bypass | idcode | samplePreload | extest
  | extestPulse | extestTrain | clamp | highz | inputPowerApplied | powerUpAfterPowerDown | entdaa | setdasa => exact next_goes _
  | galleryScrubRead | galleryScrubForced | frameLineRead | writeBackDone | repairTimeout | refresh | replayNotice | eheadDoorbell | pfcPauseExpiry => exact guard_goes₂ h
  | hallClearDone | creationAfterRelease | landingComplete | landingTimeout | syncPulse | syncGlitch | stuckSync | stuckSyncClear | prefetchBlockPlaced | copyDone
  | repairPageCopyDone | patrolScrub | heldLineAccept | bucketStart | bucketPublish | collectiveSlow | permuteStart | linkLost | snapshotPageSent | restoreShadowDone
  | ackTimer | retransmitTimeout | creditPacketTimer | contextDownTimer | keepaliveTimer | localAckTimeout | cnpRateTimer | ptpEventMessage | neighbourDiscovery
  | pfcFrame | droppedFrame | linkUp | linkDown | tailDoorbell | cheadDoorbell | outputLineCopy | sensorPoll | hallClkWrite | clockChangeDone | landCtrlWrite
  | portModeWrite | ptpDiscWrite | thermTrip | hardwareTrip | hallFieldFailure | rnrRetryTimer => exact guard_goes h
  | fillLineArrival => exact guard_goes₃ h
  | mr4Readout => exact execMr4Readout_goes h
  | riskIndexUpdate => exact execRiskIndexUpdate_goes h
  | swtWrite | swtRead | readResp | swtMsg | dack | credit | landPacket | coll | repair | repairResp | keepalive | partEnd | spAck | spRecord | spPage | spDigest => exact swtRow_goes h
  | ack => exact execAck_goes h
  | roceSend | sendWithImmediate => exact roceAppend_goes h
  | rdmaWrite => exact execRdmaWrite_goes h
  | rdmaWriteWithImmediate => exact execRdmaWriteWithImmediate_goes h
  | rdmaRead => exact execRdmaRead_goes h
  | roceAck | roceNak | readResponse | cnp => exact reqRow_goes h
  | takePacket => exact execTakePacket_goes
  | nopCommand | devQuery | queueCreate | queueDestroy | qpCreate | qpDestroy | evringSet | eventMask | partCreate | partRelease | partKill | partQuery | shareOffer
  | shareEnd | peergroupSet | landgroupSet | imageLoad | launch | outputSet | pageMap | pageFree | pageAttr | regionReg | regionDereg | hostbufReg | hostbufDereg
  | prefetchSet | copypoolSet | peerAdd | peerRemove | peerKeyWrite | peerKeySend | peerKeyRetire | collGroup | planSet | shardReg | shardDereg | tensorReg
  | tensorSet | linkOut | linkIn | linkRemove | snapbufSet | snapshotNow | restoreShadow | restoreSnap | telemRead | evlogRead | sensorRead | mctpPass | fwUpdate => exact command_goes h
  | warmReset => exact execWarmReset_goes h
  | boot => exact execBoot_goes h
  | setEndpointId | getEndpointId | getEndpointUuid | getMctpVersionSupport | getMessageTypeSupport | getVendorDefinedMessageSupport => exact controlRow_goes
  | getTid | setTid | getPldmVersion | getPldmTypes | getPldmCommands | getPdrRepositoryInfo | getPdr | getSensorReading | setEventReceiver | queryDeviceIdentifiers
  | getFirmwareParameters | requestUpdate | passComponentTable | updateComponent | activateFirmware | getStatus | cancelUpdateComponent | cancelUpdate => exact pldmRow_goes
  | requestFirmwareData => exact execRequestFirmwareData_goes
  | getVersion | getCapabilities | negotiateAlgorithms | getDigests | getCertificate | challenge | getMeasurements => exact spdmRow_goes
  | regRead => exact execRegRead_goes
  | regWrite => exact execRegWrite_goes

/-! A step. -/

theorem step_nil {s : State} (h : s.pending = []) : step s = .next s.idle := by unfold step; rw [h]
theorem step_cons {s : State} {i : Instr} {rest : List Instr} (h : s.pending = i :: rest) : step s = exec i { s with pending := rest } := by
  unfold step; rw [h]

theorem step_goes {s : State} (hp : s.pending.all Instr.wf = true) : Res.Goes (step s) := by
  cases e : s.pending with
  | nil => rw [step_nil e]; exact next_goes _
  | cons i rest =>
    rw [e, List.all_cons, Bool.and_eq_true] at hp
    rw [step_cons e]; exact exec_goes i _ hp.1

theorem step_holds {s : State} (hf : Memory.wf s.frames = true) : Res.Holds (s.pending.drop 1) (step s) := by
  cases e : s.pending with
  | nil => rw [step_nil e]; exact next_holds (State.idle_holds s ⟨e, hf⟩)
  | cons i rest => rw [step_cons e]; exact exec_holds i ⟨rfl, hf⟩

theorem State.Holds.safe {l : List Instr} {t : State} (h : t.Holds l) (hl : l.all Instr.wf = true) : t.Safe := ⟨h.frames, h.pending ▸ hl⟩

theorem all_drop_one {l : List Instr} (h : l.all Instr.wf = true) : (l.drop 1).all Instr.wf = true :=
  List.all_eq_true.mpr fun i hi => List.all_eq_true.mp h i (List.mem_of_mem_drop hi)

/-- Settles O3: totality and the invariant are shown of every row apart (`exec_goes`, `exec_holds`), then of a step. -/
theorem safeStatesStepOn : Obligations.SafeStatesStepOn := by
  rintro s ⟨hf, hp⟩
  refine ⟨step_goes hp, fun t e => ?_⟩
  have ht : t.Holds (s.pending.drop 1) := step_holds hf t e
  exact ⟨ht.safe (all_drop_one hp), ht.pending⟩

end Sys2Proof.Machine
end

section
/-! Counters (R12) and what reset leaves of the registers and the memories (R10, R374). -/

namespace Sys2Proof.Machine

/-! Counters. -/

/-- A counter raised leaves the other fields of its register. -/
theorem State.g_inc_field (s : State) (f g : Fld) (u i n : Nat) (hr : g.reg = f.reg) (h : f.lo + f.width ≤ 64) (hd : g.lo + g.width ≤ f.lo ∨ f.lo + f.width ≤ g.lo) :
    (s.inc f u i n).g g u i = s.g g u i :=
  State.g_w_field s f g u i _ hr h hd

/-- The low bits of a cleared field. -/
theorem bitsAt_setBitsAt_zero (v : BitVec 64) {lo w w' : Nat} (h : lo + w ≤ 64) (hw : w' ≤ w) : bitsAt (setBitsAt v lo w 0) lo w' = 0 := by
  apply Nat.eq_of_testBit_eq
  intro k
  rw [bitsAt_testBit, setBitsAt_testBit v lo w 0 _ h]
  by_cases hk : k < w'
  · rw [if_pos (by omega)]; simp
  · simp [hk]

theorem afterRead_PWR_GLITCH (v : BitVec 64) : R.PWR_GLITCH.afterRead v = setBitsAt (setBitsAt (setBitsAt v 0 16 0) 16 16 0) 32 16 0 := rfl
theorem afterRead_of_rc32 {r : Reg} (v : BitVec 64) (h : r ∈ [R.MB_HOLDUP_REF, R.HALL_XPART_DROP, R.TILE_QCRUSH]) : r.afterRead v = setBitsAt v 0 32 0 := by
  simp only [List.mem_cons, List.not_mem_nil, or_false] at h
  obtain rfl | rfl | rfl := h
  · rfl
  · rfl
  · rfl

/-- A read clears the counters. -/
theorem bitsAt_afterRead (v : BitVec 64) {r : Reg} (h : r ∈ [R.PWR_GLITCH, R.MB_HOLDUP_REF, R.HALL_XPART_DROP, R.TILE_QCRUSH]) : bitsAt (r.afterRead v) 0 16 = 0 := by
  obtain rfl | h := List.mem_cons.mp h
  · rw [afterRead_PWR_GLITCH, bitsAt_setBitsAt_ne _ _ _ _ _ _ (by decide) (by decide), bitsAt_setBitsAt_ne _ _ _ _ _ _ (by decide) (by decide),
      bitsAt_setBitsAt_zero v (by decide) (by decide)]
  · rw [afterRead_of_rc32 v h, bitsAt_setBitsAt_zero v (by decide) (by decide)]

/-- Settles O56: a raised counter is a field written with the smaller of its sum and its all-ones value. -/
theorem countersSaturate : Obligations.CountersSaturate := by
  intro s f u i n h
  have hs := State.g_inc_same s f u i n h
  exact ⟨hs, fun hm => by omega, fun g hr _ hd => State.g_inc_field s f g u i n hr h hd, fun _ v hr => bitsAt_afterRead v hr⟩

/-! Keys of registers of one kind of block. -/

theorem unit_of_mem_regsOf {u : RUnit} {r : Reg} (h : r ∈ regsOf u) : r.unit = u := by
  have hu : ∀ u, ∀ r ∈ regsOf u, r.unit = u := by intro u; cases u <;> decide
  exact hu u r h

theorem key_ne_of_addr {r r' : Reg} (hu : r.unit = r'.unit) {u i u' i' : Nat} (h : r.addr u i ≠ r'.addr u' i') : r.key u i ≠ r'.key u' i' := by
  simp only [Reg.key, hu]; omega

/-- No other register shares the key of queue 0's CQ.CFG. -/
theorem key_ne_CQ_CFG {u : RUnit} {r : Reg} (h : r ∈ regsOf u) (hr : r ≠ R.CQ_CFG) (k i : Nat) : r.key k i ≠ R.CQ_CFG.key 0 0 := by
  have hu := unit_of_mem_regsOf h
  by_cases hc : u = .cq
  · subst hc
    have ho : ∀ r ∈ regsOf .cq, r ≠ R.CQ_CFG → 0 < r.off := by decide
    have := ho r h hr
    refine key_ne_of_addr hu ?_
    simp only [Reg.addr, hu, RUnit.base, R.CQ_CFG]; omega
  · exact key_ne_of_unit (fun e => hc (hu ▸ e)) _ _ _ _

theorem key_CQ_CFG_ne {k : Nat} (hk : k ≠ 0) : R.CQ_CFG.key k 0 ≠ R.CQ_CFG.key 0 0 := by
  refine key_ne_of_addr rfl ?_
  simp only [Reg.addr, RUnit.base, R.CQ_CFG]; omega

/-- MB.LOG and PWR.STATUS share their keys with no other register. -/
theorem key_ne_mb {u : RUnit} {r : Reg} (h : r ∈ regsOf u) (hr : r ∉ [R.CQ_CFG, R.MB_LOG, R.PWR_STATUS]) {r' : Reg} (h' : r' = R.MB_LOG ∨ r' = R.PWR_STATUS) (k i : Nat) :
    r.key k i ≠ r'.key 0 0 := by
  have hu := unit_of_mem_regsOf h
  have hu' : r'.unit = .mb := by obtain rfl | rfl := h' <;> rfl
  by_cases hc : u = .mb
  · subst hc
    have ho : ∀ r ∈ regsOf .mb, r ∉ [R.CQ_CFG, R.MB_LOG, R.PWR_STATUS] → r.stride = 0 ∧ r.off ≠ 0x40 ∧ r.off ≠ 0x800 ∨ 0x1000 ≤ r.off := by decide
    have := ho r h hr
    refine key_ne_of_addr (hu.trans hu'.symm) ?_
    obtain rfl | rfl := h'
    · simp only [Reg.addr, hu, RUnit.base, R.MB_LOG]
      obtain ⟨hs, h1, h2⟩ | h1 := this
      · rw [hs]; omega
      · omega
    · simp only [Reg.addr, hu, RUnit.base, R.PWR_STATUS]
      obtain ⟨hs, h1, h2⟩ | h1 := this
      · rw [hs]; omega
      · omega
  · exact key_ne_of_unit (fun e => hc (hu ▸ e.trans hu')) _ _ _ _

/-! Reset. -/

/-- After reset only queue 0's CQ.CFG differs from its table. -/
theorem rd_resetRegs {r : Reg} {k i : Nat} (h : r.key k i ≠ R.CQ_CFG.key 0 0) : resetRegs.rd r k i = r.reset := by
  unfold resetRegs
  rw [RegFile.rd_set_ne _ _ h, RegFile.rd_set_ne _ _ h, RegFile.rd_set_ne _ _ h]
  rfl

theorem ownerOf_eq_none {s : State} {h : Nat} (hr : s.regs.rd R.PART_OWNER h 0 = R.PART_OWNER.reset) : s.ownerOf h = none := by
  unfold State.ownerOf State.g RegFile.get
  rw [hr]; rfl

theorem PART_OWNER_mem : R.PART_OWNER ∈ regsOf .owner := by decide

/-- A scratchpad that lists no word reads zero. -/
theorem word_eq_clean {s : State} (h : s.tiles = []) (n a : Nat) : s.word n a = .clean 0 := by
  have hz : readStored 0 = .clean 0 := by decide
  unfold State.word State.tile
  rw [h]; exact hz

/-- What a cold reset leaves of the registers. -/
theorem rd_coldReset (s : State) {u : RUnit} {r : Reg} (h : r ∈ regsOf u) (hr : r ∉ [R.CQ_CFG, R.MB_LOG, R.PWR_STATUS]) (k i : Nat) :
    ((s.coldReset 1).w F.PWR_STATUS_RESET_N 0 0 0).regs.rd r k i = r.reset := by
  rw [State.rd_w_key _ _ _ _ _ _ _ _ (key_ne_mb h hr (.inr rfl) k i)]
  exact (RegFile.rd_set_ne _ _ (key_ne_mb h hr (.inl rfl) k i)).trans (rd_resetRegs (key_ne_CQ_CFG h (fun e => hr (e ▸ List.mem_cons_self)) k i))

theorem exec_modResetNLow {s : State} (hp : s.powered = true) (hr : s.power.phase ≠ .rising) :
    exec .modResetNLow s = .next (({ s with power := { s.power with resetN := false } } : State).coldReset 1 |>.w F.PWR_STATUS_RESET_N 0 0 0) :=
  congrArg _ (if_neg (by simp [hp, hr]))

/-- Settles O5: after reset the register file lists queue 0's CQ.CFG alone, and a cold reset adds MB.LOG and PWR.STATUS. -/
theorem resetValues : Obligations.ResetValues := by
  refine ⟨fun u r k i h hr => rd_resetRegs (key_ne_CQ_CFG h hr k i), fun k hk _ => rd_resetRegs (key_CQ_CFG_ne hk), rfl, rfl, rfl, word_eq_clean rfl,
    fun h => ownerOf_eq_none (rd_resetRegs (key_ne_CQ_CFG PART_OWNER_mem (by decide) h 0)), rfl, rfl, fun _ => rfl, fun s hp hr => ?_⟩
  exact ⟨_, exec_modResetNLow hp hr, fun u r k i h hr => rd_coldReset _ h hr k i, word_eq_clean rfl,
    fun h => ownerOf_eq_none (rd_coldReset _ PART_OWNER_mem (by decide) h 0), rfl, fun _ => rfl⟩

end Sys2Proof.Machine
end

section
/-! Software reads and writes of control space (R10–R12, R29–R31, R355). -/

namespace Sys2Proof.Machine

/-! The rows. -/

section
variable {s : State} {a v : Nat}

theorem exec_readClear (h : a % 8 = 0) : exec (.readClear a) s = .next ((s.ctlRead a).2.emit (.regRead a (s.ctlRead a).1.toNat)) := congrArg _ (if_pos h)
theorem exec_registerWrite (h : a % 8 = 0) : exec (.registerWrite a v) s = .next (s.ctlWrite a (BitVec.ofNat 64 v)) := congrArg _ (if_pos h)
theorem exec_readClear_misaligned (h : a % 8 ≠ 0) : exec (.readClear a) s = .next s.ctlRefuse := congrArg _ (if_neg h)
theorem exec_registerWrite_misaligned (h : a % 8 ≠ 0) : exec (.registerWrite a v) s = .next s.ctlRefuse := congrArg _ (if_neg h)

theorem exec_regRead (hp : s.power.phase = .running) (h : inMailbox a = true) :
    exec (.regRead a) s = .next ((s.ctlRead a).2.emit (.mctp 0x7F 0 0 (leBytes 8 (s.ctlRead a).1.toNat))) :=
  (if_neg (fun hn => hn hp)).trans (if_pos h)
theorem exec_regWrite (hp : s.power.phase = .running) (h : inMailbox a = true) :
    exec (.regWrite a v) s = .next ((s.ctlWrite a (BitVec.ofNat 64 v)).emit (.mctp 0x7F 1 0 [])) :=
  (if_neg (fun hn => hn hp)).trans (if_pos h)
theorem exec_regRead_outside (hp : s.power.phase = .running) (h : inMailbox a = false) : exec (.regRead a) s = .next (s.emit (.mctp 0x7F 0 1 [])) :=
  (if_neg (fun hn => hn hp)).trans (if_neg (by rw [h]; decide))
theorem exec_regWrite_outside (hp : s.power.phase = .running) (h : inMailbox a = false) : exec (.regWrite a v) s = .next (s.emit (.mctp 0x7F 1 1 [])) :=
  (if_neg (fun hn => hn hp)).trans (if_neg (by rw [h]; decide))

/-! A misaligned access (R29). -/

theorem hostTx_units (p k : Nat) (o : Output) : (s.hostTx p k o).tiles = s.tiles ∧ (s.hostTx p k o).frames = s.frames ∧ (s.hostTx p k o).halls = s.halls := by
  unfold State.hostTx
  split
  · exact ⟨rfl, rfl, rfl⟩
  · exact ⟨rfl, rfl, rfl⟩

/-- Sending counts in other registers than ROCE.NAK. -/
theorem hostTx_ROCE_NAK (p k : Nat) (o : Output) (u : Nat) : (s.hostTx p k o).g F.ROCE_NAK_ACC u = s.g F.ROCE_NAK_ACC u := by
  have hk : ∀ r, r = R.PT_TX ∨ r = R.LINK_TX_FRAMES → ∀ u', R.ROCE_NAK.key u 0 ≠ r.key u' 0 := by
    rintro r (rfl | rfl) u'
    · refine key_ne_of_addr (r := R.ROCE_NAK) (r' := R.PT_TX) rfl ?_
      simp only [Reg.addr, RUnit.base, R.ROCE_NAK, R.PT_TX]; omega
    · refine key_ne_of_addr (r := R.ROCE_NAK) (r' := R.LINK_TX_FRAMES) rfl ?_
      simp only [Reg.addr, RUnit.base, R.ROCE_NAK, R.LINK_TX_FRAMES]; omega
  unfold State.hostTx
  split
  · exact (State.g_inc_key _ _ _ _ _ _ _ _ (hk _ (.inr rfl) _)).trans (State.g_inc_key (s.emit o) _ _ _ _ _ _ _ (hk _ (.inl rfl) _))
  · rfl

theorem roceSend_units (n : Nat) (q : Qp) (kind psn cls : Nat) (b : List Nat) :
    (s.roceSend n q kind psn cls b).tiles = s.tiles ∧ (s.roceSend n q kind psn cls b).frames = s.frames ∧ (s.roceSend n q kind psn cls b).halls = s.halls := by
  unfold State.roceSend
  split
  · exact ⟨rfl, rfl, rfl⟩
  · split
    · exact hostTx_units _ _ _
    · exact ⟨rfl, rfl, rfl⟩

theorem roceSend_ROCE_NAK (n : Nat) (q : Qp) (kind psn cls : Nat) (b : List Nat) (u : Nat) : (s.roceSend n q kind psn cls b).g F.ROCE_NAK_ACC u = s.g F.ROCE_NAK_ACC u := by
  unfold State.roceSend
  split
  · rfl
  · split
    · exact hostTx_ROCE_NAK _ _ _ _
    · rfl

theorem ctlRefuse_units : s.ctlRefuse.tiles = s.tiles ∧ s.ctlRefuse.frames = s.frames ∧ s.ctlRefuse.halls = s.halls := by
  unfold State.ctlRefuse
  split
  · exact roceSend_units _ _ _ _ _ _
  · exact ⟨rfl, rfl, rfl⟩

/-- With no administrative queue pair nothing is reported. -/
theorem ctlRefuse_eq_self (h : ∀ e ∈ s.foyer.qps, e.2.kind ≠ 0) : s.ctlRefuse = s := by
  have hf : List.find? (fun (q : Nat × Qp) => q.2.kind == 0 && q.2.ok) s.foyer.qps = none :=
    List.find?_eq_none.mpr fun e he => by simp [h e he]
  unfold State.ctlRefuse
  rw [hf]

theorem ctlRefuse_ROCE_NAK {e : Nat × Qp} (h : List.find? (fun (q : Nat × Qp) => q.2.kind == 0 && q.2.ok) s.foyer.qps = some e) :
    s.ctlRefuse.g F.ROCE_NAK_ACC (32 + e.2.port) = min (s.g F.ROCE_NAK_ACC (32 + e.2.port) + 1) (2 ^ F.ROCE_NAK_ACC.width - 1) := by
  have hs := roceSend_ROCE_NAK (s := s) e.1 e.2 3 e.2.epsn 0 [] (32 + e.2.port)
  unfold State.ctlRefuse
  rw [h, ← hs]
  exact State.g_inc_same _ F.ROCE_NAK_ACC _ 0 1 (by decide)

end

/-! A register read and written by its field types. -/

/-- `t` is `s` with register i of its kind in block u holding `x`, and nothing else changed. -/
def State.Wrote (s t : State) (r : Reg) (u i : Nat) (x : BitVec 64) : Prop :=
  { t with regs := s.regs } = s ∧ t.regs.rd r u i = x ∧ ∀ r' u' i', r'.key u' i' ≠ r.key u i → t.regs.rd r' u' i' = s.regs.rd r' u' i'

theorem wreg_wrote (s : State) (r : Reg) (u i : Nat) (x : BitVec 64) : s.Wrote (s.wreg r u i x) r u i x :=
  ⟨rfl, State.rd_wreg_same s r u i x, fun _ _ _ h => State.rd_wreg_key s r _ u i x _ _ h⟩

/-- The registers whose write has an effect of its own (R31 and each register's table). -/
def ownEffect : List Reg :=
  [R.HALL_CLK, R.DBG_CTRL, R.LAND_CTRL, R.PORT_CFG, R.PORT_PTP, R.CQ_TAIL, R.CQ_CHEAD, R.EV_HEAD, R.MB_PCAP, R.MB_ALERT, R.CLK_PPS, R.MB_FAULT_CLEAR, R.MB_AQP_CTRL,
   R.SP_TIERCFG, R.SWT_CFG, R.COLL_WDOG, R.SP_CFG, R.TILE_TSTAT, R.TILE_SR_SEED]

section
variable {s : State} {a v : Nat} {r : Reg} {u i : Nat}

theorem readReg_unseen (h : s.unseen r u i = true) : s.readReg r u i = (0, s) := if_pos h
theorem readReg_seen (h : s.unseen r u i = false) : s.readReg r u i = (r.readValue (s.regView r u i), s.wreg r u i (r.afterRead (s.regs.rd r u i))) :=
  if_neg (by simp [h])
theorem writeReg_unseen (x : BitVec 64) (h : s.unseen r u i = true) : s.writeReg r u i x = s := if_pos h

theorem hidden_of_seen (h : s.unseen r u i = false) : s.hidden r u = false := (Bool.or_eq_false_iff.mp h).1

/-- A register with no effect of its own takes a write by its field types. -/
theorem writeReg_plain (x : BitVec 64) (h : s.unseen r u i = false) (hr : r ∉ ownEffect) : s.writeReg r u i x = s.wreg r u i (r.written (s.regs.rd r u i) x) := by
  simp only [ownEffect, List.mem_cons, List.not_mem_nil, or_false, not_or] at hr
  simp [State.writeReg, State.swWriteReg, h, hidden_of_seen h, hr]

theorem ctlRead_register (hw : a < 0x400000 ∨ 0x800000 ≤ a) (h : regAt a = some (r, u, i)) : s.ctlRead a = s.readReg r u i := by
  unfold State.ctlRead
  rw [if_neg (by omega), h]
theorem ctlRead_unmapped (hw : a < 0x400000 ∨ 0x800000 ≤ a) (h : regAt a = none) : s.ctlRead a = (0, s) := by
  unfold State.ctlRead
  rw [if_neg (by omega), h]
theorem ctlRead_page (h1 : 0x400000 ≤ a) (h2 : a < 0x800000) : s.ctlRead a = (s.page ((a - 0x400000) / 8), s) := if_pos ⟨h1, h2⟩
theorem ctlWrite_register (x : BitVec 64) (h : regAt a = some (r, u, i)) : s.ctlWrite a x = s.writeReg r u i x := by unfold State.ctlWrite; rw [h]
theorem ctlWrite_unmapped (x : BitVec 64) (h : regAt a = none) : s.ctlWrite a x = s := by unfold State.ctlWrite; rw [h]

/-! The mailbox (R355). -/

theorem addrUnit_mb (h1 : 0xF00000 ≤ a) (h2 : a < 0x1000000) : addrUnit a = some (.mb, 0, a - 0xF00000) := by
  simp only [addrUnit, Bool.and_eq_true, decide_eq_true_eq]
  repeat rw [if_neg (by omega)]
  rw [if_pos (by omega)]

theorem findReg_mb : ∀ r ∈ regsOf .mb, ∀ i < r.count, findReg (regsOf .mb) (r.off + r.stride * i) = some (r, i) := by decide +kernel

theorem mb_span : ∀ r ∈ regsOf .mb, ∀ i < r.count, r.off + r.stride * i < 0x100000 ∧ (r.off + r.stride * i) % 8 = 0 := by decide +kernel

theorem inMailbox_addr (h : r ∈ regsOf .mb) (hi : i < r.count) : inMailbox (r.addr 0 i) = true := by
  have := mb_span r h i hi
  simp only [inMailbox, Reg.addr, unit_of_mem_regsOf h, RUnit.base, Bool.and_eq_true, decide_eq_true_eq, beq_iff_eq]
  omega

theorem regAt_mb (h : r ∈ regsOf .mb) (hi : i < r.count) : regAt (r.addr 0 i) = some (r, 0, i) := by
  have := mb_span r h i hi
  have ha : r.addr 0 i = 0xF00000 + (r.off + r.stride * i) := by simp only [Reg.addr, unit_of_mem_regsOf h, RUnit.base]; omega
  unfold regAt
  rw [ha, addrUnit_mb (by omega) (by omega)]
  simp only [Nat.add_sub_cancel_left, findReg_mb r h i hi, Option.map_some]

theorem unseen_mb (s : State) (h : r ∈ regsOf .mb) (u i : Nat) : s.unseen r u i = false := by
  have hu := unit_of_mem_regsOf h
  simp [State.unseen, State.hidden, State.portAbsent, hu]

theorem ctlRead_mb (h : r ∈ regsOf .mb) (hi : i < r.count) :
    s.ctlRead (r.addr 0 i) = (r.readValue (s.regView r 0 i), s.wreg r 0 i (r.afterRead (s.regs.rd r 0 i))) := by
  have hw : 0x800000 ≤ r.addr 0 i := by simp only [Reg.addr, unit_of_mem_regsOf h, RUnit.base]; omega
  rw [ctlRead_register (.inr hw) (regAt_mb h hi), readReg_seen (unseen_mb s h 0 i)]

theorem ctlWrite_mb (x : BitVec 64) (h : r ∈ regsOf .mb) (hi : i < r.count) : s.ctlWrite (r.addr 0 i) x = s.writeReg r 0 i x :=
  ctlWrite_register x (regAt_mb h hi)

end

/-! MB.PCAP and MB.ALERT (R363, R366). -/

theorem bitsAt_ofNat (v : Nat) {lo w : Nat} (h : lo + w ≤ 64) : bitsAt (BitVec.ofNat 64 v) lo w = v / 2 ^ lo % 2 ^ w := by
  apply Nat.eq_of_testBit_eq
  intro k
  simp only [bitsAt, BitVec.toNat_ofNat, Nat.testBit_mod_two_pow, Nat.testBit_div_two_pow]
  by_cases hk : k < w
  · have : k + lo < 64 := by omega
    simp [hk, this]
  · simp [hk]

section
variable (s : State) (x : BitVec 64)

theorem written_MB_PCAP (old : BitVec 64) :
    R.MB_PCAP.written old x = setBitsAt (setBitsAt old 0 12 (bitsAt x 0 12)) 20 1 (bitsAt old 20 1 - (bitsAt old 20 1 &&& bitsAt x 20 1)) := rfl

/-- MB.PCAP as the write leaves it before CAP is clamped. -/
def State.pcapTyped : State := s.wreg R.MB_PCAP 0 0 (R.MB_PCAP.written (s.regs.rd R.MB_PCAP 0) x)

theorem persist_regs (f : Persist → Persist) : (s.persist f).regs = s.regs := by rw [State.persist, State.upMss_regs]

theorem pcapWrite_regs : (s.pcapWrite x).regs = ((s.pcapTyped x).w F.MB_PCAP_CAP 0 0 (min 3800 (max 1200 ((s.pcapTyped x).g F.MB_PCAP_CAP 0)))).regs := by
  rw [State.pcapWrite, persist_regs, State.pcapTyped]

theorem pcapWrite_tiles : (s.pcapWrite x).tiles = s.tiles := by simp only [State.pcapWrite, State.persist, State.upMss_tiles, State.w_tiles, State.wreg_tiles]
theorem alertWrite_tiles : (s.alertWrite x).tiles = s.tiles := by simp only [State.alertWrite, State.persist, State.upMss_tiles, State.wreg_tiles]

theorem g_pcapWrite (f : Fld) : (s.pcapWrite x).g f 0 = ((s.pcapTyped x).w F.MB_PCAP_CAP 0 0 (min 3800 (max 1200 ((s.pcapTyped x).g F.MB_PCAP_CAP 0)))).g f 0 := by
  simp only [State.g, pcapWrite_regs]

theorem pcapTyped_CAP : (s.pcapTyped x).g F.MB_PCAP_CAP 0 = bitsAt x 0 12 := by
  rw [State.pcapTyped, State.g_wreg_same s R.MB_PCAP F.MB_PCAP_CAP 0 0 _ rfl, written_MB_PCAP, bitsAt_setBitsAt_ne _ _ _ _ _ _ (by decide) (by decide),
    bitsAt_setBitsAt _ _ _ _ (by decide)]
  exact Nat.mod_eq_of_lt (Nat.mod_lt _ (by decide))

theorem pcapTyped_CEIL : (s.pcapTyped x).g F.MB_PCAP_CEIL 0 = s.g F.MB_PCAP_CEIL 0 := by
  rw [State.pcapTyped, State.g_wreg_same s R.MB_PCAP F.MB_PCAP_CEIL 0 0 _ rfl, written_MB_PCAP, bitsAt_setBitsAt_ne _ _ _ _ _ _ (by decide) (by decide),
    bitsAt_setBitsAt_ne _ _ _ _ _ _ (by decide) (by decide)]
  rfl

theorem pcapWrite_CAP : (s.pcapWrite x).g F.MB_PCAP_CAP 0 = min 3800 (max 1200 (bitsAt x 0 12)) := by
  rw [g_pcapWrite, State.g_w_same _ _ _ _ _ (by decide), pcapTyped_CAP]
  generalize bitsAt x 0 12 = c
  exact Nat.mod_eq_of_lt (by show _ < 2 ^ 12; omega)

theorem pcapWrite_CEIL : (s.pcapWrite x).g F.MB_PCAP_CEIL 0 = s.g F.MB_PCAP_CEIL 0 := by
  rw [g_pcapWrite, State.g_w_field _ F.MB_PCAP_CAP F.MB_PCAP_CEIL _ _ _ rfl (by decide) (by decide), pcapTyped_CEIL]

/-- A cause bit after a write: cleared where a 1 is written. -/
def clearedBit (old x : BitVec 64) (k : Nat) : Nat := bitsAt old k 1 - (bitsAt old k 1 &&& bitsAt x k 1)

theorem written_MB_ALERT (old : BitVec 64) : R.MB_ALERT.written old x = setBitsAt ([0, 1, 2, 3, 4].foldl (fun a k => setBitsAt a k 1 (clearedBit old x k)) old) 8 5 (bitsAt x 8 5) := rfl

theorem alertWrite_rd : (s.alertWrite x).regs.rd R.MB_ALERT 0 = R.MB_ALERT.written (s.regs.rd R.MB_ALERT 0) x := State.rd_wreg_same s _ _ _ _

theorem alertWrite_ALERT_EN : (s.alertWrite x).g F.MB_ALERT_ALERT_EN 0 = bitsAt x 8 5 := by
  unfold State.g RegFile.get
  rw [alertWrite_rd, written_MB_ALERT, bitsAt_setBitsAt _ _ _ _ (by decide)]
  exact Nat.mod_eq_of_lt (Nat.mod_lt _ (by decide))

theorem alertWrite_cause {k : Nat} (hk : k < 5) : bitsAt ((s.alertWrite x).regs.rd R.MB_ALERT 0) k 1 = clearedBit (s.regs.rd R.MB_ALERT 0) x k % 2 := by
  rw [alertWrite_rd, written_MB_ALERT, bitsAt_setBitsAt_ne _ _ _ _ _ _ (by decide) (by omega)]
  simp only [List.foldl]
  obtain rfl | rfl | rfl | rfl | rfl : k = 0 ∨ k = 1 ∨ k = 2 ∨ k = 3 ∨ k = 4 := by omega
  all_goals simp (disch := decide) only [bitsAt_setBitsAt_ne, bitsAt_setBitsAt, Nat.pow_one]

theorem clearedBit_eq (old : BitVec 64) (k : Nat) : clearedBit old x k % 2 = if bitsAt x k 1 = 1 then 0 else bitsAt old k 1 := by
  have ho : bitsAt old k 1 < 2 := Nat.mod_lt _ (by decide)
  have hx : bitsAt x k 1 < 2 := Nat.mod_lt _ (by decide)
  unfold clearedBit
  generalize bitsAt old k 1 = o at *
  generalize bitsAt x k 1 = w at *
  obtain rfl | rfl : w = 0 ∨ w = 1 := by omega
  · rw [Nat.and_zero, if_neg (by decide)]; omega
  · rw [Nat.and_one_is_mod, if_pos rfl]; omega

end

theorem writeReg_MB_PCAP (s : State) (x : BitVec 64) : s.writeReg R.MB_PCAP 0 0 x = s.pcapWrite x := by
  unfold State.writeReg
  rw [if_neg (by rw [unseen_mb s (by decide)]; decide)]
  repeat rw [if_neg (by decide)]
  rw [if_pos rfl]

theorem writeReg_MB_ALERT (s : State) (x : BitVec 64) : s.writeReg R.MB_ALERT 0 0 x = s.alertWrite x := by
  unfold State.writeReg
  rw [if_neg (by rw [unseen_mb s (by decide)]; decide)]
  repeat rw [if_neg (by decide)]
  rw [if_pos rfl]

section
variable {s : State} (a v : Nat)

/-- A register that is seen: a read shows it and clears its RC fields, a write changes it by its field types. -/
theorem register_seen {r : Reg} {u i : Nat} (ha : a % 8 = 0) (hw : a < 0x400000 ∨ 0x800000 ≤ a) (h : regAt a = some (r, u, i)) (hu : s.unseen r u i = false) :
    (∃ t, exec (.readClear a) s = .next (t.emit (.regRead a (r.readValue (s.regView r u i)).toNat)) ∧ s.Wrote t r u i (r.afterRead (s.regs.rd r u i))) ∧
    (r ∉ ownEffect → ∃ t, exec (.registerWrite a v) s = .next t ∧ s.Wrote t r u i (r.written (s.regs.rd r u i) (BitVec.ofNat 64 v))) := by
  refine ⟨⟨_, ?_, wreg_wrote _ _ _ _ _⟩, fun hr => ⟨_, ?_, wreg_wrote _ _ _ _ _⟩⟩
  · rw [exec_readClear ha, ctlRead_register hw h, readReg_seen hu]
  · rw [exec_registerWrite ha, ctlWrite_register _ h, writeReg_plain _ hu hr]

theorem register_unseen {r : Reg} {u i : Nat} (ha : a % 8 = 0) (hw : a < 0x400000 ∨ 0x800000 ≤ a) (h : regAt a = some (r, u, i)) (hu : s.unseen r u i = true) :
    exec (.readClear a) s = .next (s.emit (.regRead a 0)) ∧ exec (.registerWrite a v) s = .next s := by
  rw [exec_readClear ha, ctlRead_register hw h, readReg_unseen hu, exec_registerWrite ha, ctlWrite_register _ h, writeReg_unseen _ hu]
  exact ⟨rfl, rfl⟩

/-- The same over the sideband, of a register of the mailbox. -/
theorem mailbox_register {r : Reg} {i : Nat} (hp : s.power.phase = .running) (h : r ∈ regsOf .mb) (hi : i < r.count) :
    (∃ t, exec (.regRead (r.addr 0 i)) s = .next (t.emit (.mctp 0x7F 0 0 (leBytes 8 (r.readValue (s.regView r 0 i)).toNat))) ∧
      s.Wrote t r 0 i (r.afterRead (s.regs.rd r 0 i))) ∧
    (r ∉ ownEffect → ∃ t, exec (.regWrite (r.addr 0 i) v) s = .next (t.emit (.mctp 0x7F 1 0 [])) ∧ s.Wrote t r 0 i (r.written (s.regs.rd r 0 i) (BitVec.ofNat 64 v))) := by
  refine ⟨⟨_, ?_, wreg_wrote _ _ _ _ _⟩, fun hr => ⟨_, ?_, wreg_wrote _ _ _ _ _⟩⟩
  · rw [exec_regRead hp (inMailbox_addr h hi), ctlRead_mb h hi]
  · rw [exec_regWrite hp (inMailbox_addr h hi), ctlWrite_mb _ h hi, writeReg_plain _ (unseen_mb s h 0 i) hr]

theorem exec_regWrite_MB_PCAP (hp : s.power.phase = .running) :
    exec (.regWrite 0xF00020 v) s = .next ((s.pcapWrite (BitVec.ofNat 64 v)).emit (.mctp 0x7F 1 0 [])) := by
  have hm : R.MB_PCAP ∈ regsOf .mb := by decide
  have ha : 0xF00020 = R.MB_PCAP.addr 0 0 := by decide
  rw [ha, exec_regWrite hp (inMailbox_addr hm (by decide)), ctlWrite_mb _ hm (by decide), writeReg_MB_PCAP]

theorem exec_regWrite_MB_ALERT (hp : s.power.phase = .running) :
    exec (.regWrite 0xF00050 v) s = .next ((s.alertWrite (BitVec.ofNat 64 v)).emit (.mctp 0x7F 1 0 [])) := by
  have hm : R.MB_ALERT ∈ regsOf .mb := by decide
  have ha : 0xF00050 = R.MB_ALERT.addr 0 0 := by decide
  rw [ha, exec_regWrite hp (inMailbox_addr hm (by decide)), ctlWrite_mb _ hm (by decide), writeReg_MB_ALERT]

/-- A misaligned access moves no data, and is counted as a remote access error where there is an administrative queue pair. -/
theorem access_misaligned (ha : a % 8 ≠ 0) :
    exec (.registerWrite a v) s = exec (.readClear a) s ∧ ∃ t, exec (.readClear a) s = .next t ∧ t.tiles = s.tiles ∧ t.frames = s.frames ∧ t.halls = s.halls ∧
      ((∀ e ∈ s.foyer.qps, e.2.kind ≠ 0) → t = s) ∧
      ∀ e, List.find? (fun (q : Nat × Qp) => q.2.kind == 0 && q.2.ok) s.foyer.qps = some e →
        t.g F.ROCE_NAK_ACC (32 + e.2.port) = min (s.g F.ROCE_NAK_ACC (32 + e.2.port) + 1) (2 ^ F.ROCE_NAK_ACC.width - 1) := by
  obtain ⟨ht, hf, hh⟩ := ctlRefuse_units (s := s)
  refine ⟨(exec_registerWrite_misaligned ha).trans (exec_readClear_misaligned ha).symm, s.ctlRefuse, exec_readClear_misaligned ha, ht, hf, hh, ?_, ?_⟩
  · exact fun h => ctlRefuse_eq_self h
  · exact fun e h => ctlRefuse_ROCE_NAK h

/-- MB.PCAP (R363): CAP is clamped, and CEIL is not software's. -/
theorem mailbox_PCAP (hp : s.power.phase = .running) :
    ∃ t, exec (.regWrite 0xF00020 v) s = .next t ∧ t.g F.MB_PCAP_CAP 0 = min 3800 (max 1200 (v % 4096)) ∧ t.g F.MB_PCAP_CEIL 0 = s.g F.MB_PCAP_CEIL 0 ∧ t.tiles = s.tiles := by
  refine ⟨_, exec_regWrite_MB_PCAP v hp, ?_, ?_, ?_⟩
  · simp only [State.g_emit, pcapWrite_CAP, bitsAt_ofNat v (show 0 + 12 ≤ 64 by decide), Nat.pow_zero, Nat.div_one, Nat.reducePow]
  · rw [State.g_emit, pcapWrite_CEIL]
  · rw [State.emit_tiles, pcapWrite_tiles]

/-- MB.ALERT (R366): ALERT_EN is written, and a cause clears where a 1 is written. -/
theorem mailbox_ALERT (hp : s.power.phase = .running) :
    ∃ t, exec (.regWrite 0xF00050 v) s = .next t ∧ t.g F.MB_ALERT_ALERT_EN 0 = v / 256 % 32 ∧ t.tiles = s.tiles ∧
      ∀ k, k < 5 → bitsAt (t.regs.rd R.MB_ALERT 0) k 1 = if v / 2 ^ k % 2 = 1 then 0 else bitsAt (s.regs.rd R.MB_ALERT 0) k 1 := by
  refine ⟨_, exec_regWrite_MB_ALERT v hp, ?_, ?_, fun k hk => ?_⟩
  · simp only [State.g_emit, alertWrite_ALERT_EN, bitsAt_ofNat v (show 8 + 5 ≤ 64 by decide), Nat.reducePow]
  · rw [State.emit_tiles, alertWrite_tiles]
  · rw [State.emit_regs, alertWrite_cause s _ hk, clearedBit_eq, bitsAt_ofNat v (by omega), Nat.pow_one]

end

/-- Settles O51, a clause at a time: a misaligned access, an address that names no register, the page-map window, a register, and the sideband. -/
theorem registerRows : Obligations.RegisterRows := by
  intro s a v only special
  refine ⟨access_misaligned a v, fun ha hn => ⟨fun hw => ?_, ?_⟩, fun ha h1 h2 => ?_, fun r u i ha hw h => ⟨register_unseen a v ha hw h, register_seen a v ha hw h⟩,
    fun hp => ⟨fun r i h hi => mailbox_register v hp h hi, mailbox_PCAP v hp, mailbox_ALERT v hp, fun hm => ⟨exec_regRead_outside hp hm, exec_regWrite_outside hp hm⟩⟩⟩
  · rw [exec_readClear ha, ctlRead_unmapped hw hn]; rfl
  · rw [exec_registerWrite ha, ctlWrite_unmapped _ hn]
  · rw [exec_readClear ha, ctlRead_page h1 h2]

end Sys2Proof.Machine
end

section
/-! Number formats: integer codes and SCALE8 (R40), the rounding modes (R43, Table 2.7), and the values a floating-point format holds (R36). -/

namespace Sys2Proof.Machine

/-! Integer formats. -/

theorem intDecode_unsigned {f : Nat} (code : Nat) (h : f ∈ [10, 12]) : intDecode f code = (code % 2 ^ fmtBits f : Nat) :=
  if_pos (by revert f; decide)

/-- The two halves of a two's complement range. -/
theorem half_of_signed {f : Nat} (h : f ∈ [9, 11, 13]) : ((2 ^ fmtBits f : Nat) : Int) / 2 = 2 ^ (fmtBits f - 1) ∧ (((2 ^ fmtBits f : Nat) : Int) + 1) / 2 = 2 ^ (fmtBits f - 1) := by
  revert f; decide

/-- Two's complement is the balanced remainder. -/
theorem intDecode_signed {f : Nat} (code : Nat) (h : f ∈ [9, 11, 13]) : intDecode f code = (code : Int).bmod (2 ^ fmtBits f) := by
  have hu : ¬(f = 10 || f = 12) = true := by revert f; decide
  rw [intDecode, if_neg hu, Int.bmod_def, (half_of_signed h).2, ← Int.natCast_emod]
  norm_cast

theorem intEncode_cast (f : Nat) (x : Int) : (intEncode f x : Int) = x % (2 ^ fmtBits f : Nat) := by
  have hp : ((2 ^ fmtBits f : Nat) : Int) ≠ 0 := Int.natCast_ne_zero.mpr (Nat.ne_of_gt (Nat.two_pow_pos _))
  have hc : (2 : Int) ^ fmtBits f = (2 ^ fmtBits f : Nat) := (Int.natCast_pow 2 _).symm
  rw [intEncode, hc, Int.toNat_of_nonneg (Int.emod_nonneg _ hp)]

theorem intEncode_lt (f : Nat) (x : Int) : intEncode f x < 2 ^ fmtBits f := by
  have h := Int.emod_lt_of_pos x (Int.natCast_pos.mpr (Nat.two_pow_pos (fmtBits f)))
  rw [← intEncode_cast] at h
  exact Int.ofNat_lt.mp h

theorem intEncode_natCast {f code : Nat} (h : code < 2 ^ fmtBits f) : intEncode f code = code := by
  have hc := intEncode_cast f code
  rw [← Int.natCast_emod, Nat.mod_eq_of_lt h] at hc
  exact Int.ofNat_inj.mp hc

theorem intDecode_signed_range {f : Nat} (code : Nat) (h : f ∈ [9, 11, 13]) : -2 ^ (fmtBits f - 1) ≤ intDecode f code ∧ intDecode f code < 2 ^ (fmtBits f - 1) := by
  obtain ⟨h1, h2⟩ := half_of_signed h
  rw [intDecode_signed code h]
  exact ⟨h1 ▸ Int.le_bmod (Nat.two_pow_pos _), h2 ▸ Int.bmod_lt (Nat.two_pow_pos _)⟩

theorem intDecode_signed_emod {f code : Nat} (h : f ∈ [9, 11, 13]) (hc : code < 2 ^ fmtBits f) : intDecode f code % 2 ^ fmtBits f = code := by
  have he := Int.bmod_emod (x := code) (m := 2 ^ fmtBits f)
  rw [← intDecode_signed code h, ← Int.natCast_emod, Nat.mod_eq_of_lt hc, Int.natCast_pow] at he
  exact he

theorem intDecode_intEncode {f : Nat} {x : Int} (h : f ∈ [9, 11, 13]) (hl : -2 ^ (fmtBits f - 1) ≤ x) (hu : x < 2 ^ (fmtBits f - 1)) : intDecode f (intEncode f x) = x := by
  obtain ⟨h1, h2⟩ := half_of_signed h
  rw [intDecode_signed _ h, intEncode_cast, Int.emod_bmod, Int.bmod_eq_of_le (h1 ▸ hl) (h2 ▸ hu)]

theorem scale8Decode_of_lt {s : Nat} (h : s < 0xFF) : scale8Decode s = .fin false 1 ((s : Int) - 127) := by
  unfold scale8Decode
  rw [Nat.mod_eq_of_lt (by omega), if_neg (by omega)]

/-- Settles O60: a signed format decodes by the balanced remainder, an unsigned one by the plain remainder. -/
theorem integerCodes : Obligations.IntegerCodes := by
  refine ⟨fun f hf => ⟨fun code hc => ?_, fun x hl hu => ⟨intEncode_lt f x, intDecode_intEncode hf hl hu⟩⟩, fun f hf code hc => ⟨?_, intEncode_natCast hc⟩, by decide, by decide,
    fun s hs => scale8Decode_of_lt hs, rfl⟩
  · obtain ⟨hl, hu⟩ := intDecode_signed_range code hf
    exact ⟨hl, hu, intDecode_signed_emod hf hc⟩
  · rw [intDecode_unsigned code hf, Nat.mod_eq_of_lt hc]

/-! The rounding decision (R43, Table 2.7): of `m · 2^e`, between two neighbours that are multiples of `2^ue`. -/

theorem roundAt_of_le {mode m r23 : Nat} {neg : Bool} {e ue : Int} (h : ue ≤ e) : roundAt mode neg m e ue r23 = (m * 2 ^ (e - ue).toNat, false) :=
  if_pos h

theorem roundAt_of_lt {mode m r23 : Nat} {neg : Bool} {e ue : Int} (h : e < ue) :
    (roundAt mode neg m e ue r23).1 =
      if roundUp mode neg (m / 2 ^ (ue - e).toNat) (m % 2 ^ (ue - e).toNat) (ue - e).toNat r23 = true then m / 2 ^ (ue - e).toNat + 1 else m / 2 ^ (ue - e).toNat := by
  unfold roundAt
  rw [if_neg (by omega)]

section
variable (neg : Bool) (lo sh r23 : Nat) {rem : Nat}

theorem roundUp_exact (mode : Nat) : roundUp mode neg lo 0 sh r23 = false := rfl
theorem roundUp_RZ : roundUp 1 neg lo rem sh r23 = false := ite_self _
theorem roundUp_RU (h : rem ≠ 0) : roundUp 2 neg lo rem sh r23 = !neg := if_neg h
theorem roundUp_RD (h : rem ≠ 0) : roundUp 3 neg lo rem sh r23 = neg := if_neg h

theorem roundUp_RNE : roundUp 0 neg lo rem sh r23 = true ↔ 2 ^ sh < 2 * rem ∨ 2 * rem = 2 ^ sh ∧ lo % 2 = 1 := by
  have hp := Nat.two_pow_pos sh
  by_cases h : rem = 0
  · rw [h, roundUp_exact]
    exact ⟨fun hf => absurd hf (by decide), fun _ => by omega⟩
  · have hd : roundUp 0 neg lo rem sh r23 = (decide (2 ^ sh < 2 * rem) || (decide (2 * rem = 2 ^ sh) && lo % 2 == 1)) := if_neg h
    rw [hd, Bool.or_eq_true, Bool.and_eq_true, decide_eq_true_iff, decide_eq_true_iff, beq_iff_eq]

theorem roundUp_RNA : roundUp 5 neg lo rem sh r23 = true ↔ 2 ^ sh ≤ 2 * rem := by
  have hp := Nat.two_pow_pos sh
  by_cases h : rem = 0
  · rw [h, roundUp_exact]
    exact ⟨fun hf => absurd hf (by decide), fun _ => by omega⟩
  · have hd : roundUp 5 neg lo rem sh r23 = decide (2 ^ sh ≤ 2 * rem) := if_neg h
    rw [hd, decide_eq_true_iff]

end

/-! Magnitudes. -/

/-- A magnitude with no larger significand and no larger exponent is not above. -/
theorem magCmp_ne_gt {m m' : Nat} {e e' : Int} (hm : m ≤ m') (he : e ≤ e') : magCmp m e m' e' ≠ .gt := by
  have hp : 2 ^ (e - min e e').toNat ≤ 2 ^ (e' - min e e').toNat := Nat.pow_le_pow_right (by decide) (by omega)
  exact fun h => absurd (Nat.compare_eq_gt.mp h) (Nat.not_lt.mpr (Nat.mul_le_mul hm hp))

/-- `2 ^ k · 2 ^ e` reaches every power of two up to its exponent. -/
theorem magCmp_pow_ne_lt {m k : Nat} {e e' : Int} (hm : 2 ^ k ≤ m) (he : e' ≤ e + k) : magCmp m e 1 e' ≠ .lt := by
  have hp : 1 * 2 ^ (e' - min e e').toNat ≤ m * 2 ^ (e - min e e').toNat := calc
    1 * 2 ^ (e' - min e e').toNat = 2 ^ (e' - min e e').toNat := Nat.one_mul _
    _ ≤ 2 ^ (k + (e - min e e').toNat) := Nat.pow_le_pow_right (by decide) (by omega)
    _ = 2 ^ k * 2 ^ (e - min e e').toNat := Nat.pow_add ..
    _ ≤ m * 2 ^ (e - min e e').toNat := Nat.mul_le_mul_right _ hm
  exact fun h => absurd (Nat.compare_eq_lt.mp h) (Nat.not_lt.mpr hp)

theorem magLog_of_significand {m k : Nat} (e : Int) (hl : 2 ^ k ≤ m) (hu : m < 2 ^ (k + 1)) : magLog m e = k + e := by
  have hm : m ≠ 0 := by have := Nat.two_pow_pos k; omega
  rw [magLog, (Nat.log2_eq_iff hm).mpr ⟨hl, hu⟩]

/-! Floating-point codes (R36). -/

namespace Fp
variable (F : Fp)

/-- A code is its sign, exponent and mantissa fields. -/
theorem code_eq_fields {code : Nat} (h : code < 2 ^ (F.eb + F.mb + 1)) :
    (if code / F.signBit % 2 = 1 then F.signBit else 0) + code / 2 ^ F.mb % 2 ^ F.eb * 2 ^ F.mb + code % 2 ^ F.mb = code := by
  have hs : code / F.signBit < 2 := Nat.div_lt_of_lt_mul (by rwa [signBit, ← Nat.pow_succ])
  have hq : code / 2 ^ F.mb / 2 ^ F.eb = code / F.signBit := by rw [Nat.div_div_eq_div_mul, ← Nat.pow_add, Nat.add_comm F.mb, signBit]
  have hsign : (if code / F.signBit % 2 = 1 then F.signBit else 0) = code / F.signBit * 2 ^ F.eb * 2 ^ F.mb := by
    rw [Nat.mul_assoc, ← Nat.pow_add, ← signBit]
    obtain h | h := Nat.le_one_iff_eq_zero_or_eq_one.mp (Nat.le_of_lt_succ hs)
    · rw [h, if_neg (by decide), Nat.zero_mul]
    · rw [h, if_pos rfl, Nat.one_mul]
  rw [hsign, ← hq, ← Nat.add_mul, Nat.div_add_mod', Nat.div_add_mod']

variable {F}

/-- The exponent fields of numbers: an IEEE layout's highest one is for infinities and NaNs. -/
theorem le_maxE {E : Nat} (hE : E < 2 ^ F.eb) (h : ¬(F.ieee = true ∧ E = 2 ^ F.eb - 1)) : E ≤ F.maxE := by
  unfold maxE
  by_cases hi : F.ieee = true
  · have hne : E ≠ 2 ^ F.eb - 1 := fun he => h ⟨hi, he⟩
    rw [if_pos hi]; omega
  · rw [if_neg hi]; omega

/-- What decodes to a non-zero number in the tensor domain is a normal code (R36, R37). -/
theorem decode_nonzero {code m : Nat} {neg : Bool} {e : Int} (h : F.decode false code = .fin neg m e) (hm : m ≠ 0) :
    let E := code / 2 ^ F.mb % 2 ^ F.eb
    neg = decide (code / F.signBit % 2 = 1) ∧ 0 < E ∧ E ≤ F.maxE ∧ m = 2 ^ F.mb + code % 2 ^ F.mb ∧ e = (E : Int) - F.bias - F.mb := by
  intro E
  have hE : E < 2 ^ F.eb := Nat.mod_lt _ (Nat.two_pow_pos _)
  simp only [decode, Bool.false_and, Bool.false_eq_true, if_false, Bool.and_eq_true, beq_iff_eq] at h
  split at h
  next => split at h <;> cases h
  next hi =>
    split at h
    next => cases h
    next =>
      split at h
      next => exact absurd (Val.fin.inj h).2.1.symm hm
      next hz =>
        obtain ⟨rfl, rfl, rfl⟩ := Val.fin.inj h
        exact ⟨rfl, Nat.pos_of_ne_zero hz, le_maxE hE hi, rfl, rfl⟩

variable (mode r23 : Nat) (ovf neg : Bool) {E M : Nat} {ue : Int}

theorem pack_normal (hM : M < 2 ^ F.mb) (hE : ue + F.mb + F.bias = E) : F.pack neg (2 ^ F.mb + M) ue = (if neg = true then F.signBit else 0) + E * 2 ^ F.mb + M := by
  have hp : 2 ^ (F.mb + 1) = 2 * 2 ^ F.mb := Nat.pow_succ'
  simp only [pack, if_neg (show ¬2 ^ (F.mb + 1) ≤ 2 ^ F.mb + M by omega), if_neg (show ¬2 ^ F.mb + M < 2 ^ F.mb by omega), hE, Int.toNat_natCast, Nat.add_sub_cancel_left]

/-- A normal value is rounded nowhere: it is within the format's range, and its significand needs no bit more. -/
theorem roundT_normal (h0 : 0 < E) (hE : E ≤ F.maxE) (hM : M < 2 ^ F.mb) :
    F.roundT mode ovf r23 neg (2 ^ F.mb + M) ((E : Int) - F.bias - F.mb) = ((if neg = true then F.signBit else 0) + E * 2 ^ F.mb + M, 0) := by
  have hp : 2 ^ (F.mb + 1) = 2 * 2 ^ F.mb := Nat.pow_succ'
  have hlog : magLog (2 ^ F.mb + M) ((E : Int) - F.bias - F.mb) - F.mb = (E : Int) - F.bias - F.mb := by
    rw [magLog_of_significand (k := F.mb) _ (by omega) (by omega)]; omega
  have hr : (roundAt mode neg (2 ^ F.mb + M) ((E : Int) - F.bias - F.mb) ((E : Int) - F.bias - F.mb) r23).1 = 2 ^ F.mb + M := by
    rw [roundAt_of_le (Int.le_refl _), Int.sub_self, Int.toNat_zero, Nat.pow_zero, Nat.mul_one]
  have hmax : magCmp (2 ^ F.mb + M) ((E : Int) - F.bias - F.mb) F.maxMag.1 F.maxMag.2 ≠ .gt :=
    magCmp_ne_gt (by simp only [maxMag]; omega) (by simp only [maxMag]; omega)
  have hmin : magCmp (2 ^ F.mb + M) ((E : Int) - F.bias - F.mb) 1 F.emin ≠ .lt :=
    magCmp_pow_ne_lt (k := F.mb) (by omega) (by simp only [emin]; omega)
  unfold roundT
  simp only [hlog, hr]
  rw [if_neg (by have := Nat.two_pow_pos F.mb; omega), if_neg hmax, if_neg hmin, pack_normal (E := E) neg hM (by omega)]

theorem roundT_decode {code m : Nat} {neg : Bool} {e : Int} (hc : code < 2 ^ (F.eb + F.mb + 1)) (h : F.decode false code = .fin neg m e) (hm : m ≠ 0) :
    F.roundT mode ovf r23 neg m e = (code, 0) := by
  obtain ⟨rfl, h0, hE, rfl, rfl⟩ := decode_nonzero h hm
  rw [roundT_normal mode r23 ovf _ h0 hE (Nat.mod_lt _ (Nat.two_pow_pos _))]
  simp only [decide_eq_true_eq, code_eq_fields F hc]

end Fp

/-- Settles O59: the decision of each mode, and the exactness of what a normal code holds. -/
theorem roundingModes : Obligations.RoundingModes := by
  refine ⟨fun neg m r23 e ue h => ?_, fun f code mode r23 F ovf neg m e _ hc hd hm => Fp.roundT_decode mode r23 ovf hc hd hm⟩
  simp only [roundAt_of_lt h, roundUp_RZ, roundUp_RNE, roundUp_RNA]
  have hu := Nat.two_pow_pos (ue - e).toNat
  generalize (ue - e).toNat = sh at *
  refine ⟨fun mode => ?_, rfl, fun hr => ?_, fun hlt => ?_, fun hgt => ?_, fun heq => ?_⟩
  · by_cases hr : m % 2 ^ sh = 0
    · exact .inl (by rw [hr, roundUp_exact]; rfl)
    · split
      · exact .inr ⟨hr, rfl⟩
      · exact .inl rfl
  · rw [roundUp_RU _ _ _ _ hr, roundUp_RD _ _ _ _ hr]
    cases neg <;> exact ⟨rfl, rfl⟩
  · exact ⟨if_neg (by omega), if_neg (by omega)⟩
  · exact ⟨if_pos (by omega), if_pos (by omega)⟩
  · refine ⟨?_, if_pos (by omega)⟩
    split <;> omega

end Sys2Proof.Machine
end
